-- ==== Sys2Proof/Word.lean ====
section
/-! DEFINITION. Word types and the plainest arithmetic of the model: machine words (R9), saturating counts,
tables of a fixed number of entries, and the two ways the spec divides with rounding. -/

namespace Sys2Proof

/-- A word, 32 bits (R9). -/
abbrev Word := BitVec 32

/-- A byte, 8 bits (R9). -/
abbrev Byte := BitVec 8

/-- Entry `i` of a table; the default outside it. -/
def vget {α : Type} {n : Nat} [Inhabited α] (v : Vector α n) (i : Nat) : α := v[i]?.getD default

/-- The table with entry `i` replaced; unchanged outside it. -/
def vset {α : Type} {n : Nat} (v : Vector α n) (i : Nat) (x : α) : Vector α n := v.setIfInBounds i x

/-- The table with `f` applied to entry `i`. -/
def vmod {α : Type} {n : Nat} [Inhabited α] (v : Vector α n) (i : Nat) (f : α → α) : Vector α n :=
  vset v i (f (vget v i))

/-- Add one to a count that saturates at `top`. -/
def satInc (top n : Nat) : Nat := if n < top then n + 1 else top

/-- Add `k` to a count that saturates at `top`. -/
def satAdd (top n k : Nat) : Nat := min top (n + k)

/-- The top of a 32-bit saturating count (R127). -/
def max32 : Nat := 4294967295

/-- Two to the 32, the modulus of the 32-bit counts. -/
def pow32 : Nat := 4294967296

/-- `a / b` rounded to the nearest whole number, halves up. -/
def divHalfUp (a b : Nat) : Nat := (2 * a + b) / (2 * b)

/-- `a` newer than `b` in 32-bit serial number arithmetic (R272). -/
def serialNewer (a b : Nat) : Bool :=
  let d := (a + pow32 - b % pow32) % pow32
  decide (1 ≤ d ∧ d ≤ 2147483647)

/-- The bit of a natural number, as 0 or 1. -/
def bitNat (b : Bool) : Nat := if b then 1 else 0

end Sys2Proof
end

