-- ==== Sys2Proof/Syntax.lean ====
section
/-! DEFINITION. The commands of the block: `Instr` has one constructor per row of `spec/opcode_table.json`, in
the table's order. The table gives no operands: each row's operands are the quantities its rule names (log 2). -/

namespace Sys2Proof

/-- A core: 0..5 are FC0..FC5 and 6 is LC (the numbering of R528 and R642). -/
abbrev CoreId := Fin 7
/-- A general register number (R493). -/
abbrev Reg := Fin 32
/-- A bay, 0..95 (R23). -/
abbrev BayNo := Fin 96
/-- A tenancy, T0..T15 (R330). -/
abbrev Ten := Fin 16
/-- A thread, TID 0..127 (R491). -/
abbrev Tid := Fin 128

/-- The session that sent a line, and the line's tag without its "#" ("-" where the line has none, R116). -/
structure Src where
  ses : Fin 16
  tag : String
  deriving DecidableEq, Repr, Inhabited

/-- A rail of a bay (R389). -/
inductive Rail where
  | main
  | aux
  deriving DecidableEq, Repr, Inhabited

/-- A side of the hinge: LC or a field core (R50). -/
inductive Who where
  | lc
  | fc (k : Fin 6)
  deriving DecidableEq, Repr, Inhabited

/-- A hinge mailbox (R59). -/
inductive Box where
  | l2f
  | f2l
  deriving DecidableEq, Repr, Inhabited

/-- A port access: the port, the value written where it is a write, and the register that a read goes to (R553, R671). -/
structure Access where
  port  : BitVec 16
  write : Option Word
  rd    : Reg := 0
  deriving DecidableEq, Repr, Inhabited

/-- A `value` token (R117): its whole part, its fraction and how many fractional digits were typed. -/
structure DecVal where
  whole  : Nat
  frac   : Nat
  digits : Nat
  deriving DecidableEq, Repr, Inhabited

/-- The words of ENVELOPE SET (R159). -/
inductive EnvWord where
  | main | aux | margin | shed | guard
  deriving DecidableEq, Repr, Inhabited

/-- Tag colours (R167). -/
inductive Colour where
  | green | amber | blue
  deriving DecidableEq, Repr, Inhabited

/-- Tag patterns (R479). -/
inductive Pattern where
  | off | steady | blink1 | blink4 | breathe
  deriving DecidableEq, Repr, Inhabited

/-- The words of FACE VIEW (R488). -/
inductive View where
  | state | power | time | ring | auto
  deriving DecidableEq, Repr, Inhabited

/-- Address spaces of a debug access (R694). -/
inductive DbgSpace where
  | data | io | instr | context
  deriving DecidableEq, Repr, Inhabited

/-- A handle as written on a line (R221). -/
structure HRef where
  kk  : Byte
  seq : BitVec 16
  deriving DecidableEq, Repr, Inhabited

/-- The commands. -/
inductive Instr where
  -- Starts, states and the WAKE and REST sequences
  | powerOn
  | brownout (holdUp : Bool)
  | resetPin
  | testmodeHigh
  | clockLoss
  | resetRelease (head : Bool) (cts : Bool)
  | readyLine
  | readyFace
  | readySeedbank
  | readyFurrow
  | readyCalendar
  | readyRing
  | ringAloneTimeout
  | readyReplay
  | readyKeys
  | fieldEnHoldEnd
  | wakeStart
  | fieldPgRise
  | fieldPgDropInLock
  | fieldPgTimeout
  | pllLock
  | pllNoLock
  | fieldResetRelease
  | readyField (romOk : Bool)
  | readySower
  | readyGranary
  | readyBaysRow (r : Fin 12)
  | readyEnvelope
  | readyLedger
  | readyTenancy
  | readyPlot (p : Ten)
  | fieldLostPg
  | fieldLostPll
  | restDispatch
  | restPlotsIdle
  | restPlotTimeout
  -- The hinge and recovery
  | hingeTransferRequest (lat : Option Access) (fld : List (Fin 6 × Access))
  | hingeHeldGrant
  | mailboxClaim (who : Who) (box : Box)
  | mailboxPost (who : Who) (box : Box) (count : BitVec 5)
  | mailboxRelease (who : Who) (box : Box)
  | mailboxWordWrite (who : Who) (box : Box) (j : Fin 16) (w : Word)
  | mailboxForceFree (box : Box)
  | hingeNotifyPost (box : Box)
  | heartbeatTouch (k : Fin 6)
  | heartbeatExpiry (k : Fin 6)
  | coreFaultRecovery (k : Fin 6)
  | recoveryTimeout
  | threadFaultRecovery
  -- The console and sessions
  | consoleChar (c : Byte) (framingError : Bool)
  | consCtsChange (level : Bool)
  | malformedLine (ses : Fin 16)
  | forwardAddressedLine (n : Byte) (text : String)
  | broadcastLine (text : String)
  | outputQueueRoom (chars : Nat)
  | sessionIdleTimeout (ses : Fin 16)
  -- Shelf verbs
  | state (q : Src)
  | wake (q : Src)
  | rest (q : Src)
  | bayOn (q : Src) (bays : List BayNo)
  | bayOff (q : Src) (bays : List BayNo)
  | bayOnItem (n : BayNo)
  | bayOffItem (n : BayNo)
  | bayLocateOn (q : Src) (n : BayNo)
  | bayLocateOff (q : Src) (n : BayNo)
  | locateMarkTimeout (n : BayNo)
  | bayUnlock (q : Src) (n : BayNo) (proofM : Bool) (proofA : Bool)
  | bayInfo (q : Src) (bays : List BayNo)
  | envelope (q : Src)
  | envelopeSet (q : Src) (word : EnvWord) (v : DecVal)
  | profile (q : Src) (n : BayNo)
  | profileForget (q : Src) (bays : List BayNo)
  | profileForgetItem (n : BayNo)
  | scan (q : Src)
  | scanRow (q : Src) (r : Fin 16)
  | keys (q : Src) (bays : List BayNo)
  | keysPanel (q : Src)
  | keysGeneral (q : Src)
  | tag (q : Src) (bays : List BayNo) (colour : Colour) (pattern : Pattern)
  | tagAuto (q : Src) (bays : List BayNo)
  | face (q : Src)
  | faceText (q : Src) (text : String)
  | faceTextOff (q : Src)
  | faceView (q : Src) (view : View)
  | keypadHoldTimeout
  | fan (q : Src)
  | fanDuty (q : Src) (fans : List (Fin 8)) (p : Fin 101)
  | fanAuto (q : Src) (fans : List (Fin 8))
  | fanAbsentTimeout (n : Fin 8)
  | fanTachSecond (pulses : Vector (BitVec 16) 8)
  | fanStall (n : Fin 8)
  | thermistorConversion (j : Fin 17) (code : BitVec 12)
  | temp (q : Src)
  -- Account, plot and service verbs
  | line (q : Src)
  | lineBaud (q : Src) (b : Nat)
  | lineXonOn (q : Src)
  | lineXonOff (q : Src)
  | baudApply
  | echo (q : Src)
  | echoOn (q : Src)
  | echoOff (q : Src)
  | who (q : Src)
  | whoAll (q : Src)
  | openT (q : Src) (t : Ten)
  | prove (q : Src) (groups : List (BitVec 16))
  | challengeLapse (ses : Fin 16)
  | close (q : Src)
  | key (q : Src) (t : Ten)
  | keySet (q : Src) (t : Ten) (key : BitVec 256)
  | keyClear (q : Src) (t : Ten)
  | tenancy (q : Src) (t : Ten)
  | tenancyGroup (q : Src) (t : Ten) (g : Nat)
  | tenancyShare (q : Src) (t : Ten) (v : DecVal)
  | tenancyAllot (q : Src) (t : Ten) (v : DecVal)
  | tenancyWeight (q : Src) (g : Nat) (w : Nat)
  | tenancySettingApply
  | assign (q : Src) (bays : List BayNo) (t : Ten)
  | assignNone (q : Src) (bays : List BayNo)
  | quota (q : Src) (t : Ten)
  | quotaPool (q : Src) (t : Ten) (p : Nat) (k : Nat)
  | ledger (q : Src) (t : Ten)
  | ledgerGaps (q : Src) (t : Ten)
  | ledgerEpoch (q : Src) (t : Ten)
  | time (q : Src)
  | timeSet (q : Src) (n : Word)
  | plot (q : Src)
  | plotTenancy (q : Src) (t : Ten)
  | plotLoad (q : Src) (t : Ten) (a : Nat)
  | plotUnload (q : Src) (t : Ten)
  | xVerb (q : Src) (name : String) (text : String)
  | xCompletion
  | plotWakeRequest
  | plotWakeDue (t : Ten)
  | deferredResourceClaim
  | ring (q : Src)
  | ringEnum (q : Src)
  | ringTermOn (q : Src)
  | ringTermOff (q : Src)
  | trace (q : Src)
  | traceCoresOn (q : Src) (cores : List CoreId)
  | traceCoresOff (q : Src) (cores : List CoreId)
  | traceModeStop (q : Src)
  | traceModeWrap (q : Src)
  | traceClear (q : Src)
  | traceDump (q : Src) (k : Nat)
  | statsQ (q : Src) (n : Fin 64)
  | statsCore (q : Src) (n : CoreId)
  | statsClear (q : Src)
  | granary (q : Src)
  | granaryUse (q : Src) (r : Fin 32)
  | granaryModeSingle (q : Src)
  | granaryModeSized (q : Src)
  | furrow (q : Src)
  | seedbank (q : Src)
  | selftest (q : Src)
  | resetField (q : Src)
  -- Handles, the journal and the furrow
  | handle (q : Src) (h : HRef)
  | handles (q : Src)
  | handlesOrphan (q : Src)
  | cancel (q : Src) (h : HRef)
  | completionHeldSend
  | journalWriteStart
  | recordDurable (verified : Bool)
  | furRead
  | furWrite
  | furrowOpDone (verified : Bool)
  -- The ring
  | ringSolFrame (mark : Bool) (dest src ses : Byte) (text : String) (left : Fin 65)
  | ringSobFrame (mark : Bool) (dest src ses : Byte) (text : String) (left : Fin 65)
  | ringSorFrame (mark : Bool) (dest src ses : Byte) (text : String) (left : Fin 65)
  | ringEnumFrame (pass next : Byte) (full ovr : Bool)
  | ringBrkFrame (reporter : Byte) (numbered : Bool) (hops : Byte)
  | ringJoinFrame
  | ringAbt (forwarded : Bool)
  | ringFramingError (forwarded : Bool)
  | ringOverrun (forwarded : Bool)
  | ringHoldInput (hold : Bool)
  | ringTxFrameStart
  | enumPassTimeout
  | enumBrokenRetry
  | upstreamDead
  | upstreamAlive
  | breakReportRepeat
  | joinRepeat
  | ringBypass (on : Bool)
  | rngEnumWrite
  | rngRxRead
  | rngTxSymbol (sym : BitVec 9)
  | rngTxCancel
  -- Keyswitch, seedbank, calendar and ledger
  | keyswitchFault
  | sdbRead
  | sdbWrite
  | seedbankOpDone (verified : Bool)
  | calendarTick
  | tickItemPost
  | calendarSave (verified : Bool)
  | utcAdvance
  | ledgerTick
  | intervalEnd
  | checkpointDurable (verified : Bool)
  | calTickLoRead (t : Tid)
  | calLoad (lo : Word) (hi : BitVec 16)
  | calUtcSet (v : Word)
  -- Bay channels
  | bayStart (n : BayNo)
  | bayStop (n : BayNo)
  | gateGood (n : BayNo) (rail : Rail)
  | blankWindowEnd (n : BayNo) (rail : Rail)
  | fastOver (n : BayNo) (rail : Rail)
  | slowTrip (n : BayNo) (rail : Rail)
  | gateTimeout (n : BayNo) (rail : Rail)
  | gatesBelow1v (n : BayNo)
  | gateOffLockout (n : BayNo) (mainUp : Bool) (auxUp : Bool)
  | shadowMismatch (n : BayNo) (rail : Rail) (parity : Bool)
  | lockItemServe
  | proofStart (n : BayNo) (rail : Rail)
  | proofCheck (n : BayNo) (rail : Rail) (fastOver : Bool) (slowOver : Bool)
  | proofEnd (n : BayNo) (rail : Rail) (stillOver : Bool)
  | proofRun (n : BayNo)
  | adcSampleComplete (isum : List Int) (vsum : List Nat)
  | sysLockSet (n : BayNo)
  | sysLockClear (n : BayNo)
  | guardSlot (mainCodes : List Int) (auxCodes : List Int)
  | guardHold
  | guardHoldClear
  | guardRelease
  | guardShed
  | plannerStart (n : BayNo)
  | replan
  | profileUpdate (n : BayNo)
  | envPeakRead
  -- The key scanner, the keypad and the face
  | scanFrameStart (contacts : Vector (BitVec 32) 16)
  | shiftStallResume
  | scanFrameComplete
  | scanSwap
  | scanStepWrite (j : Fin 64) (w : Word)
  | scanArm
  | scanDisarm
  | keyEventServe
  | keyLocate (n : BayNo)
  | keyLever (n : BayNo)
  | keypadBay (digits : List (Fin 10))
  | keypadTenancy (digits : List (Fin 10))
  | keypadUpDown (up : Bool)
  | keypadLocate
  | keypadView
  | keypadClear
  | panelWake
  | panelRest
  | panelDot (held : Bool)
  | errTimeout
  | faceCommit
  | faceFrameStart
  | faceRender
  | faceViewRotate
  -- Oluique instructions: integer
  | nop (k : CoreId)
  | add (k : CoreId) (rd ra rb : Reg)
  | sub (k : CoreId) (rd ra rb : Reg)
  | addc (k : CoreId) (rd ra rb : Reg)
  | subc (k : CoreId) (rd ra rb : Reg)
  | and (k : CoreId) (rd ra rb : Reg)
  | or (k : CoreId) (rd ra rb : Reg)
  | xor (k : CoreId) (rd ra rb : Reg)
  | shl (k : CoreId) (rd ra rb : Reg)
  | shr (k : CoreId) (rd ra rb : Reg)
  | sar (k : CoreId) (rd ra rb : Reg)
  | slt (k : CoreId) (rd ra rb : Reg)
  | sltu (k : CoreId) (rd ra rb : Reg)
  | clz (k : CoreId) (rd ra : Reg)
  | popc (k : CoreId) (rd ra : Reg)
  | shli (k : CoreId) (rd ra : Reg) (n : Fin 32)
  | shri (k : CoreId) (rd ra : Reg) (n : Fin 32)
  | sari (k : CoreId) (rd ra : Reg) (n : Fin 32)
  | addi (k : CoreId) (rd ra : Reg) (imm : BitVec 16)
  | andi (k : CoreId) (rd ra : Reg) (imm : BitVec 16)
  | ori (k : CoreId) (rd ra : Reg) (imm : BitVec 16)
  | xori (k : CoreId) (rd ra : Reg) (imm : BitVec 16)
  | slti (k : CoreId) (rd ra : Reg) (imm : BitVec 16)
  | lui (k : CoreId) (rd : Reg) (imm : BitVec 16)
  -- Oluique instructions: memory, ports and instruction space
  | ldw (k : CoreId) (rd ra : Reg) (imm : BitVec 16)
  | ldh (k : CoreId) (rd ra : Reg) (imm : BitVec 16)
  | ldhu (k : CoreId) (rd ra : Reg) (imm : BitVec 16)
  | ldb (k : CoreId) (rd ra : Reg) (imm : BitVec 16)
  | ldbu (k : CoreId) (rd ra : Reg) (imm : BitVec 16)
  | stw (k : CoreId) (rs ra : Reg) (imm : BitVec 16)
  | sth (k : CoreId) (rs ra : Reg) (imm : BitVec 16)
  | stb (k : CoreId) (rs ra : Reg) (imm : BitVec 16)
  | xchw (k : CoreId) (rd ra : Reg) (imm : BitVec 16)
  | portIn (k : CoreId) (rd ra : Reg) (imm : BitVec 16)
  | portOut (k : CoreId) (rs ra : Reg) (imm : BitVec 16)
  | portWriteDrain (k : Fin 6)
  | ird (k : CoreId) (rd ra : Reg) (imm : BitVec 16)
  | iwr (k : CoreId) (rs ra : Reg) (imm : BitVec 16)
  -- Oluique instructions: control and thread status
  | beq (k : CoreId) (ra rb : Reg) (off : BitVec 16)
  | bne (k : CoreId) (ra rb : Reg) (off : BitVec 16)
  | blt (k : CoreId) (ra rb : Reg) (off : BitVec 16)
  | bge (k : CoreId) (ra rb : Reg) (off : BitVec 16)
  | bltu (k : CoreId) (ra rb : Reg) (off : BitVec 16)
  | bgeu (k : CoreId) (ra rb : Reg) (off : BitVec 16)
  | jmp (k : CoreId) (off : BitVec 26)
  | call (k : CoreId) (off : BitVec 26)
  | jr (k : CoreId) (ra : Reg)
  | callr (k : CoreId) (ra : Reg)
  | ret (k : CoreId)
  | tsr (k : CoreId) (rd : Reg)
  | tsw (k : CoreId) (ra rb : Reg)
  | fence (k : CoreId)
  | brk (k : CoreId) (imm : BitVec 16)
  -- Oluique instructions: the Sower group
  | spillPost (q : Fin 64)
  | post (k : CoreId) (rs ra : Reg) (imm : BitVec 16)
  | poste (k : CoreId) (rs ra : Reg) (imm : BitVec 16)
  | waitspaceGrant (q : Fin 64)
  | next (k : CoreId)
  | done (k : CoreId)
  | yieldT (k : CoreId)
  | flowseize (k : CoreId) (rd ra : Reg)
  -- Oluique instructions: multiply, divide, decimal and float
  | mul (k : CoreId) (rd ra rb : Reg)
  | mulhs (k : CoreId) (rd ra rb : Reg)
  | mulhu (k : CoreId) (rd ra rb : Reg)
  | mulws (k : CoreId) (rd ra rb : Reg)
  | mulwu (k : CoreId) (rd ra rb : Reg)
  | divs (k : CoreId) (rd ra rb : Reg)
  | divu (k : CoreId) (rd ra rb : Reg)
  | rems (k : CoreId) (rd ra rb : Reg)
  | remu (k : CoreId) (rd ra rb : Reg)
  | dadd (k : CoreId) (rd ra rb : Reg)
  | daddc (k : CoreId) (rd ra rb : Reg)
  | dsub (k : CoreId) (rd ra rb : Reg)
  | dsubc (k : CoreId) (rd ra rb : Reg)
  | dmulw (k : CoreId) (rd ra rb : Reg)
  | dcvb (k : CoreId) (rd ra : Reg)
  | dcvd (k : CoreId) (rd ra : Reg)
  | dshl (k : CoreId) (rd ra : Reg) (n : Fin 32)
  | dshr (k : CoreId) (rd ra : Reg) (n : Fin 32)
  | fadd (k : CoreId) (rd ra rb : Reg)
  | fsub (k : CoreId) (rd ra rb : Reg)
  | fmul (k : CoreId) (rd ra rb : Reg)
  | fdiv (k : CoreId) (rd ra rb : Reg)
  | fsqrt (k : CoreId) (rd ra : Reg)
  | fmadd (k : CoreId) (rd ra rb rc : Reg)
  | fmin (k : CoreId) (rd ra rb : Reg)
  | fmax (k : CoreId) (rd ra rb : Reg)
  | fcmpeq (k : CoreId) (rd ra rb : Reg)
  | fcmplt (k : CoreId) (rd ra rb : Reg)
  | fcmple (k : CoreId) (rd ra rb : Reg)
  | fcvtws (k : CoreId) (rd ra : Reg)
  | fcvtsw (k : CoreId) (rd ra : Reg)
  | fneg (k : CoreId) (rd ra : Reg)
  | fabs (k : CoreId) (rd ra : Reg)
  | delayedResultWrite (k : CoreId)
  | interlockedResult (k : CoreId)
  -- The Sower, its ports and the Granary
  | dispatch (k : CoreId)
  | prefetch (k : CoreId)
  | preempt (latch : Bool)
  | threadStop (t : Tid)
  | threadStart (t : Tid)
  | queueFlush (who : Who) (q : Fin 64)
  | sowQWrite (who : Who) (q : Fin 64) (v : Word)
  | sowModeWrite (who : Who) (affinity : Bool)
  | sowWeightWrite (who : Who) (g : Fin 8) (w : Byte)
  | sowDispatchWrite (who : Who) (on : Bool)
  | sowPreemptWrite (who : Who) (mask : BitVec 6)
  | sowStatsSelect (who : Who) (sel : BitVec 7)
  | sowStatsClear (who : Who)
  | contextWindowAccess (who : Who) (latch : Bool) (write : Option Word)
  | tracePortClear (who : Who)
  | traceRead (who : Who)
  | granaryTake (k : CoreId) (r : Fin 32) (sl : Fin 4)
  | granaryGive (k : CoreId) (r : Fin 32) (addr : Word)
  | granaryModeWrite (who : Who) (sized : Bool)
  | granaryMinWrite (who : Who) (r : Fin 32) (p : Fin 4) (v : BitVec 13)
  | granaryQuotaWrite (who : Who) (r : Fin 32) (p : Fin 4) (v : BitVec 13)
  -- Console, SPI and other ports, JTAG, ring idle
  | consoleRxRead
  | consoleTxWrite (c : Byte)
  | spiGo (who : Who)
  | spiDone
  | alertWrite (on : Bool)
  | registerWrite (who : Who) (port : BitVec 16) (v : Word)
  | extest
  | samplePreload (captured : List Bool) (load : List Bool)
  | dbgStatus
  | dbgRead (space : DbgSpace) (lcSide : Bool) (addr : Word)
  | dbgWrite (space : DbgSpace) (lcSide : Bool) (addr : Word) (data : Word)
  | dbgResume (t : Tid)
  | dbgReset (on : Bool)
  | jtagBypass
  | idleSymbol
  | testLogicReset
  deriving DecidableEq, Repr

end Sys2Proof
end

