-- ==== Sys2Proof/Decode.lean ====
section
/-! DEFINITION. The decoder of opcode-table words. `spec/opcode_table.json` gives no row of this block any bits
(every `fields` list is empty), so no word spells a command (log 2). -/

namespace Sys2Proof

/-- The command that a word of the table spells: none, since the table gives no row any bits (log 2). -/
def decodeTableWord (_nbits _w : Nat) : Option Instr := none

end Sys2Proof
end

