-- ==== Sys2Proof/Config.lean ====
section
/-! DEFINITION. What an implementation fixes and what the spec leaves free. Every constant here is OPAQUE: no
proof can see its value, so a claim holds whatever it is. -/

namespace Sys2Proof.Config

/-- The unit serial, fixed at manufacture (R340). -/
opaque serial : BitVec 64

/-- SYS_ID EXT: true for WZ4896-EB (R2, the SYS_ID port). -/
opaque ext : Bool

/-- Byte `a` of the 256 KiB keeper ROM, whose contents the spec does not give (R497). -/
opaque keeperRom : Nat → Byte

/-- Byte `a` of the 32 KiB latch ROM, whose contents the spec does not give (R498). -/
opaque latchRom : Nat → Byte

/-- Byte `a` of the latch instruction RAM as loaded from latch ROM at a cold start (R92). -/
opaque latchIram : Nat → Byte

/-- A fresh 64-bit challenge: draw number `n` of the entropy source (R338). -/
opaque challenge : Nat → BitVec 64

/-- Byte `i` of a unit damaged by free event number `n`: any mixture of old, new and other values (R736). -/
opaque damagedByte : Nat → Nat → Byte

/-- Free value number `n`, for a value the spec leaves open and after which the block goes on. -/
opaque freeWord : Nat → Word

/-- A profile point whose new value, `n`, falls outside its 16 bits: what the keeper stores the spec does not say (R445,
log 84). -/
opaque pointOver : Int → BitVec 16

/-- The contacts that a step of a scan frame samples where the command gives none for its time, by free event number and step
(R460, R467, log 93). -/
opaque laterContacts : Nat → Nat → BitVec 32

/-- The thread, and the core, with which keeper firmware that the model does not follow serves the item of an age (log 19). -/
opaque servingTid : Nat → BitVec 8
opaque servingCore : Nat → BitVec 8

/-- The keeper field thread that holds the Granary buffer of the X verb with this handle until its item is posted (R206, R524, log
19). -/
opaque holdingTid : Nat → Nat → BitVec 8

/-- TYPE of the items of keeper firmware's own forms: software-defined (R615), and the spec gives none (log 19). -/
opaque keeperType : BitVec 16

end Sys2Proof.Config
end

