-- ==== Sys2Proof/Machine/State.lean ====
section
/-! DEFINITION. The state of the block: everything the spec gives the keeper, as plain data. Each field's comment
names the rule of `spec/` that gives it and its value in `State.reset`, which is the state at reset release (R71)
after a power-on. -/

namespace Sys2Proof.Machine

/-- Sparse byte memory: (address, byte) pairs, addresses strictly rising, no entry equal to what an unlisted
address reads as. -/
abbrev Mem := List Host.Cell

/-- Keeper states, in the code order of SYS_STATUS STATE. -/
inductive KState where
  | latch | waking | field | resting
  deriving DecidableEq, Repr, Inhabited

/-- The PLL (R27). -/
inductive Pll where
  | off | locking | locked
  deriving DecidableEq, Repr, Inhabited

/-- The cause of a WAKE sequence (R35), with the tenancy it counts toward (R369). -/
inductive WakeCause where
  | verb (t : Nat) | panel | plot (t : Nat) | form (t : Nat)
  deriving DecidableEq, Repr, Inhabited

/-- The functions that announce themselves (R76). -/
inductive Fn where
  | line | face | seedbank | furrow | calendar | ring | replay | keys
  | field | sower | granary | baysRow (r : Nat) | envelope | ledger | tenancy | plot (p : Nat)
  deriving DecidableEq, Repr, Inhabited

/-- JTAG instructions (R694). -/
inductive Jtag where
  | bypass | extest | sample | dbgStatus | dbgRead | dbgWrite | dbgResume | dbgReset
  deriving DecidableEq, Repr, Inhabited

/-- What follows a result line once it is queued: the end of a trace dump's pause (R214), or a RESET FIELD (R220). -/
inductive Due where
  | dump
  | resetField
  | close
  | opened
  deriving DecidableEq, Repr, Inhabited

/-- Power, reset, keeper state and the system ports. -/
structure Sys where
  /-- Cold-start reset is held (R71). Reset: released. -/
  inReset : Bool := false
  /-- VSTBY is below 2.80 V: furrow and seedbank writes are refused (R263, FUR_STATUS LOCKOUT). Reset: 0. -/
  vstbyLow : Bool := false
  /-- Keeper state, 2 bits (SYS_STATUS STATE, R34 table). Reset: LATCH. -/
  kst : KState := .latch
  /-- Field reset is released (SYS_STATUS FIELD_UP). Reset: 0. -/
  fieldUp : Bool := false
  /-- FIELD_EN (R36). Reset: low. -/
  fieldEn : Bool := false
  /-- FIELD_PG as last sampled while FIELD_EN is high (R37). Reset: low. -/
  fieldPg : Bool := false
  /-- The PLL (R27). Reset: off. -/
  pll : Pll := .off
  /-- SCLK runs at 48 x CLKREF (R26). Reset: no. -/
  fastClk : Bool := false
  /-- FIELD_EN fell less than 100 ms ago (R39). Reset: no. -/
  enHold : Bool := false
  /-- Causes of the WAKE that waits to take step 1, oldest first (R35, R39, R44, R699). Reset: none. -/
  wakePend : List WakeCause := []
  /-- The WAKE sequence under way or last run: the causes that asked for it before its step 1, oldest first (R35, R369).
  Reset: none. -/
  wakeCause : List WakeCause := []
  /-- Cause code that the coming field start records, 4 bits (R69). Reset: 1. -/
  nextFieldCause : Nat := 1
  /-- REST step reached by the REST under way, 0 where none runs (R45). Reset: 0. -/
  restStep : Nat := 0
  /-- HEAD strap as sampled at reset release (R314, R690). Reset: not strapped (log 4). -/
  head : Bool := false
  /-- Row clamps engaged, bit r for row r, 12 bits (R399). Reset: all engaged. -/
  clamps : BitVec 12 := 0xFFF#12
  /-- SYS_CAUSE COLD_CAUSE, 4 bits (R69). Reset: 1, POWERON. -/
  coldCause : Nat := 1
  /-- SYS_CAUSE FIELD_CAUSE, 4 bits. Reset: 0. -/
  fieldCause : Nat := 0
  /-- SYS_CAUSE FIELD_STARTS, saturating at 255. Reset: 0. -/
  fieldStarts : Nat := 0
  /-- SYS_CAUSE LAST_LOSS, 2 bits (R47, R48, R699). Reset: 0. -/
  lastLoss : Nat := 0
  /-- SYS_LOCK0..2: lock latch of bay n in bit n, 96 bits (R400, R430). Reset: 0. -/
  lockLatch : BitVec 96 := 0#96
  /-- SYS_ALERT ASSERT (R692). Reset: 0. -/
  alert : Bool := false
  /-- A core fault has been recovered in place in this field start (R267). Reset: no. -/
  recentF2 : Bool := false
  /-- Core stopped by a full fault spill, bit k (R529). Reset: 0. -/
  spillStop : BitVec 6 := 0#6
  /-- Core stopped by heartbeat expiry, bit k (R65). Reset: 0. -/
  hbStop : BitVec 6 := 0#6
  /-- What follows result lines that are not queued yet, by session (R214, R220). Reset: none. -/
  due : List (Nat × Due) := []
  /-- Number of free values drawn so far: the model's own counter, not the spec's (log 5). Reset: 0. -/
  draws : Nat := 0
  deriving DecidableEq, Repr, Inhabited

/-- The JTAG port. -/
structure JtagPort where
  /-- Instruction register, 6 bits (R693, R694). Reset: 0x3F, BYPASS. -/
  ir : BitVec 6 := 0x3F#6
  /-- The six bits that the latest scan of the instruction register shifted out: what Capture-IR loads (R693). Reset:
  0b000001. -/
  irOut : BitVec 6 := 1#6
  /-- DBG_RESET asserts the JTAG cold-start source (R694). Reset: 0. -/
  dbgReset : Bool := false
  /-- DBG_STATUS BREAK_TID: the thread most recently parked by BREAK, 7 bits. Reset: 0. -/
  breakTid : Nat := 0
  /-- The captured DBG_STATUS word, 32 bits. Reset: 0 (log 6). -/
  status : Word := 0#32
  /-- DBG data register as the next capture reads it: DATA, 32 bits (R695). Reset: 0 (log 6). -/
  data : Word := 0#32
  /-- DBG data register: OK (R695). Reset: 0 (log 6). -/
  ok : Bool := false
  /-- DBG data register: ADDR, SPACE and SIDE as updated last (R694). Reset: 0 (log 6). -/
  addr : Word := 0#32
  space : BitVec 2 := 0#2
  side : Bool := false
  /-- A DBG_READ or DBG_WRITE has been made since the register was captured last, so it may still run (R695). Reset: no. -/
  running : Bool := false
  /-- The 72 bits that the latest scan of the DBG data register captured, BUSY in bit 70 and OK in bit 71 (R694). Reset: 0
  (log 6). -/
  drOut : BitVec 72 := 0#72
  /-- The 282 cells of `scanCells` as captured last, the cell nearest TDI first (R697). Reset: 0 (log 6). -/
  captured : List Bool := List.replicate 282 false
  /-- The same cells as loaded last, for EXTEST (R697). Reset: 0 (log 6). -/
  cells : List Bool := List.replicate 282 false
  deriving DecidableEq, Repr, Inhabited

/-- An entry of the console output queue: a whole output line without CR LF, echo characters, or the result line of LINE
BAUD with the rate code to which the console changes after its last character (R94). -/
inductive Out where
  | line (s : String)
  | echo (s : String)
  | rate (s : String) (code : Nat)
  deriving DecidableEq, Repr, Inhabited

/-- A line held until room appears (R125), and the handle whose completion it is, which stays open until the line is
queued (R228). -/
structure Held where
  out : Out
  done : Option (Nat × Nat) := none
  deriving DecidableEq, Repr, Inhabited

/-- The console port and its line editor. -/
structure Console where
  /-- Input store, oldest first, up to 512 characters (R96). Reset: empty. -/
  rx : List Byte := []
  /-- Places in the input store after which a dropped character leaves its line over-length (R98). Reset: none. -/
  marks : List Nat := []
  /-- CONS_RTS level (R96). Reset: low. -/
  rts : Bool := false
  /-- XOFF was the last flow character sent (R96). Reset: no. -/
  xoffSent : Bool := false
  /-- A flow character that is due and waits for CONS_CTS (R96, R97). Reset: none. -/
  flowDue : Option Byte := none
  /-- Flow characters sent on CONS_TXD, newest first (R96). Reset: none. -/
  flowOut : List Byte := []
  /-- CONS_CTS level (R97). Reset: low (log 4). -/
  cts : Bool := false
  /-- Output is stopped by a received XOFF (R99). Reset: no. -/
  stopped : Bool := false
  /-- Transmit store, oldest first, up to 16 characters (R674). Reset: empty. -/
  tx : List Byte := []
  /-- CON_CTL BAUD, 2 bits (R674). Reset: 1, 115,200. -/
  baud : Nat := 1
  /-- Baud code in effect on the line (R94, R674). Reset: 1. -/
  baudNow : Nat := 1
  /-- CON_CTL XON (R674). Reset: 0. -/
  xon : Bool := false
  /-- FRAMING count, 32 bits (R95). Reset: 0. -/
  framing : Nat := 0
  /-- OVERRUN count, 32 bits (R98). Reset: 0. -/
  overrun : Nat := 0
  /-- LOST count, 32 bits (R125, R183). Reset: 0. -/
  lost : Nat := 0
  /-- Lines dropped since the last LOST notice (R125). Reset: 0. -/
  lostSince : Nat := 0
  /-- The line being typed, up to 200 characters (R100). Reset: empty. -/
  buf : String := ""
  /-- The line being typed is over-length (R100). Reset: no. -/
  overlong : Bool := false
  /-- The last character received was a CR (R99). Reset: no. -/
  lastCr : Bool := false
  /-- Completed lines not yet run, oldest first (R122). Reset: none. -/
  lines : List String := []
  /-- The completed line is over-length (R100). Reset: no. -/
  longLine : Bool := false
  /-- Output queue, oldest first, 4,096 characters (R125). Reset: empty. -/
  outq : List Out := []
  /-- Characters of the oldest queue entry already sent. Reset: 0. -/
  outSent : Nat := 0
  /-- Result and completion lines held until room appears, oldest first (R125). Reset: none. -/
  held : List Held := []
  /-- The rate code of a LINE BAUD whose result has been sent: the rate changes before the next character (R94). Reset: none. -/
  rateDue : Option Nat := none
  deriving DecidableEq, Repr, Inhabited

/-- A session (R107, R108). -/
structure Session where
  /-- Open (R107, R108). Reset: only session 0, from READY LINE (R93). -/
  isOpen : Bool := false
  /-- Source keeper of a ring session, 8 bits (R108). Reset: 0. -/
  src : Nat := 0
  /-- Session byte, 8 bits (R110). Reset: 0. -/
  byte : Nat := 0
  /-- Ignored count, 32 bits, saturating (R127). Reset: 0. -/
  ignored : Nat := 0
  /-- Echo on (R103). Reset: on for session 0, off otherwise. -/
  echo : Bool := false
  /-- Proved tenancy (R334). Reset: none. -/
  proved : Option Nat := none
  /-- Pending challenge: its tenancy and its 64 bits (R187). Reset: none. -/
  challenge : Option (Nat × BitVec 64) := none
  /-- Tick at which OPEN was answered (R337). Reset: 0. -/
  openTick : Nat := 0
  /-- Tick of the last line received, or of the end of its last open handle (R109). Reset: 0. -/
  lastTick : Nat := 0
  deriving DecidableEq, Repr, Inhabited

/-- The session a handle was opened in (R255: ORIG_KEEPER, ORIG_SESSION, FLAGS). -/
inductive Origin where
  | console
  | ring (src byte : Nat)
  deriving DecidableEq, Repr, Inhabited

/-- Face settings that a handle can carry (R171). -/
inductive FaceSet where
  | text (s : String) | off | view (v : View)
  deriving DecidableEq, Repr, Inhabited

/-- The form and argument block of a handle (the verb code table of R259). Bay sets are 96-bit maps. -/
inductive Form where
  | wake
  | rest
  | bayOn (bays tripped : BitVec 96)
  | bayOff (bays : BitVec 96)
  | envSet (word : EnvWord) (v : Nat)
  | forget (bays erased : BitVec 96)
  | tag (bays : BitVec 96) (c : Colour) (p : Pattern)
  | tagAuto (bays : BitVec 96)
  | face (f : FaceSet)
  | keySet (t : Nat) (key : BitVec 256)
  | keyClear (t : Nat)
  | epoch (t e : Nat)
  | plotLoad (t a : Nat)
  | plotUnload (t : Nat)
  | selftest (passed : Nat)
  | x (t idx : Nat) (text : String) (replayable : Bool)
  deriving DecidableEq, Repr, Inhabited

/-- Handle phases (R226). -/
inductive Phase where
  | accepted | step | committed | retired
  deriving DecidableEq, Repr, Inhabited

/-- The outcome of a handle and its completion fields (R742). -/
structure Compl where
  /-- 1 DONE, 2 FAILED, 3 CANCELLED. -/
  outcome : Nat
  /-- Reason code: the form's, numbered from 1, or a common code (R742). -/
  reason : Nat
  /-- Function code for NOT-READY (R742). -/
  fn : Nat
  /-- Row or tenancy of the function (R742). -/
  detail : Nat
  /-- The form's numeric completion fields, in the order of R742. -/
  nums : List Nat
  /-- Bitmap of tripped bays (R742). -/
  tripped : BitVec 96
  /-- Completion text of an X verb (R259). -/
  text : String
  /-- The completion carries the REPLAYED mark (R230). -/
  replayed : Bool
  deriving DecidableEq, Repr, Inhabited

/-- How a fault has hit a handle that waits for its replay: not (R268), by a RESET FIELD, which does not count (R220), or
by a fault that counts (R264). -/
inductive Hit where
  | none | free | counted
  deriving DecidableEq, Repr, Inhabited

/-- An item (R615). -/
structure Item where
  /-- Words 0..3, 1..4 of them. -/
  words : List Word
  /-- Its queue. -/
  q : Nat
  /-- Age: the order in which it became visible (R618). -/
  age : Nat
  deriving DecidableEq, Repr, Inhabited

/-- An open handle (R226, R228). -/
structure Handle where
  /-- Issuing keeper's number (R221). -/
  kk : Nat
  /-- Sequence (R221). -/
  seq : Nat
  /-- Tenancy recorded at acceptance (R225). -/
  ten : Nat
  /-- Session that opened it. -/
  origin : Origin
  /-- The ring session that opened it has ended (R109). -/
  ended : Bool
  /-- Tag of its line, for the result line (R224); "" once answered. -/
  tag : String
  /-- Session number that waits for the result (R224). -/
  ses : Nat
  /-- The verb as typed, in capitals (R247). -/
  name : String
  /-- Form and argument block. -/
  form : Form
  /-- Phase whose record is durable (R226). -/
  phase : Phase
  /-- Its ACCEPTED record is durable (R224). -/
  accepted : Bool
  /-- Step number of the newest record (R255). -/
  step : Nat
  /-- Step number of the newest record asked for. -/
  stepReq : Nat
  /-- A COMMITTED record has been requested (R250). -/
  committing : Bool
  /-- The outcome is fixed: a RETIRED record has been requested (R250). -/
  compl : Option Compl
  /-- Cancelled, waiting for its items in service to end (R251). -/
  cancelled : Bool
  /-- Times run again under replay, 0..3 (R247). -/
  replays : Nat
  /-- Run again under replay (R230). -/
  replayed : Bool
  /-- Waits for replay (R88, R141). -/
  waiting : Bool
  /-- The fault that hit it since its newest record, which its replay is to record (R268, R274). -/
  hit : Hit
  /-- The copy of R274 is not durable yet. -/
  copying : Bool
  /-- Running: its work has begun. -/
  running : Bool
  /-- Order of acceptance: SEQ of its ACCEPTED record with REPLAYS 0 (R275). -/
  order : Nat
  /-- Slots of its first ACCEPTED record and of its latest ACCEPTED, STEP or COMMITTED record (R262). -/
  slots : List Nat
  /-- Slots of its TEXT and RETIRED records (R262). -/
  ends : List Nat
  /-- SEQ of its RETIRED record (R240). -/
  retSeq : Nat
  /-- Granary buffer and queue delivery of an X verb have been made (R206). -/
  delivered : Bool
  /-- Places of its queue claimed at acceptance and not yet used (R139, R206, R243). -/
  claim : Nat
  /-- Granary buffer taken at acceptance of an X verb and not yet delivered (R206). -/
  buf : Option Word
  /-- Bays whose items are not posted yet, lowest first (R139, R243). -/
  left : List Nat
  /-- Bays that a replayed BAY ON leaves out (R281). -/
  skip : BitVec 96
  /-- Order in which its line passed its checks, counted from 1; 0 where the handle has no seedbank write to come (R360). -/
  ord : Nat
  /-- Counts of BAY ON and BAY OFF items excused EMPTY, UNLATCHED, LOCKED (R150). A SELFTEST keeps in cntE the number of
  rails that its proofs test, and in cntU their bitmap, bit 2n for bay n's main rail (R219). -/
  cntE : Nat
  cntU : Nat
  cntL : Nat
  /-- The item of Q4 in which its form rides its flow, in service with a keeper thread that the model does not follow (R139,
  R616, R620, log 19). -/
  item : Option Item
  deriving DecidableEq, Repr, Inhabited

/-- A kept handle (R239, R240). -/
structure Kept where
  kk : Nat
  seq : Nat
  ten : Nat
  name : String
  verb : Nat
  compl : Compl
  form : Form
  replays : Nat
  orphan : Bool
  delivered : Bool
  /-- SEQ of the RETIRED record. -/
  retSeq : Nat
  /-- ORDER (R240). -/
  order : Nat
  /-- Entry of the kept-handle region, 0..255. -/
  entry : Nat
  /-- Journal slots that stay live while it is kept (R262). -/
  slots : List Nat
  deriving DecidableEq, Repr, Inhabited

/-- Phases of a journal record (R255). -/
inductive RecPhase where
  | accepted | step | committed | retired | text | queued
  deriving DecidableEq, Repr, Inhabited

/-- A journal record as LC builds it (R255); its SEQ is given when it is written (R260). -/
structure Rec where
  handle : Nat
  keeper : Nat
  origKeeper : Nat
  origSession : Nat
  verb : Nat
  tenancy : Nat
  ring : Bool
  replayable : Bool
  replayedMark : Bool
  phase : RecPhase
  step : Nat
  replays : Nat
  outcome : Nat
  tick : Nat
  args : List Byte
  deriving DecidableEq, Repr, Inhabited

/-- The journal writer (R260, R738). -/
structure Journal where
  /-- Write queue, oldest first, 16 entries (R260). Reset: empty. -/
  queue : List Rec := []
  /-- Records asked for that wait for a free entry of the write queue, oldest first (R260). Reset: none. -/
  late : List Rec := []
  /-- Record being written: its slot, its SEQ and itself (R261). Reset: none. -/
  writing : Option (Nat × Nat × Rec) := none
  /-- A furrow write outside the journal that LC had started before the records of the queue came may be under way, so it
  ends before them (R739). Reset: no. -/
  lineLate : Bool := false
  /-- SEQ of the last record written, 32 bits (R738). Reset: 0 until READY FURROW. -/
  lastSeq : Nat := 0
  /-- Slot of the last record written, 0..2559 (R738). Reset: 2559, so that line 0 is next. -/
  lastSlot : Nat := 2559
  /-- Records skipped as BAD at the last cold start (R271). Reset: 0. -/
  bad : Nat := 0
  /-- A FURROW FAIL notice has been printed since cold start (R486, R740). Reset: no. -/
  failed : Bool := false
  deriving DecidableEq, Repr, Inhabited

/-- Handles of this keeper. -/
structure Handles where
  /-- Open handles, in order of acceptance (R228). Reset: none until READY FURROW. -/
  opens : List Handle := []
  /-- Kept handles, oldest first (R239). Reset: empty (R239). -/
  kept : List Kept := []
  /-- Next sequence to try, 1..65535 (R222, R223). Reset: 1 until READY FURROW. -/
  nextSeq : Nat := 1
  /-- Handles kept since cold start (R240). Reset: 0. -/
  keptCount : Nat := 0
  /-- Handles open at the last cold-start source, and how a fault has hit each (R268). Reset: none. -/
  marks : List (Nat × Nat × Hit) := []
  /-- Completions held for ring sessions, oldest first: the handle and its line (R234). Reset: none. -/
  heldOut : List (Nat × Nat × Nat × Nat × String) := []
  /-- Handles that left the kept list, whose QUEUED record still waits to become durable: number, sequence and the slots that
  stay live until then (R262). Reset: none. -/
  gone : List (Nat × Nat × List Nat) := []
  deriving DecidableEq, Repr, Inhabited

/-- An operation of a nonvolatile memory's port under way. -/
inductive NvOp where
  | read | write
  deriving DecidableEq, Repr, Inhabited

/-- The furrow: its memory and its ports. -/
structure Furrow where
  /-- 4,096 lines of 64 bytes (R253). Reset: as shipped, all 0x00 (R735); kept by every reset. -/
  mem : Mem := []
  /-- Operation under way (FUR_STATUS BUSY, R284). Reset: none. -/
  op : Option NvOp := none
  /-- FUR_LINE as it stood at the command under way. Reset: 0. -/
  opLine : Nat := 0
  /-- FUR_STATUS VERIFY_FAIL. Reset: 0. -/
  verifyFail : Bool := false
  /-- FUR_STATUS ERRS, saturating at 0xFFFF. Reset: 0. -/
  errs : Nat := 0
  /-- FUR_LINE, 12 bits. Reset: 0. -/
  line : Nat := 0
  /-- FUR_WRITES, 32 bits. Reset: 0. -/
  writes : Nat := 0
  /-- FUR_BUF0..15, 32 bits each. Reset: 0. -/
  buf : Vector Word 16 := Vector.replicate 16 0#32
  /-- Firmware writes outside the journal not yet verified, oldest first: line, the line's new bytes, attempts made
  (R740). Reset: none. -/
  pendingLines : List (Nat × List Byte × Nat) := []
  deriving DecidableEq, Repr, Inhabited

/-- A value that a seedbank write puts in force once it is verified (R358). -/
inductive Setting where
  | env (w : EnvWord) (v : Nat)
  | term (on : Bool)
  | granMode (sized : Bool)
  | weight (g w : Nat)
  | retire (page : Nat)
  | assign (bays : BitVec 96) (t : Option Nat)
  | key (t : Nat) (k : Option (BitVec 256))
  | group (t g : Nat)
  | share (t v : Nat)
  | allot (t v : Nat)
  | quota (t p k : Nat)
  | plotRec (t addr size count : Nat) (replayable : BitVec 16) (names : List String)
  deriving DecidableEq, Repr, Inhabited

/-- A seedbank write that a verb or a handle asked for (R360). -/
structure SdbJob where
  setting : Setting
  /-- Session, tag and text of the answer queued once the value is stored. -/
  reply : Option (Nat × String × String)
  /-- The handle whose step this write is. -/
  handle : Option (Nat × Nat)
  /-- Order in which its line passed its checks (R360). -/
  ord : Nat := 0
  /-- Its write has retired the page that was due, and goes to a spare (R359). -/
  spare : Bool := false
  deriving DecidableEq, Repr, Inhabited

/-- What a role's stored data holds for one tenancy (R743, roles 2 + t and 18 + t). -/
structure TenSet where
  /-- Key of 256 bits, none where UNSET (R355). Reset: UNSET (R735). -/
  key : Option (BitVec 256) := none
  /-- GROUP (R191). Reset: 1; 0 for T0. -/
  group : Nat := 1
  /-- SHARE in tenths of a percent (R191). Reset: 0. -/
  share : Nat := 0
  /-- ALLOT in bytes (R192). Reset: 0. -/
  allot : Nat := 0
  /-- Quota in the single pool, then in the four sized pools (R197). Reset: 64; 64, 16, 4, 1. -/
  quotas : Vector Nat 5 := #v[64, 64, 16, 4, 1]
  deriving DecidableEq, Repr, Inhabited

/-- The seedbank: its memory, its ports, and the settings in force from it. -/
structure Seedbank where
  /-- 256 pages of 256 bytes (R355). Reset: as shipped, all 0x00 (R735); kept by every reset. -/
  mem : Mem := []
  /-- Operation under way (SDB_STATUS BUSY). Reset: none. -/
  op : Option NvOp := none
  /-- SDB_PAGE as it stood at the command under way. Reset: 0. -/
  opPage : Nat := 0
  /-- SDB_STATUS VERIFY_FAIL. Reset: 0. -/
  verifyFail : Bool := false
  /-- SDB_PAGE, 8 bits. Reset: 0. -/
  page : Nat := 0
  /-- SDB_BUF0..63, 32 bits each. Reset: 0. -/
  buf : Vector Word 64 := Vector.replicate 64 0#32
  /-- Writes asked for and not yet stored, oldest first (R360). Reset: none. -/
  jobs : List SdbJob := []
  /-- The operation under way is the first job's write (R360). Reset: no. -/
  jobBusy : Bool := false
  /-- Pages that carried MAGIC and failed their CRC at the last cold start, 256 bits (R218, R357). Reset: 0. -/
  bad : BitVec 256 := 0#256
  /-- SEEDBANK WORN has been printed since cold start (R359). Reset: no. -/
  worn : Bool := false
  /-- Envelope MAIN, AUX, MARGIN, SHED in tenths of an ampere and GUARD in ms (R159). Reset: 1000, 500, 50, 100, 20. -/
  envMain : Nat := 1000
  envAux : Nat := 500
  envMargin : Nat := 50
  envShed : Nat := 100
  envGuard : Nat := 20
  /-- Stored RING TERM (R290). Reset: ON. -/
  term : Bool := true
  /-- Stored GRANARY mode: true for sized (R216). Reset: single. -/
  granSized : Bool := false
  /-- Weights of groups 0..7 (R191). Reset: 16 each. -/
  weights : Vector Nat 8 := Vector.replicate 8 16
  /-- Retired bitmap, 256 bits (R355). Reset: 0. -/
  retired : BitVec 256 := 0#256
  /-- Assignment of bays: tenancy, or none (R193). Reset: unassigned. -/
  assign : Vector (Option Nat) 96 := Vector.replicate 96 none
  /-- Per-tenancy settings. Reset: blank-seedbank values. -/
  ten : Vector TenSet 16 := (Vector.replicate 16 {}).setIfInBounds 0 { group := 0 }
  /-- Lines that have passed their checks and write the seedbank, counted (R360). Reset: 0. -/
  checks : Nat := 0
  /-- Groups, weights, shares, allotments or assignments stored, and no tick has come since (R191, R193). Reset: no. -/
  applyDue : Bool := false
  /-- Settings whose tick has come, and which firmware has not yet written (R352, R353, R516). Reset: no. -/
  applyNow : Bool := false
  /-- A GROUP or WEIGHT is among the settings of `applyDue`, of `applyNow` (R352). Reset: no. -/
  groupDue : Bool := false
  groupNow : Bool := false
  /-- A SHARE or ASSIGN is among the settings of `applyDue`, of `applyNow` (R453). Reset: no. -/
  planDue : Bool := false
  planNow : Bool := false
  /-- GROUP, WEIGHT and SHARE as they stood at the last tick, which firmware is to write or has written (R191, R352, R353).
  Reset: as the blank seedbank gives them. -/
  groupSet : Vector Nat 16 := (Vector.replicate 16 1).setIfInBounds 0 0
  weightSet : Vector Nat 8 := Vector.replicate 8 16
  shareSet : Vector Nat 16 := Vector.replicate 16 0
  /-- SHARE in force in the planner, tenths of a percent (R353). Reset: 0. -/
  shareNow : Vector Nat 16 := Vector.replicate 16 0
  /-- ALLOT in force in the ledger, bytes (R354). Reset: 0. -/
  allotNow : Vector Nat 16 := Vector.replicate 16 0
  /-- Assignment in force for metering and plot grants (R193). Reset: unassigned. -/
  assignNow : Vector (Option Nat) 96 := Vector.replicate 96 none
  deriving DecidableEq, Repr, Inhabited

/-- The calendar (R362). -/
structure Calendar where
  /-- Tick count, 48 bits (R362). Reset: 0 until READY CALENDAR loads it (R363). -/
  tick : Nat := 0
  /-- CAL_LOAD_LO as written, 32 bits. Reset: 0. -/
  loadLo : Nat := 0
  /-- Count loaded at the next tick (R388). Reset: none. -/
  load : Option Nat := none
  /-- UTC, 32 bits (R364). Reset: 0, UNSET. -/
  utc : Nat := 0
  /-- CAL_STATUS UTC_SET. Reset: 0 (R77). -/
  utcSet : Bool := false
  /-- UTC taken at the next tick (R388). Reset: none. -/
  utcLoad : Option Nat := none
  /-- The UTC to be taken at the next tick is that of a TIME SET, which no field start takes back (R200). Reset: none. -/
  timeSet : Option Nat := none
  /-- Ticks since UTC took its value, modulo 64 (R364). Reset: 0. -/
  utcPhase : Nat := 0
  /-- Seconds by which UTC is due to advance (R364). Reset: 0. -/
  utcDue : Nat := 0
  /-- The values that UTC has taken, and the counts loaded since, newest first: the tick, UTC at it, and the ticks, modulo 64, that
  UTC had then counted toward its next second; UNSET before them (R77, R364, R382). Reset: none. -/
  utcWas : List (Nat × Nat × Nat) := []
  /-- CAL_STATUS TICKED. Reset: 0. -/
  ticked : Bool := false
  /-- CAL_CTL TICK_Q, 6 bits. Reset: 0. -/
  tickQ : Nat := 0
  /-- CAL_CTL POST. Reset: 0. -/
  post : Bool := false
  /-- A tick item waits for room, with this tick number (R365). Reset: none. -/
  pend : Option Nat := none
  /-- Captured bits [47:32] for each TID (R388). Reset: 0. -/
  capture : Vector Nat 128 := Vector.replicate 128 0
  /-- A calendar line is due to be written (R363). Reset: no. -/
  saveDue : Bool := false
  /-- SEQ of the newest calendar line, and whether it is line B (R363). Reset: 0, none. -/
  saveSeq : Nat := 0
  newestB : Option Bool := none
  /-- Ticks since reset release (R363). Reset: 0. -/
  sinceReset : Nat := 0
  deriving DecidableEq, Repr, Inhabited

/-- One tenancy's accumulators, each below 10^32 (R366). -/
structure Acc where
  /-- BAYSEC in units of 10^-6 s. -/
  baysec : Nat := 0
  /-- ENERGY in units of 10^-9 mJ. -/
  energy : Nat := 0
  /-- CAPACITY in byte-seconds. -/
  capacity : Nat := 0
  /-- WAKES. -/
  wakes : Nat := 0
  deriving DecidableEq, Repr, Inhabited

/-- A tenancy's open epoch (R382). -/
structure Epoch where
  number : Nat := 1
  openTick : Nat := 0
  gapCount : Nat := 0
  gapTicks : Nat := 0
  deriving DecidableEq, Repr, Inhabited

/-- A GAP entry (R382). -/
structure Gap where
  cause : Nat
  accMask : Nat
  tenMask : Nat
  fromTick : Nat
  ticks : Nat
  prevSeq : Nat
  number : Nat
  utc : Nat
  deriving DecidableEq, Repr, Inhabited

/-- A closed-epoch record (R382). -/
structure Closed where
  ten : Nat
  epoch : Nat
  openTick : Nat
  closeTick : Nat
  gapCount : Nat
  gapTicks : Nat
  hSeq : Nat
  hKk : Nat
  seq : Nat
  acc : Acc
  deriving DecidableEq, Repr, Inhabited

/-- The ledger as LC and the ledger thread hold it (R366, R373). -/
structure Ledger where
  /-- Loaded at cold start (R374). Reset: no. -/
  loaded : Bool := false
  /-- Values of the newest checkpoint, one Acc for each tenancy (R373). Reset: 0 until READY REPLAY. -/
  base : Vector Acc 16 := Vector.replicate 16 {}
  /-- Accruals of the open interval (R367, R368, R369). Reset: 0. -/
  run : Vector Acc 16 := Vector.replicate 16 {}
  /-- Open epochs (R382). Reset: epoch 1. -/
  epochs : Vector Epoch 16 := Vector.replicate 16 {}
  /-- SEQ of the newest checkpoint queued, 32 bits (R382). Reset: 0. -/
  cpSeq : Nat := 0
  /-- TICK of the newest checkpoint (R382). Reset: 0. -/
  cpTick : Nat := 0
  /-- Copy chosen for the newest checkpoint: true for B (R373). Reset: B, so that A is next. -/
  cpB : Bool := true
  /-- First tick of the open interval (R372). Reset: 0. -/
  from_ : Nat := 0
  /-- Intervals that have ended and whose checkpoint is due, oldest first: end tick and accruals (R372). Reset: none. -/
  ends : List (Nat × Vector Acc 16) := []
  /-- Tick number the ledger thread served last in this field start (R370, R376). Reset: none. -/
  served : Option Nat := none
  /-- BAYSEC and ENERGY of ticks not yet served, oldest first: the tick, and for each tenancy what powered bays add at it
  (R367). Reset: none. -/
  marks : List (Nat × Vector Acc 16) := []
  /-- Number of the next GAP entry (R383). Reset: 1 (log 7). -/
  gapNext : Nat := 1
  /-- Slot of the next GAP entry, 0..447 (R383). Reset: 0. -/
  gapSlot : Nat := 0
  /-- SEQ of the newest closed-epoch record (R381). Reset: 0. -/
  closedSeq : Nat := 0
  /-- Slot of the newest closed-epoch record, 0..254; none where none is held (R381). Reset: none. -/
  closedSlot : Option Nat := none
  /-- Overflow notice printed, one bit for each accumulator of each tenancy: bit 4t + i (R371). Reset: 0. -/
  overflow : BitVec 64 := 0#64
  /-- A LEDGER OVERFLOW has been printed since cold start (R371, R486). Reset: no. -/
  overflowed : Bool := false
  /-- The ledger has been reset since cold start (R374, R486). Reset: no. -/
  wasReset : Bool := false
  deriving DecidableEq, Repr, Inhabited

/-- A frame on the ring (R298). -/
inductive Frame where
  | sol (mark : Bool) (dest src ses : Nat) (text : String)
  | sob (mark : Bool) (dest src ses : Nat) (text : String)
  | sor (mark : Bool) (dest src ses : Nat) (text : String)
  | enum (pass next flags : Nat)
  | brk (reporter rflags hops : Nat)
  | join
  | raw (syms : List (BitVec 9))
  deriving DecidableEq, Repr, Inhabited

/-- Ring states, in the code order of RNG_STATUS STATE. -/
inductive RState where
  | pending | ok | broken | alone | overflow
  deriving DecidableEq, Repr, Inhabited

/-- A frame of a session that waits for room in the insertion queue, and the handle whose completion it carries (R228,
R310). -/
structure Waiting where
  frame : Frame
  done : Option (Nat × Nat) := none
  deriving DecidableEq, Repr, Inhabited

/-- A forwarded frame that waits to be sent (R305, R309). -/
structure Fwd where
  /-- The frame (R305). -/
  frame : Frame
  /-- How many of its symbols the receive store holds for sending (R311). -/
  held : Nat
  /-- Of a copied frame, how many of those symbols LC still has to read too (R301, R311). -/
  shared : Nat := 0
  /-- How many other symbols LC reads before those (R311). -/
  ahead : Nat := 0
  deriving DecidableEq, Repr, Inhabited

/-- A line taken in from the ring: session number and text. -/
abbrev RingLine := Nat × String

/-- The headland ring. -/
structure Ring where
  /-- Number held (RNG_STATUS NUMBER, NUMBERED). Reset: none for a member, 0 for the head. -/
  number : Option Nat := none
  /-- RNG_STATUS STATE. Reset: PENDING. -/
  st : RState := .pending
  /-- RNG_STATUS UP_DEAD (R322). Reset: 0. -/
  upDead : Bool := false
  /-- RNG_STATUS HOLD_IN (R312). Reset: released (log 4). -/
  holdIn : Bool := false
  /-- RNG_STATUS HOLD_OUT (R311). Reset: 0. -/
  holdOut : Bool := false
  /-- RNG_STATUS PASS_OUT (R315). Reset: 0. -/
  passOut : Bool := false
  /-- Which try of a pass is out: 1 or 2 (R318). Reset: 0. -/
  passTry : Nat := 0
  /-- PASS byte of the last pass sent (R315). Reset: 0 (log 8). -/
  pass : Nat := 0
  /-- RNG_STATUS COUNT of the last returned pass, 1..256 (R317). Reset: 0. -/
  count : Nat := 0
  /-- RNG_CTL TERM (R290). Reset: 1. -/
  term : Bool := true
  /-- RNG_CTL BYPASS (R291). Reset: 0. -/
  bypass : Bool := false
  /-- RNG_BREAK AFTER and KNOWN (R324). Reset: 0, unknown. -/
  after : Nat := 0
  known : Bool := false
  /-- RNG_BREAK EVENT. Reset: 0. -/
  event : Bool := false
  /-- RNG_DROPPED, 32 bits (R296). Reset: 0. -/
  dropped : Nat := 0
  /-- RNG_EVENTS OVERRUN and LOOPED, RNG_LOSS RETURNED and STALE, RNG_LOST NOTICES, saturating at 0xFFFF. Reset: 0. -/
  overrun : Nat := 0
  looped : Nat := 0
  returned : Nat := 0
  stale : Nat := 0
  notices : Nat := 0
  /-- Symbols taken in and not yet read by LC, oldest first (R311, RNG_RX). Reset: empty. -/
  rx : List (BitVec 9) := []
  /-- Frame that LC is writing, its symbols in order (RNG_TX). Reset: none. -/
  build : List (BitVec 9) := []
  /-- The rest of the frame being written is discarded (R329). Reset: no. -/
  discard : Bool := false
  /-- Local insertion queue, oldest first, 2,048 symbols (R310). Reset: empty. -/
  insq : List Frame := []
  /-- Own enumeration frames, break reports and join requests waiting (R309). Reset: none. -/
  own : List Frame := []
  /-- Forwarded frames waiting (R309). Reset: none. -/
  fwd : List Fwd := []
  /-- Frame being sent, or sent last (R309). Reset: none. -/
  tx : Option Frame := none
  /-- The side that sent the last line: true for the local side (R309). Reset: no side (log 8). -/
  lastLocal : Option Bool := none
  /-- ABT symbols sent to end a forwarded frame (R296). Reset: 0. -/
  aborts : Nat := 0
  /-- IDLE symbols sent (R294). Reset: 0. -/
  idles : Nat := 0
  /-- The ABT or IDLE symbol that the transmitter sent last (R294, R296). Reset: none. -/
  ctlOut : Option (BitVec 9) := none
  /-- An ABT symbol waits for the hold input to be released (R296, R312). Reset: no. -/
  abtDue : Bool := false
  /-- A pass has numbered the keeper since cold start (R320). Reset: no. -/
  wasNumbered : Bool := false
  /-- The keeper asks to join until a pass numbers it (R321). Reset: no. -/
  joining : Bool := false
  /-- Lines of ring sessions waiting for room in the insertion queue, oldest first (R310). Reset: none. -/
  wait : List Waiting := []
  /-- Lines taken in from the ring and not yet run, oldest first (R122). Reset: none. -/
  linesIn : List RingLine := []
  deriving DecidableEq, Repr, Inhabited

/-- Mailbox states, in the code order of HNG_STATUS (R59). -/
inductive BoxState where
  | free | claimed | posted
  deriving DecidableEq, Repr, Inhabited

/-- A hinge mailbox. -/
structure Mailbox where
  /-- State, 2 bits. Reset: FREE. -/
  st : BoxState := .free
  /-- Owner, 4 bits: 0..5 FC0..FC5, 8 LC, 15 none. Reset: 15. -/
  owner : Nat := 15
  /-- Words posted, 5 bits. Reset: 0. -/
  count : Nat := 0
  /-- NPEND. Reset: 0. -/
  npend : Bool := false
  /-- 16 words of 32 bits. Reset: 0; kept at a field start. -/
  words : Vector Word 16 := Vector.replicate 16 0#32
  deriving DecidableEq, Repr, Inhabited

/-- What a hinge transfer moves: the word of a port that is read, for a register, a word written to a port, or a word that
POST or POSTE posts (R545, R580). -/
inductive Move where
  | read (port rd : Nat)
  | write (port : Nat) (w : Word)
  | post (q : Nat) (w : Word) (last : Bool)
  deriving DecidableEq, Repr, Inhabited

/-- A hinge transfer asked for (R53, R57). -/
structure Transfer where
  /-- Its core, 6 for LC (R54). -/
  core : Nat
  /-- The thread that asks for it (R57). -/
  tid : Nat
  /-- What it moves (R53). -/
  move : Move
  /-- An instruction that stalls makes it (R57). -/
  ins : Bool
  /-- Field reset has been asserted while it waited (R673). -/
  dark : Bool := false
  deriving DecidableEq, Repr, Inhabited

/-- The hinge. -/
structure Hinge where
  /-- TIE_NEXT: true where field wins the next tie (R55). Reset: latch. -/
  tieField : Bool := false
  /-- Field core granted last (R54). Reset: 5, so that FC0 is first. -/
  lastFc : Nat := 5
  /-- HNG_COUNT TIES, modulo 65,536. Reset: 0. -/
  ties : Nat := 0
  /-- HNG_COUNT IGNORED, saturating at 0xFFFF (R62). Reset: 0. -/
  ignored : Nat := 0
  /-- Transfers that lost and are held, in the order of their grants (R56). Reset: none. -/
  waiting : List Transfer := []
  /-- Requests of field cores that wait their turn of the round robin, in its order (R54). Reset: none. -/
  asking : List Transfer := []
  /-- The L2F and F2L mailboxes. -/
  l2f : Mailbox := {}
  f2l : Mailbox := {}
  /-- HNG_NOTIFY L2F_Q and F2L_Q, 6 bits each. Reset: 0 and 56. -/
  l2fQ : Nat := 0
  f2lQ : Nat := 56
  /-- HNG_HB EXPIRED, 6 bits (R65). Reset: 0. -/
  expired : BitVec 6 := 0#6
  /-- Heartbeat counters, 20 bits each (R64). Reset: 0. -/
  beat : Vector Nat 6 := Vector.replicate 6 0
  deriving DecidableEq, Repr, Inhabited

/-- Bay states, in the code order of STATE (R412). -/
inductive BState where
  | empty | presentOff | starting | on | stopping | tripped | locked | held
  deriving DecidableEq, Repr, Inhabited

/-- The protected registers of one rail (R418). -/
structure Chan where
  /-- GATE_CFG ISRC, 6 bits. Reset: 9. -/
  isrc : Nat := 9
  /-- FAST, 6 bits. Reset: 63. -/
  fast : Nat := 63
  /-- SLOW, 8 bits. Reset: 255. -/
  slow : Nat := 255
  /-- BLANK, 12 bits. Reset: 4095. -/
  blank : Nat := 4095
  /-- TRIP_DLY, 10 bits. Reset: 1023. -/
  dly : Nat := 1023
  deriving DecidableEq, Repr, Inhabited

/-- One rail of a bay. -/
structure RailSt where
  /-- Working copy of the protected registers (R418). -/
  work : Chan := {}
  /-- Shadow copy (R418). -/
  shadow : Chan := {}
  /-- Parities of the working and the shadow copy of GATE_CFG, FAST, SLOW, BLANK and TRIP_DLY, bits 2i and 2i + 1, 1 where it
  holds, 10 bits (R418). Reset: all hold. -/
  parity : BitVec 10 := BitVec.allOnes 10
  /-- GOOD (R397). Reset: 0. -/
  good : Bool := false
  /-- BLANK window running (R402). Reset: 0. -/
  blankRun : Bool := false
  /-- FAST and SLOW comparator outputs as last read (STATE OVER); free at each reading of STATE (log 86). Reset: 0. -/
  fastOver : Bool := false
  slowOver : Bool := false
  /-- SLOW count in µs ticks (R403). Reset: 0. -/
  slowCount : Nat := 0
  /-- A proof freezes the trip effects (R420). Reset: no. -/
  frozen : Bool := false
  /-- Step 2 of the proof that runs has been taken (R420). Reset: no. -/
  checked : Bool := false
  /-- PASS of the latest proof (PROOF). Reset: 0. -/
  pass : Bool := false
  /-- A proof on demand of this rail is pending or running (R423). Reset: no. -/
  wanted : Bool := false
  /-- The proof that runs is that demand's (R423). Reset: no. -/
  proving : Bool := false
  /-- IMEAS ISUM, 18 bits signed (R409). Reset: 0. -/
  isum : Int := 0
  /-- VMEAS VSUM, 16 bits (R409). Reset: 0. -/
  vsum : Nat := 0
  deriving DecidableEq, Repr, Inhabited

/-- A bay and its channel. -/
structure Bay where
  /-- State (R412). Reset: EMPTY until a field start sets it (R417). -/
  st : BState := .empty
  main : RailSt := {}
  aux : RailSt := {}
  /-- Completed samples, modulo 256 (IMEAS SEQ). Reset: 0. -/
  seq : Nat := 0
  /-- PROOF DONE. Reset: 0. -/
  proofDone : Bool := false
  /-- FAULT TRIP_CAUSE and TRIP_RAIL. Reset: 0. -/
  tripCause : Nat := 0
  tripRail : Rail := .main
  /-- FAULT LOCK_CAUSE and LOCK_RAIL. Reset: 0. -/
  lockCause : Nat := 0
  lockRail : Rail := .main
  /-- FAULT CMD_REJ, saturating at 255. Reset: 0. -/
  cmdRej : Nat := 0
  /-- FAULT TRIP_EV and LOCK_EV. Reset: 0. -/
  tripEv : Bool := false
  lockEv : Bool := false
  /-- Trips since cold start, saturating at 65,535 (R157). Reset: 0. -/
  trips : Nat := 0
  /-- Tick of the START of a start still being measured (R444). Reset: none. -/
  measure : Option Nat := none
  /-- Sum of the main-rail samples and their number in each point of that start (R444). Reset: empty. -/
  points : List (Int × Nat) := []
  /-- Tick of the latest START, for the planner (R447). Reset: none. -/
  startTick : Option Nat := none
  /-- Tick at which the locate mark was set; kept in latch SRAM (R155). Reset: no mark. -/
  locate : Option Nat := none
  deriving DecidableEq, Repr, Inhabited

/-- Work of keeper firmware on a bay's flow (R146, R149, R163, R167). -/
inductive WorkKind where
  | on | off | forget | tag
  deriving DecidableEq, Repr, Inhabited

/-- A bay item in service with keeper firmware: its handle (kk, ssss), its bay, its kind, whether it has acted, the item of
the Sower that it is (R139, R146), and the thread that holds that item, where the Sower dispatched it to a thread that the
model follows; otherwise a keeper thread that it does not follow holds it (log 19). `fin`: it has ended for its handle, and that
thread still holds it. -/
structure Work where
  kk : Nat
  seq : Nat
  bay : Nat
  kind : WorkKind
  acted : Bool
  item : Item
  tid : Option Nat := none
  fin : Bool := false
  deriving DecidableEq, Repr, Inhabited

/-- One bay's part in the predicted total of R447. -/
structure Draw where
  /-- The tick of its START (R447). -/
  start : Nat
  /-- Its curve, in mA (R445, R447). -/
  curve : List Nat
  /-- Its tenancy, T0 where it is assigned to none (R331, R353). -/
  ten : Nat
  /-- Its measured current in mA, where its window had ended at the time of planning (R447). -/
  flat : Option Int
  deriving DecidableEq, Repr, Inhabited

/-- Bay channels and row ADCs. -/
structure Bays where
  bay : Vector Bay 96 := Vector.replicate 96 {}
  /-- ADC_SHUNT_r: main and aux shunts in 0.01 mOhm, 16 bits each (R411). Reset: 500, 500. -/
  shuntM : Vector Nat 12 := Vector.replicate 12 500
  shuntA : Vector Nat 12 := Vector.replicate 12 500
  /-- Sums of the main and aux sense codes of each bay over the slots of the sample under way, and how many slots they hold
  (R409, R432). Reset: 0. -/
  sumM : Vector Int 96 := Vector.replicate 96 0
  sumA : Vector Int 96 := Vector.replicate 96 0
  sumSlots : Nat := 0
  /-- Bay items in service with keeper firmware, oldest first (R146, R613). Reset: none. -/
  work : List Work := []
  /-- Bays whose lock record is being written for `^BAY n LOCKED …`, which follows it (R427). Reset: none. -/
  lockNotes : List Nat := []
  /-- Bays whose lock record is being cleared for an UNLOCK: bay, session and tag (R428). Reset: none. -/
  unlocking : List (Nat × Nat × String) := []
  deriving DecidableEq, Repr, Inhabited

/-- The envelope guard and the start planner. -/
structure Env where
  /-- ENV_CEIL MAIN and AUX in 0.1 A, ENV_SHED SHED in 0.1 A and GUARD in ms (R455). Reset: 1000, 500, 100, 20. -/
  ceilM : Nat := 1000
  ceilA : Nat := 500
  shed : Nat := 100
  guard : Nat := 20
  /-- TOTAL_M and TOTAL_A of the last slot, 16 bits (R432). Reset: 0. -/
  totM : Nat := 0
  totA : Nat := 0
  /-- Sums and number of slots in the present run of 16 ticks (R455). Reset: 0. -/
  sumM : Nat := 0
  sumA : Nat := 0
  slots : Nat := 0
  /-- ENV_AVG (R455). Reset: 0. -/
  avgM : Nat := 0
  avgA : Nat := 0
  /-- ENV_STATUS OVER_M, OVER_A, HOLD. Reset: 0. -/
  overM : Bool := false
  overA : Bool := false
  hold : Bool := false
  /-- Slots since field reset release, modulo 1,024, which are 125 ms ticks (R401, R408, R433). Reset: 0. -/
  slotNo : Nat := 0
  /-- Consecutive over ms ticks, up to 255, and consecutive clear ones, up to 250, before the present one (R433). Reset: 0. -/
  msOver : Nat := 0
  msClear : Nat := 0
  /-- Every slot that has ended in the present ms tick had a flag set; none had (R433). Reset: no. -/
  nowOver : Bool := false
  nowClear : Bool := false
  /-- Release queue, front first (R434). Reset: empty. -/
  heldQ : List Nat := []
  /-- Start order, top first (R436). Reset: empty. -/
  order : List Nat := []
  /-- Tick of the most recent entry to STARTING (R435). Reset: none. -/
  lastStart : Option Nat := none
  /-- Consecutive slots above MAIN + SHED since the last shed decision (R437). Reset: 0. -/
  shedRun : Nat := 0
  /-- ENV_EVENTS HOLD_EV, SHED_EV, REL_EV, SHEDS, HOLDS. Reset: 0. -/
  holdEv : Bool := false
  shedEv : Bool := false
  relEv : Bool := false
  sheds : Nat := 0
  holds : Nat := 0
  /-- ENV_PEAK, 16 bits each. Reset: 0. -/
  peakM : Nat := 0
  peakA : Nat := 0
  /-- Planner: bays waiting to be placed, in dispatch order (R450). Reset: none. -/
  waiting : List Nat := []
  /-- Planner: placed starts not yet written, bay and tick (R450). Reset: none. -/
  placed : List (Nat × Nat) := []
  /-- Planner: tick of the most recent start written (R450). Reset: none. -/
  lastWritten : Option Nat := none
  /-- Tick number of the tick item that the planner served last in this field start (R452, R641). Reset: none. -/
  served : Option Nat := none
  /-- A replan trigger stands (R453). Reset: no. -/
  replanDue : Bool := false
  /-- Bays left unplaced by the last plan (R451). Reset: 0. -/
  unplaced : Nat := 0
  /-- What the last plan predicted from: the draws at the time of planning, the starts it placed among them (R447, R453).
  Reset: none. -/
  plan : List Draw := []
  deriving DecidableEq, Repr, Inhabited

/-- A scan frame under way (R459): the samples that each step takes of its row, the step it runs, the events its shift has still to post, and
whether it is stalled. -/
structure ScanRun where
  contacts : Vector (BitVec 32) 64
  step : Nat
  events : List (Nat × Bool)
  stalled : Bool
  finished : Bool
  deriving DecidableEq, Repr, Inhabited

/-- The key scanner (R456). -/
structure Keys where
  /-- Two banks of 64 steps of 11 bits (R465). Reset: bank 0 the default program of R468, bank 1 all 0. -/
  bank0 : Vector (BitVec 11) 64 := Vector.replicate 64 0#11
  bank1 : Vector (BitVec 11) 64 := Vector.replicate 64 0#11
  /-- KSC_STATUS ACTIVE: true for bank 1. Reset: 0. -/
  active : Bool := false
  /-- KSC_STATUS SWAP_PEND. Reset: 0. -/
  swapPend : Bool := false
  /-- KSC_STATUS REJ, saturating at 255. Reset: 0. -/
  rej : Nat := 0
  /-- KSC_CTL EVQ, 6 bits. Reset: 57. -/
  evq : Nat := 57
  /-- KSC_CTL POST. Reset: 0. -/
  post : Bool := false
  /-- KSC_STATUS ARMED. Reset: 0. -/
  armed : Bool := false
  /-- KSC_COUNT EVENTS, 32 bits. Reset: 0. -/
  events : Nat := 0
  /-- KSC_STALL STALLS and MISSED, saturating at 0xFFFF. Reset: 0. -/
  stalls : Nat := 0
  missed : Nat := 0
  /-- KSC_FRAME, 32 bits. Reset: 0. -/
  frame : Nat := 0
  /-- Debounced state of each row as the shifts leave it (R461). Reset: 0. -/
  deb : Vector (BitVec 32) 16 := Vector.replicate 16 0#32
  /-- Last raw samples (R462). Reset: 0. -/
  raw : Vector (BitVec 32) 16 := Vector.replicate 16 0#32
  /-- Positions with a count above 0, and their counts of differing samples, 0..3 (R461). Reset: none. -/
  counts : List (Nat × Nat) := []
  /-- KSC_DEB, KSC_RAW and KSC_BASE, 16 words each (R462, R470). Reset: 0. -/
  pubDeb : Vector (BitVec 32) 16 := Vector.replicate 16 0#32
  pubRaw : Vector (BitVec 32) 16 := Vector.replicate 16 0#32
  base : Vector (BitVec 32) 16 := Vector.replicate 16 0#32
  /-- The frame under way (R459). Reset: none. -/
  run : Option ScanRun := none
  /-- Scan frames are scheduled at 256 Hz, as from the last scheduled start (R459, KSC_STATUS FAST). Reset: 0. -/
  fast : Bool := false
  /-- Consecutive ticks in an invalid keyswitch combination (R344). Reset: 0. -/
  ksTicks : Nat := 0
  /-- KEYSWITCH FAULT has been printed and no valid combination has followed (R344). Reset: no. -/
  ksFault : Bool := false
  deriving DecidableEq, Repr, Inhabited

/-- Displays of the face (R487). -/
inductive Display where
  | view (v : View) | bay (n : Nat) | tenancy (t : Nat) | err | text (s : String)
  deriving DecidableEq, Repr, Inhabited

/-- The face and the keypad. -/
structure Face where
  /-- FACE_IMG0..4. Reset: the start view of R490's table. -/
  img : Vector Word 5 := #v[0x20202020#32, 0x20202020#32, 0x20202020#32, 0x20202020#32, 0#32]
  /-- FACE_SHOW0..4. Reset: the start view. -/
  shown : Vector Word 5 := #v[0x20202020#32, 0x20202020#32, 0x20202020#32, 0x20202020#32, 0#32]
  /-- FACE_CTL VLCD, 5 bits, EN and PEND. Reset: 20, 1, 0. -/
  vlcd : Nat := 20
  en : Bool := true
  pend : Bool := false
  /-- Host setting: text or view (R171). Reset: the AUTO view. DESIGN CHOICE (log 77): no rule states it for a cold start without an
  open FACE handle (R173). -/
  host : FaceSet := .view .auto
  /-- The polarity of the common and segment lines, inverted at every frame (R482). Reset: not inverted (log 94). -/
  inverted : Bool := false
  /-- Place in the AUTO round: 0..3 the views, 4.. the marked bays (R488). Reset: 0. -/
  auto : Nat := 0
  /-- Tick at which the AUTO display changed last (R488). Reset: 0. -/
  autoTick : Nat := 0
  /-- The keypad holds the face, showing this display (R172). Reset: no. -/
  keypad : Option Display := none
  /-- Tick of the last keypad press (R172). Reset: 0. -/
  keyTick : Nat := 0
  /-- The display shown before ERR, and the tick ERR began (R476). Reset: none. -/
  errPrev : Option (Option Display) := none
  errTick : Nat := 0
  /-- DOT is held (R475). Reset: no. -/
  dot : Bool := false
  /-- Display shown since READY FACE has been reached (R83). Reset: no. -/
  started : Bool := false
  deriving DecidableEq, Repr, Inhabited

/-- The tag engine (R477) and the overrides kept in latch SRAM (R168). -/
structure Tags where
  /-- TAG_CTL EN. Reset: 0. -/
  en : Bool := false
  /-- TAG_CUR GREEN, AMBER, BLUE, 4 bits each. Reset: 4. -/
  cur : Vector Nat 3 := Vector.replicate 3 4
  /-- TAG_PAT0..95: pattern codes of green, amber and blue, 3 bits each. Reset: 0. -/
  pat : Vector (Vector Nat 3) 96 := Vector.replicate 96 (Vector.replicate 3 0)
  /-- Host overrides of green, amber and blue (R167). Reset: none. -/
  ovr : Vector (Vector (Option Pattern) 3) 96 := Vector.replicate 96 (Vector.replicate 3 none)
  deriving DecidableEq, Repr, Inhabited

/-- A fan (R174). -/
structure Fan where
  /-- FAN_DUTY, 7 bits. Reset: 100. -/
  duty : Nat := 100
  /-- FAN_TACH PULSES, 16 bits. Reset: 0. -/
  pulses : Nat := 0
  /-- MANUAL (R175). Reset: AUTO. -/
  manual : Bool := false
  /-- ABSENT (R174). Reset: no. -/
  absent : Bool := false
  /-- A pulse has been seen in this field start (R174). Reset: no. -/
  seen : Bool := false
  /-- STALL notice stands (R177). Reset: no. -/
  stall : Bool := false
  /-- Consecutive ticks of a speed below 300 RPM at a duty of 30 or more, up to 128 (R177). Reset: 0. -/
  low : Nat := 0
  deriving DecidableEq, Repr, Inhabited

/-- Fans and thermal inputs (R677). -/
structure Fans where
  fan : Vector Fan 8 := Vector.replicate 8 {}
  /-- TH0..15 CODE and TH_DIE CODE (entry 16), 12 bits each. Reset: 0. -/
  th : Vector Nat 17 := Vector.replicate 17 0
  /-- TH0..15 converted in this field start. Reset: no. -/
  thSeen : BitVec 17 := 0#17
  /-- Tick of `^READY FIELD` (R174). Reset: none. -/
  readyTick : Option Nat := none
  /-- TEMP DIE HIGH stands (R722). Reset: no. -/
  dieHigh : Bool := false
  /-- A calendar second has ended whose pulse counts are not latched yet (R677). Reset: no. -/
  secondDue : Bool := false
  deriving DecidableEq, Repr, Inhabited

/-- Thread states, in the code order of R613. -/
inductive TState where
  | stopped | idle | running | standby | ready | waitspace | faulted
  deriving DecidableEq, Repr, Inhabited

/-- Units whose results are interlocked (R583). -/
inductive Unit' where
  | mul | div | dec | float | seize
  deriving DecidableEq, Repr, Inhabited

/-- An outstanding interlocked result (R506, R605). -/
structure Inter where
  unit : Unit'
  rd : Nat
  lo : Word
  /-- High word of a pair, for rd + 1 (R541). -/
  hi : Option Word
  /-- Decimal carry written with it (R596). -/
  dc : Option Bool
  /-- It sets dinv (R593). -/
  dinv : Bool
  /-- Float flags it raises, in fflags order, 5 bits (R601). -/
  flags : BitVec 5
  /-- Address of its instruction, for a precise trap (R605). -/
  pc : Nat
  deriving DecidableEq, Repr, Inhabited

/-- A delayed result (R504): destination, value, and delay slots still to run. -/
structure Delayed where
  rd : Nat
  val : Word
  slots : Nat
  deriving DecidableEq, Repr, Inhabited

/-- A thread's open item (R570). -/
structure OpenItem where
  q : Nat
  words : List Word
  /-- Its queue has been flushed: words posted before the flush, words swallowed since (R573, R637). -/
  flushed : Option (Nat × Nat)
  /-- It is discarded at its last word, because LC posts toward a field that is down (R580). -/
  dropped : Bool
  deriving DecidableEq, Repr, Inhabited

/-- A post that waits in WAITSPACE (R570): queue, word, whether it ends the item, and whether the PC of its context has been
written since, so that its thread goes on there (R531, R532). -/
structure WaitPost where
  q : Nat
  w : Word
  last : Bool
  moved : Bool := false
  deriving DecidableEq, Repr, Inhabited

/-- A thread and its context (R531, R613). -/
structure Thread where
  /-- State (R613). Reset: 2 for TID 120, 0 otherwise. -/
  st : TState := .stopped
  /-- g0..g31 (R493). Reset: 0. -/
  regs : Vector Word 32 := Vector.replicate 32 0#32
  /-- Return stack ring, entry at the pointer first (R509, R531). Reset: 0. -/
  rs : List Nat := List.replicate 12 0
  /-- PC, 24 bits (R531). Reset: 0. -/
  pc : Nat := 0
  /-- TS bits 0..19 (R494). Reset: 0. -/
  ts : BitVec 20 := 0#20
  /-- TS rsd, 0..12 (R494). Reset: 0. -/
  rsd : Nat := 0
  /-- Address of the instruction executed last, for a fetch ISPACE (R526). Reset: 0. -/
  prev : Nat := 0
  /-- Outstanding delayed results, oldest first (R504). Reset: none. -/
  delayed : List Delayed := []
  /-- Outstanding interlocked results, oldest first (R506). Reset: none. -/
  inter : List Inter := []
  /-- Item in service or held (R613). Reset: none. -/
  item : Option Item := none
  /-- The held pair was left by YIELD, with this new age (R624). Reset: none. -/
  yieldAge : Option Nat := none
  /-- The item has been dispatched before (R645). Reset: no. -/
  resumed : Bool := false
  /-- Open item (R570). Reset: none. -/
  openItem : Option OpenItem := none
  /-- Post waiting for room (R570). Reset: none. -/
  wait : Option WaitPost := none
  /-- FAULTQ, 6 bits (R528). Reset: 54; 63 for TIDs 120..127. -/
  faultQ : Nat := 54
  /-- LAST_CORE, 3 bits; 7 none. Reset: 7. -/
  lastCore : Nat := 7
  /-- LISTEN mask over Q0..Q63 (SOW_LSN_LO, SOW_LSN_HI, LSN). Reset: 0. -/
  listen : BitVec 64 := 0#64
  /-- Trap code that parked it, 0 none (R528). Reset: 0. -/
  trap : Nat := 0
  /-- The item that it was serving when it became FAULTED, which its g28..g31 still name (R638). Reset: none. -/
  took : Option Item := none
  /-- CMD STOP has been written and waits for the next instruction boundary (R57, R614). Reset: no. -/
  stopping : Bool := false
  /-- Context words as saved before the present run, which a window reads while the thread runs (R648). Reset: 0. -/
  snap : List Word := []
  deriving DecidableEq, Repr, Inhabited

/-- A queue's configuration and statistics (R619, R645). -/
structure Queue where
  /-- LIMIT, 1..256. Reset: 16. -/
  limit : Nat := 16
  /-- URG, 2 bits. Reset: 0. -/
  urg : Nat := 0
  /-- GROUP, 3 bits. Reset: 0. -/
  group : Nat := 0
  /-- HIGH. Reset: 0. -/
  high : Nat := 0
  /-- DISPATCH, 32 bits. Reset: 0. -/
  dispatch : Nat := 0
  /-- WAITSUM and WAITMAX in units of 256 SCLK; free at each reading (log 14). Reset: 0. -/
  waitSum : Nat := 0
  waitMax : Nat := 0
  deriving DecidableEq, Repr, Inhabited

/-- A core as the Sower sees it. -/
structure Core where
  /-- Running thread (RUN_TID, RUN). Reset: none for FC0..FC5 while the field is down; 120 on LC. -/
  run : Option Nat := none
  /-- Standby thread (SB_TID, SB). Reset: none. -/
  standby : Option Nat := none
  /-- Order of its last dispatch, for R631. Reset: 0. -/
  runStamp : Nat := 0
  /-- Order in which its standby slot was filled, for R631. Reset: 0. -/
  sbStamp : Nat := 0
  /-- Stopped under R65 or R529. Reset: no. -/
  stopped : Bool := false
  /-- The heartbeat has expired, and the stop waits for the next instruction boundary (R57, R65). Reset: no. -/
  halting : Bool := false
  /-- Port write buffer, oldest first, 4 entries (R554). Reset: empty. -/
  wbuf : List (BitVec 16 × Word) := []
  /-- Threads that left the core while its port write buffer held entries (R572). Reset: none. -/
  leftBy : List Nat := []
  /-- Counts BUSY and IDLE, free at each reading (log 14), SWITCHES, PREFETCH, UNPREFETCH, PREEMPT (R645). Reset: 0. -/
  busy : Nat := 0
  idle : Nat := 0
  switches : Nat := 0
  prefetches : Nat := 0
  unprefetches : Nat := 0
  preempts : Nat := 0
  /-- Its own copy of SOW_STSEL, SOW_CXSEL TID and WORD, SOW_FLSEL (R647). Reset: 0. -/
  stSel : Nat := 0
  stVal : Vector Word 6 := Vector.replicate 6 0#32
  cxTid : Nat := 0
  cxWord : Nat := 0
  flSel : Nat := 0
  /-- Its own copy of GRN_RSEL REQ and POOL, GRN_MSEL WORD and POOL (R670). Reset: 0. -/
  rsReq : Nat := 0
  rsPool : Nat := 0
  msWord : Nat := 0
  msPool : Nat := 0
  /-- Instruction cache, the sets in use: set, tags of the two ways, the way used less recently first, none where the way
  is not valid (R503). Reset: none valid. -/
  cache : List (Nat × Option Nat × Option Nat) := []
  deriving DecidableEq, Repr, Inhabited

/-- A claimant waiting for a place (R634): a thread, the hinge's notification of a mailbox, the calendar's tick
item, the key scanner, a heartbeat or lock-out item with its words, the oldest spilled fault item of the queue (R529), or keeper
firmware's post of an item of a handle (R139, R243). -/
inductive Claimant where
  | thread (t : Nat)
  | note (l2f : Bool)
  | tick
  | scan
  | hw (words : List Word)
  | spilled
  | handle (kk seq : Nat)
  deriving DecidableEq, Repr, Inhabited

/-- The Sower. -/
structure Sower where
  /-- Queued visible items, oldest first (R616, R618). Reset: none. -/
  store : List Item := []
  /-- Age of the next item to become visible (R618). Reset: 0. -/
  nextAge : Nat := 0
  threads : Vector Thread 128 := Vector.replicate 128 {}
  queues : Vector Queue 64 := Vector.replicate 64 {}
  cores : Vector Core 7 := Vector.replicate 7 {}
  /-- Counter behind runStamp and sbStamp. Reset: 0. -/
  stamp : Nat := 0
  /-- Claimants waiting, first waiter first, with their queues (R634). Reset: none. -/
  claims : List (Nat × Claimant) := []
  /-- Flows FENCED whose holder no longer holds them by a thread: flow, item, thread (R622, R638). Reset: none. -/
  fenced : List (Nat × Item × Nat) := []
  /-- SOW_CTL MODE: true for affinity. Reset: weighted. -/
  affinity : Bool := false
  /-- SOW_CTL DISPATCH. Reset: 0. -/
  dispatch : Bool := false
  /-- SOW_CTL PREEMPT, 6 bits. Reset: 0x30. -/
  preempt : BitVec 6 := 0x30#6
  /-- SOW_WEIGHT0..7, 8 bits each. Reset: 16. -/
  weights : Vector Nat 8 := Vector.replicate 8 16
  /-- Weighted pointer and deficits: field part, latch part (R625). Reset: 0. -/
  ptrF : Nat := 0
  defF : Vector Nat 8 := Vector.replicate 8 0
  ptrL : Nat := 0
  defL : Vector Nat 8 := Vector.replicate 8 0
  /-- SOW_COUNT FLUSHED and REJ, saturating. Reset: 0. -/
  flushed : Nat := 0
  rej : Nat := 0
  /-- SOW_LCOUNT DROPPED, REJ and FLUSHED, saturating. Reset: 0. -/
  dropped : Nat := 0
  rejL : Nat := 0
  flushedL : Nat := 0
  /-- Fault spill, oldest first, 16 items with their queues (R529). Reset: empty. -/
  spill : List (Nat × List Word) := []
  /-- SOW_SPILL SPILLED, saturating at 255. Reset: 0. -/
  spilled : Nat := 0
  /-- Trace memory, oldest first, 4,096 entries of 64 bits (R642). Reset: empty. -/
  trace : List (BitVec 64) := []
  /-- SOW_TR_CTL CORES, WRAP and PAUSE. Reset: 0. -/
  trCores : BitVec 7 := 0#7
  trWrap : Bool := false
  trPause : Bool := false
  /-- SOW_TR_STATUS MISSED, saturating at 65,535. Reset: 0. -/
  trMissed : Nat := 0
  /-- SOW_TR_IDX, 12 bits, and SOW_TR_HI, 32 bits. Reset: 0. -/
  trIdx : Nat := 0
  trHi : Word := 0#32
  /-- TRC_STAMP as last used, 24 bits, in units of 256 SCLK (R642); free at each use (log 14). Reset: 0. -/
  stampTime : Nat := 0
  /-- SOW_LCXSEL TID and WORD. Reset: 0. -/
  lcxTid : Nat := 0
  lcxWord : Nat := 0
  deriving DecidableEq, Repr, Inhabited

/-- The Granary (R649). -/
structure Granary where
  /-- Contents, 1 MiB (R497). Reset: 0 at each field start (R92). -/
  mem : Mem := []
  /-- GRN_CTL MODE: true for sized. Reset: single. -/
  sized : Bool := false
  /-- Bitmaps of pools 0..3, 1 free (R650). Reset: all free; in single mode pools 1..3 are not used. -/
  map0 : BitVec 4096 := BitVec.allOnes 4096
  map1 : BitVec 1024 := BitVec.allOnes 1024
  map2 : BitVec 256 := BitVec.allOnes 256
  map3 : BitVec 64 := BitVec.allOnes 64
  /-- In-use counts of requester and pool (R654). Reset: 0. -/
  inuse : Vector (Vector Nat 4) 32 := Vector.replicate 32 (Vector.replicate 4 0)
  /-- Quotas (R654). Reset: 0 for requesters 0..15, the pool's buffer count for 16..31. -/
  quota : Vector (Vector Nat 4) 32 := Vector.replicate 32 (Vector.replicate 4 0)
  /-- Minima of requesters 16..31 (R654). Reset: 0. -/
  min : Vector (Vector Nat 4) 32 := Vector.replicate 32 (Vector.replicate 4 0)
  /-- The buffers in use, pool and index, with the requester under which each was taken, which keeper firmware keeps (R664): the
  model's own. Reset: none. -/
  takers : List (Nat × Nat × Nat) := []
  /-- GRN_COUNT FAILS and REJ, saturating. Reset: 0. -/
  fails : Nat := 0
  rej : Nat := 0
  deriving DecidableEq, Repr, Inhabited

/-- States of a plot (R201). -/
inductive PState where
  | none | loading | running | stopped | down (reason : String)
  deriving DecidableEq, Repr, Inhabited

/-- A plot: its record, its state, its grants and its requests. -/
structure Plot where
  /-- State (R201). Reset: NONE. -/
  st : PState := .none
  /-- Recorded flash address, 32 bits; none where none is recorded (R743). Reset: none. -/
  addr : Option Nat := none
  /-- Image size in bytes, X verb names and replayable bitmap of the last load (R743). Reset: 0, none, 0. -/
  size : Nat := 0
  verbs : List String := []
  replayable : BitVec 16 := 0#16
  /-- XBAD (R201, R208). Reset: 0. -/
  xbad : Nat := 0
  /-- Wake request: target tick (R209). Reset: none. -/
  wakeAt : Option Nat := none
  /-- PLG_BLOCKS and PLG_RO, 24 bits each (R515). Reset: 0. -/
  blocks : BitVec 24 := 0#24
  ro : BitVec 24 := 0#24
  /-- PLG_BAYS0..2, 96 bits (R516). Reset: 0. -/
  bays : BitVec 96 := 0#96
  /-- PLG_IWIN IBASE, ISIZE and PLG_DWIN DBASE, DSIZE (R514). Reset: 0. -/
  ibase : Nat := 0
  isize : Nat := 0
  dbase : Nat := 0
  dsize : Nat := 0
  deriving DecidableEq, Repr, Inhabited

/-- The SPI port (R676). -/
structure Spi where
  /-- Transfer under way (SPI_STATUS BUSY): its flash address, data address and length. Reset: none. -/
  job : Option (Nat × Nat × Nat) := none
  /-- SPI_STATUS DONE, ERR. Reset: 0. -/
  done : Bool := false
  err : Bool := false
  /-- SPI_CTL CMD, 2 bits. Reset: 1. -/
  cmd : Nat := 1
  /-- SPI_ADDR, 24 bits; SPI_DEST, 32 bits; SPI_LEN, 13 bits. Reset: 0. -/
  addr : Nat := 0
  dest : Nat := 0
  len : Nat := 0
  deriving DecidableEq, Repr, Inhabited

/-- Memories other than the furrow, the seedbank and the Granary. -/
structure Mems where
  /-- Data SRAM, 256 KiB (R497). Reset: 0 (unpowered until a field start, R92). -/
  data : Mem := []
  /-- Plot RAM, 128 KiB (R497). Reset: 0 (unpowered until a field start, R92). -/
  plotRam : Mem := []
  /-- Latch SRAM, 16 KiB (R498). Reset: 0 (R92). -/
  latch : Mem := []
  /-- Latch instruction RAM, 8 KiB, over its load from latch ROM (R92). Reset: as loaded. -/
  iram : Mem := []
  /-- The board's SPI NOR, outside the keeper, which never writes it (R675). Reset: erased, 0xFF (log 9). -/
  flash : Mem := []
  deriving DecidableEq, Repr, Inhabited

/-- The state of the block. -/
structure State where
  /-- Commands waiting, first in, first out: the model's own. Reset: none. -/
  pending : List Instr
  sys : Sys
  /-- Functions announced, oldest first (R73). Reset: none. -/
  up : List Fn
  /-- Functions that printed DOWN (R75). Reset: none. -/
  down : List Fn
  jtag : JtagPort
  con : Console
  /-- Sessions 0..15 (R333). Reset: none open (R93). -/
  ses : Vector Session 16
  jrn : Journal
  hnd : Handles
  fur : Furrow
  sdb : Seedbank
  cal : Calendar
  led : Ledger
  ring : Ring
  hng : Hinge
  bays : Bays
  env : Env
  keys : Keys
  face : Face
  tags : Tags
  fans : Fans
  sow : Sower
  gran : Granary
  plots : Vector Plot 16
  spi : Spi
  mems : Mems
  deriving DecidableEq, Repr

/-- Why the block stops. No command of the block stops it: R5 leaves no situation undefined. -/
inductive Fault where
  /-- Raised by no command; the type must not be empty. Safe. -/
  | none
  deriving DecidableEq, Repr

/-- Why a command has no meaning. -/
inductive Refusal where
  /-- The command of this mnemonic is not modelled yet. Raised by the refused arms of exec only. Safe. -/
  | notModelled (mnemonic : String)
  deriving DecidableEq, Repr

/-- The default scan program of bank 0: step r scans row r with SETTLE 3, LO and HI; step 15 has LAST (R468). -/
def defaultProgram : Vector (BitVec 11) 64 :=
  Vector.ofFn fun i => if i.val < 16 then BitVec.ofNat 11 (i.val + 3 * 16 + 256 + 512 + (if i.val = 15 then 1024 else 0)) else 0#11

/-- The context of a keeper thread at its thread start, as saved: every word 0 but TS, whose priv is 1 (R494, R531). -/
def bootSnap : List Word := List.replicate 45 0#32 ++ [0x01000000#32]

/-- Thread `t` at reset: TID 120 runs on LC from its reset address; every other thread is STOPPED (R612). -/
def Thread.cold (t : Nat) : Thread :=
  { st := if t = 120 then .running else .stopped, faultQ := if t < 120 then 54 else 63
    lastCore := 7, resumed := t = 120, snap := if t = 120 then bootSnap else [] }

/-- Quotas after field reset (R654, R670): 0 for requesters 0..15; 16..31 hold the pool's buffer count. -/
def resetQuotas : Vector (Vector Nat 4) 32 :=
  Vector.ofFn fun i => if i.val < 16 then Vector.replicate 4 0 else #v[4096, 1024, 256, 64]

/-- The state at reset release after a power-on, of a keeper as shipped. -/
def State.reset : State where
  pending := []
  sys := {}
  up := []
  down := []
  jtag := {}
  con := {}
  ses := (Vector.replicate 16 {}).setIfInBounds 0 { echo := true }
  jrn := {}
  hnd := {}
  fur := {}
  sdb := {}
  cal := {}
  led := {}
  ring := {}
  hng := {}
  bays := {}
  env := {}
  keys := { bank0 := defaultProgram }
  face := {}
  tags := {}
  fans := {}
  sow :=
    { threads := Vector.ofFn fun i => Thread.cold i.val
      cores := (Vector.replicate 7 {}).setIfInBounds 6 { run := some 120 } }
  gran := { quota := resetQuotas }
  plots := Vector.replicate 16 {}
  spi := {}
  mems := {}

end Sys2Proof.Machine
end

