-- ==== Sys2Proof/Machine/Ops.lean ====
section
/-! DEFINITION. Named operations over memories, bytes and bit fields: the one sparse byte memory that every
memory of the keeper is, little-endian units over it (R496), and CRC-32C. -/

namespace Sys2Proof.Machine

/-- A command's effect is a next state. -/
abbrev Res := Host.Outcome State Fault Refusal

/-- The command goes on to state `s`. -/
def goOn (s : State) : Res := .next s

/-! ### Bit fields -/

/-- Field of `n` bits at bit `lo`. -/
def fieldAt (v lo n : Nat) : Nat := v / 2 ^ lo % 2 ^ n

/-- Bit `i`. -/
def bitAt (v i : Nat) : Bool := v / 2 ^ i % 2 = 1

/-- The word of a natural number. -/
def wordOf (n : Nat) : Word := BitVec.ofNat 32 n

/-- Signed value of an `n`-bit field held in a natural number. -/
def signedOf (n v : Nat) : Int := if v < 2 ^ (n - 1) then (v : Int) else (v : Int) - (2 ^ n : Nat)

/-- The `n`-bit two's complement pattern of an integer. -/
def patternOf (n : Nat) (i : Int) : Nat := (i % ((2 ^ n : Nat) : Int)).toNat

/-- Set or clear bit `i` of a bitmap. -/
def putBit {n : Nat} (m : BitVec n) (i : Nat) (b : Bool) : BitVec n :=
  if b then m ||| BitVec.ofNat n (2 ^ i) else m &&& ~~~(BitVec.ofNat n (2 ^ i))

/-- The positions of the 1 bits of a bitmap, lowest first. -/
def onesOf {n : Nat} (m : BitVec n) : List Nat := (List.range n).filter fun i => m.getLsbD i

/-- The bitmap of a list of positions. -/
def mapOf (n : Nat) (l : List Nat) : BitVec n := l.foldl (fun m i => putBit m i true) 0#n

/-! ### Sparse byte memory -/

/-- What an unlisted byte of the keeper's memories reads as. -/
def zeroByte : Nat → Byte := fun _ => 0#8

/-- The byte at `a`; `d` gives unlisted addresses. -/
def Mem.get (d : Nat → Byte) : Mem → Nat → Byte
  | [], a => d a
  | (k, b) :: m, a => if a = k then b else if a < k then d a else Mem.get d m a

/-- Store byte `b` at `a`, keeping the canonical form: storing what an unlisted address reads as removes the entry. -/
def Mem.put (d : Nat → Byte) : Mem → Nat → Byte → Mem
  | [], a, b => if b = d a then [] else [(a, b)]
  | (k, c) :: m, a, b =>
    if a = k then (if b = d a then m else (a, b) :: m)
    else if a < k then (if b = d a then (k, c) :: m else (a, b) :: (k, c) :: m)
    else (k, c) :: Mem.put d m a b

/-- Store bytes at `a`, `a + 1`, and so on. -/
def Mem.puts (d : Nat → Byte) (m : Mem) (a : Nat) : List Byte → Mem
  | [] => m
  | b :: l => Mem.puts d (Mem.put d m a b) (a + 1) l

/-- `n` bytes from `a`. -/
def Mem.gets (d : Nat → Byte) (m : Mem) (a : Nat) : Nat → List Byte
  | 0 => []
  | n + 1 => Mem.get d m a :: Mem.gets d m (a + 1) n

/-- Addresses strictly rising from above `lo`, and no entry equal to what an unlisted address reads as. -/
def Mem.okFrom (d : Nat → Byte) : Nat → Mem → Bool
  | _, [] => true
  | lo, (k, b) :: m => decide (lo ≤ k) && decide (b ≠ d k) && Mem.okFrom d (k + 1) m

/-- The canonical form of a memory. -/
def Mem.wf (d : Nat → Byte) (m : Mem) : Bool := Mem.okFrom d 0 m

/-! ### Little-endian units -/

/-- The `n` bytes of a value, least significant first. -/
def leBytes : Nat → Nat → List Byte
  | 0, _ => []
  | n + 1, v => BitVec.ofNat 8 v :: leBytes n (v / 256)

/-- The value of bytes, least significant first. -/
def leNat : List Byte → Nat
  | [] => 0
  | b :: l => b.toNat + 256 * leNat l

/-- Value of the `n`-byte unit at `a`. -/
def Mem.unit (d : Nat → Byte) (m : Mem) (a n : Nat) : Nat := leNat (Mem.gets d m a n)

/-- Store an `n`-byte unit at `a`. -/
def Mem.putUnit (d : Nat → Byte) (m : Mem) (a n v : Nat) : Mem := Mem.puts d m a (leBytes n v)

/-- A list cut or padded with zeros to `n` bytes. -/
def padBytes (n : Nat) (l : List Byte) : List Byte := (l ++ List.replicate n 0#8).take n

/-- Bytes `i`, …, `i + n - 1` of a list, as a little-endian value. -/
def unitAt (l : List Byte) (i n : Nat) : Nat := leNat ((l.drop i).take n)

/-- Group bytes into little-endian words. -/
def wordsOf : List Byte → List Word
  | a :: b :: c :: d :: l => wordOf (leNat [a, b, c, d]) :: wordsOf l
  | _ => []

/-- The bytes of words. -/
def bytesOf (l : List Word) : List Byte := l.flatMap fun w => leBytes 4 w.toNat

/-! ### CRC-32C -/

/-- One bit of CRC-32C over the reflected polynomial 0x82F63B78. -/
def crcBit (c : BitVec 32) : BitVec 32 :=
  if c.getLsbD 0 then (c >>> 1) ^^^ 0x82F63B78#32 else c >>> 1

/-- One byte of CRC-32C. -/
def crcByte (c : BitVec 32) (b : Byte) : BitVec 32 :=
  crcBit (crcBit (crcBit (crcBit (crcBit (crcBit (crcBit (crcBit (c ^^^ b.setWidth 32))))))))

/-- CRC-32C of bytes: initial value and final exclusive-or all ones (R255, R356). -/
def crc32c (l : List Byte) : Nat := ((l.foldl crcByte 0xFFFFFFFF#32) ^^^ 0xFFFFFFFF#32).toNat

/-! ### Free values -/

/-- Draw a free value (log 5): its number, and the state that has drawn it. -/
def State.draw (s : State) : Nat × State :=
  (s.sys.draws, { s with sys := { s.sys with draws := s.sys.draws + 1 } })

/-- An outcome that no command tells and the spec does not give: free. -/
def State.freeCheck (s : State) : Bool × State :=
  let d := s.draw
  ((Config.freeWord d.1).getLsbD 0, d.2)

end Sys2Proof.Machine
end

