-- ==== Sys2Proof/Machine/Float.lean ====
section
/-! DEFINITION. The float unit (R597 to R604): binary32 read and rounded by exact integer arithmetic. Flags stand in
fflags order: bit 0 NX, 1 UF, 2 OF, 3 DZ, 4 NV. -/

namespace Sys2Proof.Machine

/-- A binary32 value as read: a finite value is (-1)^neg × m × 2^e. -/
inductive FVal where
  | nan (signalling : Bool)
  | inf (neg : Bool)
  | fin (neg : Bool) (m : Nat) (e : Int)
  deriving DecidableEq, Repr, Inhabited

/-- A result and its flags. -/
abbrev FRes := Word × BitVec 5

def fNX : BitVec 5 := 1#5
def fUF : BitVec 5 := 2#5
def fOF : BitVec 5 := 4#5
def fDZ : BitVec 5 := 8#5
def fNV : BitVec 5 := 16#5

/-- The one NaN that arithmetic writes (R599). -/
def fNaN : Word := 0x7FC00000#32

/-- Bit pattern of sign, exponent field and fraction. -/
def fPack (neg : Bool) (ex fr : Nat) : Word := wordOf (bitNat neg * 2 ^ 31 + ex * 2 ^ 23 + fr)

/-- Read a register as binary32; in PLAIN mode a subnormal reads as a zero of its own sign (R598). -/
def fRead (full : Bool) (w : Word) : FVal :=
  let v := w.toNat
  let neg := bitAt v 31
  let ex := fieldAt v 23 8
  let fr := fieldAt v 0 23
  if ex = 255 then (if fr = 0 then .inf neg else .nan (!bitAt v 22))
  else if ex = 0 then (if full then .fin neg fr (-149) else .fin neg 0 (-149))
  else .fin neg (fr + 2 ^ 23) ((ex : Int) - 150)

/-- Is a NaN; is a signalling NaN. -/
def FVal.isNan : FVal → Bool
  | .nan _ => true
  | _ => false

def FVal.isSig : FVal → Bool
  | .nan s => s
  | _ => false

/-- Number of bits of a value. -/
def bitLen (n : Nat) : Nat := if n = 0 then 0 else Nat.log2 n + 1

/-- `m / 2^p` rounded by `rm` (R494), and whether it is inexact; `sticky` says that a non-zero part lies below `m`. -/
def roundShift (rm : Nat) (neg : Bool) (m p : Nat) (sticky : Bool) : Nat × Bool :=
  let q := m / 2 ^ p
  let r := m % 2 ^ p
  let inexact := r ≠ 0 || sticky
  let up := match rm with
    | 0 => decide (2 ^ p < 2 * r) || (decide (2 * r = 2 ^ p) && (sticky || q % 2 = 1))
    | 1 => false
    | 2 => inexact && !neg
    | _ => inexact && neg
  (if up then q + 1 else q, inexact)

/-- Round (-1)^neg × m × 2^e, `m` not 0, to binary32 once (R598, R600). -/
def fRound (full : Bool) (rm : Nat) (neg : Bool) (m : Nat) (e : Int) (sticky : Bool) : FRes :=
  let len := bitLen m
  -- with an unbounded exponent
  let u := if len ≤ 24 then (m * 2 ^ (24 - len), e - ((24 - len : Nat) : Int), sticky)
    else
      let r := roundShift rm neg m (len - 24) sticky
      (r.1, e + ((len - 24 : Nat) : Int), r.2)
  let mant := if u.1 = 2 ^ 24 then 2 ^ 23 else u.1
  let ex : Int := if u.1 = 2 ^ 24 then u.2.1 + 1 else u.2.1
  if ex + 23 < -126 then
    if !full then (fPack neg 0 0, fUF ||| fNX)
    else
      let r := if -149 ≤ e then (m * 2 ^ (e + 149).toNat, sticky) else roundShift rm neg m (-149 - e).toNat sticky
      (fPack neg 0 r.1, if r.2 then fUF ||| fNX else 0#5)
  else if 127 < ex + 23 then
    let big := fPack neg 254 (2 ^ 23 - 1)
    let inf := fPack neg 255 0
    (match rm with
      | 0 => inf
      | 1 => big
      | 2 => if neg then big else inf
      | _ => if neg then inf else big, fOF ||| fNX)
  else (fPack neg (ex + 150).toNat (mant - 2 ^ 23), if u.2.2 then fNX else 0#5)

/-- An exact sum: of signed magnitudes at their own exponents. -/
def fSum (full : Bool) (rm : Nat) (na : Bool) (ma : Nat) (ea : Int) (nb : Bool) (mb : Nat) (eb : Int) : FRes :=
  let e := min ea eb
  let x : Int := (if na then -1 else 1) * ((ma * 2 ^ (ea - e).toNat : Nat) : Int)
    + (if nb then -1 else 1) * ((mb * 2 ^ (eb - e).toNat : Nat) : Int)
  if x = 0 then (fPack (if na = nb then na else rm = 3) 0 0, 0#5)
  else fRound full rm (decide (x < 0)) x.natAbs e false

/-- Flag NV of a signalling operand. -/
def fSig (l : List FVal) : BitVec 5 := if l.any FVal.isSig then fNV else 0#5

/-- FADD of values as read; FSUB negates the second (R602). -/
def fAddVal (full : Bool) (rm : Nat) (a b : FVal) : FRes :=
  if a.isNan || b.isNan then (fNaN, fSig [a, b])
  else match a, b with
    | .inf x, .inf y => if x = y then (fPack x 255 0, 0#5) else (fNaN, fNV)
    | .inf x, _ => (fPack x 255 0, 0#5)
    | _, .inf y => (fPack y 255 0, 0#5)
    | .fin na ma ea, .fin nb mb eb => fSum full rm na ma ea nb mb eb
    | _, _ => (fNaN, 0#5)

def FVal.negate : FVal → FVal
  | .inf n => .inf (!n)
  | .fin n m e => .fin (!n) m e
  | v => v

def fAdd (full : Bool) (rm : Nat) (a b : Word) : FRes := fAddVal full rm (fRead full a) (fRead full b)
def fSub (full : Bool) (rm : Nat) (a b : Word) : FRes := fAddVal full rm (fRead full a) (fRead full b).negate

/-- FMUL. -/
def fMul (full : Bool) (rm : Nat) (a b : Word) : FRes :=
  match fRead full a, fRead full b with
  | .fin na ma ea, .fin nb mb eb =>
    if ma * mb = 0 then (fPack (na != nb) 0 0, 0#5) else fRound full rm (na != nb) (ma * mb) (ea + eb) false
  | .inf x, .inf y => (fPack (x != y) 255 0, 0#5)
  | .inf x, .fin n m _ => if m = 0 then (fNaN, fNV) else (fPack (x != n) 255 0, 0#5)
  | .fin n m _, .inf x => if m = 0 then (fNaN, fNV) else (fPack (x != n) 255 0, 0#5)
  | x, y => (fNaN, fSig [x, y])

/-- FDIV. -/
def fDiv (full : Bool) (rm : Nat) (a b : Word) : FRes :=
  match fRead full a, fRead full b with
  | .fin na ma ea, .fin nb mb eb =>
    if mb = 0 then (if ma = 0 then (fNaN, fNV) else (fPack (na != nb) 255 0, fDZ))
    else if ma = 0 then (fPack (na != nb) 0 0, 0#5)
    else fRound full rm (na != nb) (ma * 2 ^ 60 / mb) (ea - eb - 60) (decide (ma * 2 ^ 60 % mb ≠ 0))
  | .inf _, .inf _ => (fNaN, fNV)
  | .inf x, .fin n _ _ => (fPack (x != n) 255 0, 0#5)
  | .fin n _ _, .inf x => (fPack (x != n) 0 0, 0#5)
  | x, y => (fNaN, fSig [x, y])

/-- Integer square root, bit by bit from bit `n - 1`. -/
def isqrt (m : Nat) : Nat → Nat → Nat
  | 0, r => r
  | n + 1, r => if (r + 2 ^ n) * (r + 2 ^ n) ≤ m then isqrt m n (r + 2 ^ n) else isqrt m n r

/-- FSQRT. -/
def fSqrt (full : Bool) (rm : Nat) (a : Word) : FRes :=
  match fRead full a with
  | .fin n m e =>
    if m = 0 then (fPack n 0 0, 0#5)
    else if n then (fNaN, fNV)
    else
      let m2 := if e % 2 = 0 then m * 2 ^ 60 else 2 * m * 2 ^ 60
      let e2 : Int := if e % 2 = 0 then e - 60 else e - 61
      let r := isqrt m2 44 0
      fRound full rm false r (e2 / 2) (decide (r * r ≠ m2))
  | .inf n => if n then (fNaN, fNV) else (fPack false 255 0, 0#5)
  | x => (fNaN, fSig [x])

/-- FMADD: ra × rb + rc with a single rounding. -/
def fMadd (full : Bool) (rm : Nat) (a b c : Word) : FRes :=
  let x := fRead full a
  let y := fRead full b
  let z := fRead full c
  let zeroInf := match x, y with
    | .inf _, .fin _ m _ => decide (m = 0)
    | .fin _ m _, .inf _ => decide (m = 0)
    | _, _ => false
  if zeroInf then (fNaN, fNV)
  else if x.isNan || y.isNan || z.isNan then (fNaN, fSig [x, y, z])
  else
    let p : FVal := match x, y with
      | .fin na ma ea, .fin nb mb eb => .fin (na != nb) (ma * mb) (ea + eb)
      | .inf n, .inf k => .inf (n != k)
      | .inf n, .fin k _ _ => .inf (n != k)
      | .fin k _ _, .inf n => .inf (n != k)
      | v, _ => v
    fAddVal full rm p z

/-- Order of two values that are no NaN: -1, 0 or 1; -0 equals +0. -/
def fOrder : FVal → FVal → Int
  | .inf x, .inf y => if x = y then 0 else if x then -1 else 1
  | .inf x, _ => if x then -1 else 1
  | _, .inf y => if y then 1 else -1
  | .fin na ma ea, .fin nb mb eb =>
    let e := min ea eb
    let x : Int := (if na then -1 else 1) * ((ma * 2 ^ (ea - e).toNat : Nat) : Int)
    let y : Int := (if nb then -1 else 1) * ((mb * 2 ^ (eb - e).toNat : Nat) : Int)
    if x < y then -1 else if x = y then 0 else 1
  | _, _ => 0

/-- The operand as read: in PLAIN mode a subnormal is a zero of its sign. -/
def fAsRead (full : Bool) (w : Word) : Word :=
  if !full && fieldAt w.toNat 23 8 = 0 then w &&& 0x80000000#32 else w

/-- FMIN and FMAX; `greater` chooses FMAX. -/
def fPick (full greater : Bool) (a b : Word) : FRes :=
  let x := fRead full a
  let y := fRead full b
  let fl := fSig [x, y]
  if x.isNan && y.isNan then (fNaN, fl)
  else if x.isNan then (fAsRead full b, fl)
  else if y.isNan then (fAsRead full a, fl)
  else
    let o := fOrder x y
    let aLess := decide (o < 0) || (decide (o = 0) && bitAt a.toNat 31)
    (fAsRead full (if aLess != greater then a else b), fl)

/-- FCMPEQ, FCMPLT and FCMPLE: `test` reads the order; `ordered` raises NV at any NaN (R601). -/
def fCompare (full ordered : Bool) (test : Int → Bool) (a b : Word) : FRes :=
  let x := fRead full a
  let y := fRead full b
  if x.isNan || y.isNan then (0#32, if ordered then fNV else fSig [x, y])
  else (wordOf (bitNat (test (fOrder x y))), 0#5)

/-- FCVTWS (R604). -/
def fToInt (full : Bool) (rm : Nat) (a : Word) : FRes :=
  match fRead full a with
  | .nan _ => (0x7FFFFFFF#32, fNV)
  | .inf n => (if n then 0x80000000#32 else 0x7FFFFFFF#32, fNV)
  | .fin n m e =>
    let r := if 0 ≤ e then (m * 2 ^ e.toNat, false) else roundShift rm n m (-e).toNat false
    if n then (if 2 ^ 31 < r.1 then (0x80000000#32, fNV) else (-(wordOf r.1), if r.2 then fNX else 0#5))
    else (if 2 ^ 31 ≤ r.1 then (0x7FFFFFFF#32, fNV) else (wordOf r.1, if r.2 then fNX else 0#5))

/-- FCVTSW. -/
def fOfInt (full : Bool) (rm : Nat) (a : Word) : FRes :=
  if a = 0#32 then (0#32, 0#5) else fRound full rm (decide (a.toInt < 0)) a.toInt.natAbs 0 false

end Sys2Proof.Machine
end

