-- ==== Sys2Proof/Machine/Flags.lean ====
section
/-! DEFINITION. The flag computations of the integer, multiply, divide and decimal instructions, and the fields of
TS (R494, R495, R547, R586 to R596). -/

namespace Sys2Proof.Machine

/-! ### TS -/

def tsC : Nat := 0
def tsDc : Nat := 1
def tsDze : Nat := 16
def tsDinv : Nat := 17
def tsDinve : Nat := 18
def tsRsw : Nat := 19

/-- A flag of TS. -/
def Thread.flag (h : Thread) (i : Nat) : Bool := h.ts.getLsbD i

/-- Set a flag of TS. -/
def Thread.setFlag (h : Thread) (i : Nat) (b : Bool) : Thread := { h with ts := putBit h.ts i b }

/-- The float mode: FULL where fm is 1. -/
def Thread.full (h : Thread) : Bool := h.ts.getLsbD 3

/-- The rounding mode rm. -/
def Thread.rm (h : Thread) : Nat := fieldAt h.ts.toNat 4 2

/-- fen, in fflags order. -/
def Thread.fen (h : Thread) : BitVec 5 := (h.ts >>> 11).setWidth 5

/-- Bits 3..15, which LC does not have (R495). -/
def lcTsMask : BitVec 20 := 0xF0007#20

/-- TS as TSR reads it (R494). -/
def tsWord (t : Nat) (h : Thread) : Word :=
  wordOf (h.ts.toNat + h.rsd * 2 ^ 20 + bitNat (!(decide (24 ≤ t) && decide (t < 120))) * 2 ^ 24
    + (if 24 ≤ t ∧ t < 120 then (t - 24) / 6 else 0) * 2 ^ 28)

/-! ### Integer -/

/-- ra + rb + cin with its carry (ADD, ADDC). -/
def addCarry (a b : Word) (cin : Bool) : Word × Bool :=
  let n := a.toNat + b.toNat + bitNat cin
  (wordOf n, decide (2 ^ 32 ≤ n))

/-- ra − rb − cin with its borrow (SUB, SUBC). -/
def subBorrow (a b : Word) (cin : Bool) : Word × Bool :=
  let need := b.toNat + bitNat cin
  (wordOf (a.toNat + 2 ^ 33 - need), decide (a.toNat < need))

/-- Bits set among bits `0..n - 1`. -/
def popCount (w : Word) : Nat := ((List.range 32).filter fun i => w.getLsbD i).length

/-- Leading zero bits. -/
def leadZeros (w : Word) : Nat := 32 - bitLen w.toNat

def truthWord (b : Bool) : Word := wordOf (bitNat b)

/-! ### Multiply and divide -/

/-- Signed product as 64 bits. -/
def mulSigned (a b : Word) : BitVec 64 := BitVec.ofInt 64 (a.toInt * b.toInt)

/-- Unsigned product as 64 bits. -/
def mulUnsigned (a b : Word) : BitVec 64 := BitVec.ofNat 64 (a.toNat * b.toNat)

def lowWord (x : BitVec 64) : Word := x.setWidth 32
def highWord (x : BitVec 64) : Word := (x >>> 32).setWidth 32

/-- DIVS: truncated quotient; the edge results of R589. -/
def divSigned (a b : Word) : Word :=
  if b = 0#32 then 0xFFFFFFFF#32 else BitVec.ofInt 32 (Int.tdiv a.toInt b.toInt)

/-- REMS: remainder with the dividend's sign. -/
def remSigned (a b : Word) : Word :=
  if b = 0#32 then a else BitVec.ofInt 32 (Int.tmod a.toInt b.toInt)

def divUnsigned (a b : Word) : Word := if b = 0#32 then 0xFFFFFFFF#32 else wordOf (a.toNat / b.toNat)
def remUnsigned (a b : Word) : Word := if b = 0#32 then a else wordOf (a.toNat % b.toNat)

/-! ### Decimal -/

/-- Ten to the 8. -/
def ten8 : Nat := 100000000

/-- The value of `n` BCD digits; an invalid nibble reads as 0 (R593). -/
def bcdValue : Nat → Nat → Nat
  | 0, _ => 0
  | n + 1, v => (if v % 16 < 10 then v % 16 else 0) + 10 * bcdValue n (v / 16)

/-- Some nibble of `n` is 0xA..0xF. -/
def bcdBad : Nat → Nat → Bool
  | 0, _ => false
  | n + 1, v => decide (10 ≤ v % 16) || bcdBad n (v / 16)

/-- `n` BCD digits of a value. -/
def toBcd : Nat → Nat → Nat
  | 0, _ => 0
  | n + 1, v => v % 10 + 16 * toBcd n (v / 10)

/-- A decimal operand's value. -/
def decOf (w : Word) : Nat := bcdValue 8 w.toNat

/-- A decimal result's word: 8 digits. -/
def decWord (n : Nat) : Word := wordOf (toBcd 8 n)

/-- The operand word of DINV's detail: the first that holds an invalid nibble (R593). -/
def badOperand : List Word → Option Word
  | [] => none
  | w :: l => if bcdBad 8 w.toNat then some w else badOperand l

/-- DADD and DADDC. -/
def decAdd (a b : Word) (cin : Bool) : Word × Bool :=
  let n := decOf a + decOf b + bitNat cin
  (decWord (n % ten8), decide (ten8 ≤ n))

/-- DSUB and DSUBC. -/
def decSub (a b : Word) (cin : Bool) : Word × Bool :=
  let need := decOf b + bitNat cin
  (decWord ((decOf a + 2 * ten8 - need) % ten8), decide (decOf a < need))

end Sys2Proof.Machine
end

