-- ==== Sys2Proof/Machine/SowOps.lean ====
section
/-! DEFINITION. The Sower's shared operations: threads and cores, items and places (R615 to R618), flows (R620 to
R622), choosing a pair (R623 to R627), visibility, claims (R634), cancelling a prefetch (R630), trace (R642 to
R644), statistics (R645), and what the Sower does at a trap or a core stop (R528, R529, R638, R639). -/

namespace Sys2Proof.Machine

/-! ### Accessors -/

def State.modSow (s : State) (f : Sower → Sower) : State := { s with sow := f s.sow }
def State.modSys (s : State) (f : Sys → Sys) : State := { s with sys := f s.sys }
def State.th (s : State) (t : Nat) : Thread := vget s.sow.threads t
def State.core (s : State) (k : Nat) : Core := vget s.sow.cores k
def State.que (s : State) (q : Nat) : Queue := vget s.sow.queues q
def State.modTh (s : State) (t : Nat) (f : Thread → Thread) : State :=
  s.modSow fun w => { w with threads := vmod w.threads t f }
def State.modCore (s : State) (k : Nat) (f : Core → Core) : State :=
  s.modSow fun w => { w with cores := vmod w.cores k f }
def State.modQue (s : State) (q : Nat) (f : Queue → Queue) : State :=
  s.modSow fun w => { w with queues := vmod w.queues q f }

/-- Core `k` stalls at an access whose hinge transfer has not been granted, so that it stands at no instruction boundary (R57). -/
def State.stalled (s : State) (k : Nat) : Bool := (s.hng.waiting ++ s.hng.asking).any fun x => x.core = k

/-! ### Items -/

/-- A header of LEN, FLOW, TENANCY and TYPE (R615). -/
def header (len flow ten typ : Nat) : Word :=
  wordOf (len * 2 ^ 30 + flow * 2 ^ 20 + ten * 2 ^ 16 + typ)

/-- Word `i` of an item; 0 beyond its length (R492). -/
def Item.word (it : Item) (i : Nat) : Word := it.words.getD i 0#32

/-- The item's flow: the header's on Q0..Q55, 0x000 on Q56..Q63 (R621). -/
def Item.flow (it : Item) : Nat := if 56 ≤ it.q then 0 else fieldAt (it.word 0).toNat 20 10

/-- The FLOW field of the item's header, which the trace names. -/
def Item.flowField (it : Item) : Nat := fieldAt (it.word 0).toNat 20 10

/-- The item's TYPE. -/
def Item.typ (it : Item) : Nat := fieldAt (it.word 0).toNat 0 16

/-- The items in service or held, with their threads (R613). -/
def State.heldItems (s : State) : List (Item × Nat) :=
  (List.range 128).filterMap fun t => (s.th t).item.map fun it => (it, t)

/-- The shelf flow, which REST rides (R44). -/
def shelfFlow : Nat := 0x071

/-- The handle that an item of a form names in word 1 (R206). -/
def handleWord (kk seq : Nat) : Word := wordOf (seq + 65536 * kk)

/-- The item delivers an X verb (R206). -/
def Item.isX (it : Item) : Bool := 24 ≤ it.q && it.q < 40 && 0x100 ≤ it.typ && it.typ < 0x110 && it.words.length = 4

/-- The item is one of keeper firmware's forms: of a bay, on Q1, or of the shelf or a tenancy, on Q4 (R139, R641, log 19). -/
def Item.isWork (it : Item) : Bool := (it.q = 1 || it.q = 4) && it.words.length = 2

/-- The item belongs to the handle (word 1). -/
def Item.names (it : Item) (kk seq : Nat) : Bool := (it.isX || it.isWork) && it.word 1 = handleWord kk seq

/-- The flow of a form that one keeper field thread serves whole: the shelf's, or the tenancy's (R44, R199, R641, log 19). -/
def Form.keeperFlow : Form → Option Nat
  | .rest => some shelfFlow
  | .envSet _ _ => some shelfFlow
  | .selftest _ => some shelfFlow
  | .epoch t _ => some (0x61 + t)
  | .plotLoad t _ => some (0x61 + t)
  | .plotUnload t => some (0x61 + t)
  | _ => none

/-- The words of an item of keeper firmware's own forms: the handle in word 1, and a type that the spec leaves open (R615,
log 19). -/
def formWords (flow : Nat) (h : Handle) : List Word := [header 1 flow h.ten Config.keeperType.toNat, handleWord h.kk h.seq]

/-- The items that keeper threads which the model does not follow have in service, or hold for a thread that it does (R620,
log 19): a bay's, and one of Q4 for each form that such a thread serves (R44, R199). -/
def State.formItems (s : State) : List Item := s.bays.work.map Work.item ++ s.hnd.opens.filterMap Handle.item

/-- Items of flow `f` in service: held by a thread, FENCED (R620, R622), or held by a keeper thread that the model does not
follow (log 19). -/
def State.flowHeld (s : State) (f : Nat) : Bool :=
  (s.heldItems.any fun p => p.1.flow = f) || (s.sow.fenced.any fun p => p.1 = f) || s.formItems.any fun it => it.flow = f

/-- Queue `q` names the field part. -/
def fieldQ (q : Nat) : Bool := q < 56

/-- The places that open items hold in queue `q` (R570, R616). -/
def State.claimsHeld (s : State) (q : Nat) : Nat :=
  ((List.range 128).filter fun t =>
    match (s.th t).openItem with
    | some o => o.q = q && o.flushed.isNone && !o.dropped
    | none => false).length

/-- The queue of a form's items: Q1 for the bays that a form names, Q24 + t for an X verb (R139, R206). -/
def Form.queue : Form → Option Nat
  | .bayOn _ _ => some 1
  | .bayOff _ => some 1
  | .forget _ _ => some 1
  | .tag _ _ _ => some 1
  | .tagAuto _ => some 1
  | .x t _ _ _ => some (24 + t)
  | _ => none

/-- The places of queue `q` that open handles have claimed and not used yet (R139, R206). -/
def State.handleClaims (s : State) (q : Nat) : Nat :=
  s.hnd.opens.foldl (fun n h => if h.form.queue = some q then n + h.claim else n) 0

/-- The place count of a queue (R616). What handles have claimed (R139, R206) counts there. -/
def State.placeCount (s : State) (q : Nat) : Nat :=
  (s.sow.store.filter fun it => it.q = q).length
    + ((List.range 128).filter fun t =>
        let h := s.th t
        h.st = .standby && !h.resumed && h.item.any fun it => it.q = q).length
    + s.claimsHeld q + s.handleClaims q

/-- Store entries in use in a part (R616, USED). -/
def State.used (s : State) (field : Bool) : Nat :=
  (s.sow.store.filter fun it => fieldQ it.q = field).length
    + (s.heldItems.filter fun p => fieldQ p.1.q = field).length
    + (s.sow.fenced.filter fun p => fieldQ p.2.1.q = field).length
    + ((List.range 64).filter fun q => fieldQ q = field).foldl (fun n q => n + s.claimsHeld q) 0
    + (if field then (s.bays.work.filter fun w => w.tid.isNone).length + (s.hnd.opens.filterMap Handle.item).length
        + s.hnd.opens.foldl (fun n h => n + h.claim) 0 else 0)

/-- Store entries of a part (R611). -/
def partSize (field : Bool) : Nat := if field then 3584 else 512

/-- A claim on queue `q` can be granted now (R616). -/
def State.hasRoom (s : State) (q : Nat) : Bool :=
  s.placeCount q < (s.que q).limit && s.used (fieldQ q) < partSize (fieldQ q)

/-- Some claimant already waits for queue `q` (R634). -/
def State.waiter (s : State) (q : Nat) : Option Claimant :=
  (s.sow.claims.find? fun p => p.1 = q).map Prod.snd

/-- The depth of a queue (R617). -/
def State.depth (s : State) (q : Nat) : Nat := (s.sow.store.filter fun it => it.q = q).length

/-- The statistics count only in field state (R645). -/
def State.counting (s : State) : Bool := s.sys.fieldUp

/-- Add 1 modulo 2^32. -/
def inc32 (n : Nat) : Nat := (n + 1) % pow32

/-- The depth of queue `q` has risen: HIGH follows it (R645). -/
def State.raised (s : State) (q : Nat) : State :=
  if s.counting then s.modQue q fun x => { x with high := max x.high (s.depth q) } else s

/-- An item becomes visible: it takes the next age and joins its queue (R618). -/
def State.visible (s : State) (q : Nat) (words : List Word) : State :=
  (s.modSow fun w =>
    { w with store := w.store ++ [{ words := words, q := q, age := w.nextAge }], nextAge := w.nextAge + 1 }).raised q

/-- A claimant joins those waiting for queue `q`, last (R634). -/
def State.await (s : State) (q : Nat) (c : Claimant) : State :=
  s.modSow fun w => { w with claims := w.claims ++ [(q, c)] }

/-- The first waiter of queue `q` has its place: it no longer waits. -/
def dropFirst (q : Nat) : List (Nat × Claimant) → List (Nat × Claimant)
  | [] => []
  | p :: l => if p.1 = q then l else p :: dropFirst q l

def State.served (s : State) (q : Nat) : State :=
  s.modSow fun w => { w with claims := dropFirst q w.claims }

/-- Keeper firmware waits no longer for places for the items of a handle. -/
def State.waitNoMore (s : State) (kk seq : Nat) : State :=
  s.modSow fun w => { w with claims := w.claims.filter fun p => p.2 ≠ .handle kk seq }

/-- A hardware producer's item: posted whole where it finds a place and no one waits, otherwise it waits (R634). -/
def State.hwPost (s : State) (q : Nat) (c : Claimant) (words : List Word) : State :=
  if s.hasRoom q && (s.waiter q).isNone then s.visible q words else s.await q c

/-- LC posts a whole item toward field queue `q`: discarded while the field is down (R580). -/
def State.lcPost (s : State) (q : Nat) (words : List Word) : State :=
  if !s.sys.fieldUp then s.modSow fun w => { w with dropped := satInc 65535 w.dropped }
  else s.hwPost q (.hw words) words

/-! ### Trace -/

/-- The time as the trace stamp gives it: free, because the model keeps no time (log 14). -/
def State.stamped (s : State) : State :=
  let d := s.draw
  d.2.modSow fun w => { w with stampTime := (Config.freeWord d.1).toNat % 16777216 }

/-- Recording pauses: by SOW_TR_CTL PAUSE, or for a TRACE DUMP whose `=` line is not queued yet (R214). -/
def State.tracePaused (s : State) : Bool := s.sow.trPause || s.sys.due.any fun p => p.2 = .dump

/-- Record a trace event of core `k` (R642, R644). -/
def State.trace (s : State) (k event t q flow detail : Nat) : State :=
  if !s.sys.fieldUp || !s.sow.trCores.getLsbD k then s
  else if s.tracePaused then s.modSow fun w => { w with trMissed := satInc 65535 w.trMissed }
  else
    let s := s.stamped
    let e : BitVec 64 := BitVec.ofNat 64
      (s.sow.stampTime * 2 ^ 40 + event * 2 ^ 36 + k * 2 ^ 33 + t * 2 ^ 26 + q * 2 ^ 20 + flow * 2 ^ 10 + detail)
    if s.sow.trace.length < 4096 then s.modSow fun w => { w with trace := w.trace ++ [e] }
    else if s.sow.trWrap then s.modSow fun w => { w with trace := w.trace.drop 1 ++ [e] }
    else s.modSow fun w => { w with trMissed := satInc 65535 w.trMissed }

/-- The counts of time that SOW_STSEL SEL selects: free at each reading, and 0 of a queue from which nothing has been
dispatched since they were zeroed (R215, R645, log 14). -/
def State.timed (s : State) (sel : Nat) : State :=
  if !s.counting then s
  else
    let a := s.draw
    let b := a.2.draw
    let x := (Config.freeWord a.1).toNat
    let y := (Config.freeWord b.1).toNat
    if sel < 64 then
      b.2.modQue sel fun q =>
        if q.dispatch = 0 then { q with waitSum := 0, waitMax := 0 } else { q with waitSum := x, waitMax := y }
    else if sel < 71 then b.2.modCore (sel - 64) fun c => { c with busy := x, idle := y }
    else s

/-- The core that runs thread `t`; where none does, the core it ran on last; 6 for LC threads, 0 otherwise. -/
def State.coreOf (s : State) (t : Nat) : Nat :=
  match (List.range 7).find? fun k => (s.core k).run = some t with
  | some k => k
  | none => if 120 ≤ t then 6 else if (s.th t).lastCore < 7 then (s.th t).lastCore else 0

/-! ### Keeper firmware that the model does not follow -/

/-- The thread and the core that serve an item for keeper firmware which the model does not follow: free, a field keeper thread
on Q0..Q55 and a thread of LC on Q56..Q63 (R623, log 19). -/
def Item.server (it : Item) : Nat × Nat :=
  let t := (Config.servingTid it.age).toNat
  if 56 ≤ it.q then (120 + t % 8, 6) else (t % 24, (Config.servingCore it.age).toNat % 6)

/-- Remove the item of age `a` from the store. -/
def removeAge (a : Nat) (l : List Item) : List Item := l.filter fun it => it.age ≠ a

/-- The item leaves its queue for keeper firmware: a dispatch to RUNNING (R616, R643, R645). -/
def State.takeUpItem (s : State) (it : Item) : State :=
  let s := s.modSow fun x => { x with store := removeAge it.age x.store }
  let s := if s.counting then s.modQue it.q fun x => { x with dispatch := inc32 x.dispatch } else s
  s.trace it.server.2 0 it.server.1 it.q it.flowField (4 * (s.que it.q).urg)

/-- Service of an item that keeper firmware took up ends, by DONE (R643). -/
def State.endItem (s : State) (it : Item) : State := s.trace it.server.2 6 it.server.1 it.q it.flowField 0

/-- Keeper firmware takes up an item and is done with it in one step. -/
def State.serveItem (s : State) (it : Item) : State := (s.takeUpItem it).endItem it

/-! ### Choosing a pair -/

/-- A pair that a core can take (R623, R624). -/
structure Pair where
  tid : Nat
  item : Option Item
  held : Bool
  urg : Nat
  group : Nat
  age : Nat
  last : Nat
  deriving DecidableEq, Repr, Inhabited

/-- Threads that core `k` may run (R623). -/
def coreTids (k : Nat) : List Nat :=
  if k = 6 then (List.range 8).map (· + 120) else List.range 120

/-- An item is eligible (R620, R621): items of one flow go one at a time and in their age order, whatever queues carry
them. -/
def State.eligible (s : State) (it : Item) : Bool :=
  it.flow = 0 || (!s.flowHeld it.flow &&
    !(s.sow.store.any fun o => o.flow = it.flow && o.age < it.age))

/-- The IDLE listener of queue `q` that a new pair for core `k` takes (R623). -/
def State.listener (s : State) (k q : Nat) : Option Nat :=
  let l := (coreTids k).filter fun t => (s.th t).st = .idle && (s.th t).listen.getLsbD q
  match l.find? fun t => (s.th t).lastCore = k with
  | some t => some t
  | none => l.head?

/-- The held pairs of core `k` (R624). -/
def State.heldPairs (s : State) (k : Nat) : List Pair :=
  (coreTids k).filterMap fun t =>
    let h := s.th t
    if h.st = .ready then
      let q := (h.item.map Item.q).getD 0
      let a := match h.yieldAge with
        | some a => a
        | none => (h.item.map Item.age).getD 0
      some { tid := t, item := h.item, held := true, urg := if h.item.isSome then (s.que q).urg else 0,
             group := if h.item.isSome then (s.que q).group else 0, age := a, last := h.lastCore }
    else none

/-- The new pairs of core `k` (R623). -/
def State.newPairs (s : State) (k : Nat) : List Pair :=
  s.sow.store.filterMap fun it =>
    if fieldQ it.q = decide (k < 6) && s.eligible it then
      (s.listener k it.q).map fun t =>
        { tid := t, item := some it, held := false, urg := (s.que it.q).urg, group := (s.que it.q).group,
          age := it.age, last := (s.th t).lastCore }
    else none

def State.pairs (s : State) (k : Nat) : List Pair := s.heldPairs k ++ s.newPairs k

/-- The pair of the oldest age. -/
def oldest : List Pair → Option Pair
  | [] => none
  | p :: l => match oldest l with
    | none => some p
    | some r => if r.age < p.age then some r else some p

/-- The group that weighted selection picks, with the new pointer and deficits (R625); `fuel` bounds the loop, which
ends within two turns because no weight is 0. -/
def pickGroup (weights : Vector Nat 8) (has : Nat → Bool) : Nat → Nat → Vector Nat 8 → Nat × Nat × Vector Nat 8
  | 0, ptr, d => (ptr, ptr, d)
  | fuel + 1, ptr, d =>
    if has ptr && 1 ≤ vget d ptr then (ptr, ptr, vset d ptr (vget d ptr - 1))
    else
      let d := if has ptr then d else vset d ptr 0
      let ptr := (ptr + 1) % 8
      pickGroup weights has fuel ptr (vset d ptr (vget d ptr + vget weights ptr))

/-- The Sower's choice for core `k`, with the state its pointer and deficits leave (R625). -/
def State.choose (s : State) (k : Nat) : Option Pair × State :=
  let set := s.pairs k
  let top := set.foldl (fun m p => max m p.urg) 0
  let set := set.filter fun p => p.urg = top
  if set.isEmpty then (none, s)
  else if s.sow.affinity then
    let own := set.filter fun p => p.last = k
    (oldest (if own.isEmpty then set else own), s)
  else
    let has := fun g => set.any fun p => p.group = g
    if k = 6 then
      let r := pickGroup s.sow.weights has 20 s.sow.ptrL s.sow.defL
      (oldest (set.filter fun p => p.group = r.1), s.modSow fun w => { w with ptrL := r.2.1, defL := r.2.2 })
    else
      let r := pickGroup s.sow.weights has 20 s.sow.ptrF s.sow.defF
      (oldest (set.filter fun p => p.group = r.1), s.modSow fun w => { w with ptrF := r.2.1, defF := r.2.2 })

/-! ### Taking and giving back pairs -/

/-- Put an item back at its age (R630). -/
def insertAge (x : Item) : List Item → List Item
  | [] => [x]
  | it :: l => if it.age < x.age then it :: insertAge x l else x :: it :: l

/-- The pair's item leaves its queue and its thread holds it. -/
def State.takePair (s : State) (p : Pair) (st : TState) : State :=
  let s := match p.held, p.item with
    | false, some it => s.modSow fun w => { w with store := removeAge it.age w.store }
    | _, _ => s
  s.modTh p.tid fun h =>
    { h with st := st, item := p.item, resumed := if p.held then h.resumed else false }

/-- The thread's post that waited in WAITSPACE ends, now that its thread runs again (R570, R571). It goes on after the POST, or
where its context's word 44 has been written meanwhile, at that address (R531, R532). -/
def State.finishWait (s : State) (t : Nat) : State :=
  let h := s.th t
  match h.wait, h.openItem with
  | some w, some o =>
    let s := s.modTh t fun h => { h with wait := none, pc := if w.moved then h.pc else (h.pc + 4) % 16777216, prev := h.pc }
    match o.flushed with
    | some (p, n) =>
      if w.last then s.modTh t fun h => { h with openItem := none }
      else s.modTh t fun h => { h with openItem := some { o with flushed := some (p, n + 1) } }
    | none =>
      if o.dropped then
        if w.last then
          (s.modTh t fun h => { h with openItem := none }).modSow fun w => { w with dropped := satInc 65535 w.dropped }
        else s.modTh t fun h => { h with openItem := some { o with words := [w.w] } }
      else if w.last then
        let ten := if 24 ≤ t ∧ t < 120 then (t - 24) / 6 else fieldAt w.w.toNat 16 4
        (s.modTh t fun h => { h with openItem := none }).visible o.q
          [header 0 (fieldAt w.w.toNat 20 10) ten (fieldAt w.w.toNat 0 16)]
      else s.modTh t fun h => { h with openItem := some { o with words := [w.w] } }
  | _, _ => s

/-- Context word `i` of a thread (R531). -/
def Thread.context (h : Thread) (t i : Nat) : Word :=
  if i = 0 then 0#32
  else if i < 32 then vget h.regs i
  else if i < 44 then wordOf (h.rs.getD (i - 32) 0)
  else if i = 44 then wordOf h.pc
  else if i = 45 then tsWord t h
  else 0#32

/-- The item carries a Granary buffer in word 2 toward keeper threads: a plot's completion (R207). -/
def Item.carries (it : Item) : Bool :=
  it.q = 55 && (it.typ = 0x200 || it.typ = 0x201) && it.words.length = 3 && it.word 2 ≠ 0#32

/-- A keeper field thread enters a buffer in its owner list (R523, R524). -/
def State.ownEnter (s : State) (t : Nat) (addr : Word) : State :=
  let a := 0x3E000 + 256 * t
  let n := Mem.unit zeroByte s.mems.data a 4
  if n < 62 then
    let m := Mem.putUnit zeroByte s.mems.data (a + 4 * (n + 1)) 4 addr.toNat
    { s with mems := { s.mems with data := Mem.putUnit zeroByte m a 4 (n + 1) } }
  else s

/-- A keeper field thread removes a buffer from its owner list: the last entry goes into its place, and COUNT is one lower
(R524). -/
def State.ownLeave (s : State) (t : Nat) (addr : Word) : State :=
  let a := 0x3E000 + 256 * t
  let n := min 62 (Mem.unit zeroByte s.mems.data a 4)
  match (List.range n).find? fun i => Mem.unit zeroByte s.mems.data (a + 4 * (i + 1)) 4 = addr.toNat with
  | some i =>
    let m := Mem.putUnit zeroByte s.mems.data (a + 4 * (i + 1)) 4 (Mem.unit zeroByte s.mems.data (a + 4 * n) 4)
    { s with mems := { s.mems with data := Mem.putUnit zeroByte m a 4 (n - 1) } }
  | none => s

/-- A keeper field thread that receives a buffer enters it in its owner list, its first action after dispatch (R523, R524,
R666). -/
def State.enterBuffer (s : State) (t : Nat) (it : Item) : State :=
  if t < 24 && it.carries then s.ownEnter t (it.word 2) else s

/-- The item's words go into g28..g31, 0 beyond its length; a thread that was dispatched with no item has one of zero words
(R492, R612). -/
def Thread.giveWords (h : Thread) (it : Option Item) : Thread :=
  let w := fun i => (it.map fun x => x.word i).getD 0#32
  { h with regs := vset (vset (vset (vset h.regs 28 (w 0)) 29 (w 1)) 30 (w 2)) 31 (w 3) }

/-- The pair starts to run on core `k` (R492, R612, R645); `sb` says that it stood in the standby slot. -/
def State.startPair (s : State) (k : Nat) (p : Pair) (sb : Bool) : State :=
  let first := !(s.th p.tid).resumed && !p.held
  let s := s.modTh p.tid fun h =>
    Thread.giveWords { h with st := .running, lastCore := k, yieldAge := none, resumed := true, took := none
                              snap := (List.range 46).map (h.context p.tid) } p.item
  let s := s.modSow fun w => { w with stamp := w.stamp + 1 }
  let s := s.modCore k fun c =>
    { c with run := some p.tid, standby := if sb then none else c.standby, runStamp := s.sow.stamp
             switches := if s.counting then inc32 c.switches else c.switches
             prefetches := if s.counting && sb then inc32 c.prefetches else c.prefetches }
  let s := if k < 6 then { s with hng := { s.hng with beat := vset s.hng.beat k 0 } } else s
  let s := match p.item with
    | some it =>
      let s := if s.counting && first then s.modQue it.q fun x => { x with dispatch := inc32 x.dispatch } else s
      if first then s.enterBuffer p.tid it else s
    | none => s
  let s := s.trace k 0 p.tid ((p.item.map Item.q).getD 0) ((p.item.map Item.flowField).getD 0)
    (bitNat sb + 2 * bitNat p.held + 4 * p.urg)
  s.finishWait p.tid

/-- Cancel the standby pair of core `k`, recorded against core `at_`; `discard` where a flush discards its item
(R630). -/
def State.unprefetch (s : State) (k at_ cause : Nat) (discard : Bool) : State :=
  match (s.core k).standby with
  | none => s
  | some t =>
    let h := s.th t
    let s := s.trace at_ 2 t ((h.item.map Item.q).getD 0) ((h.item.map Item.flowField).getD 0) cause
    let s := s.modCore k fun c =>
      { c with standby := none, unprefetches := if s.counting then inc32 c.unprefetches else c.unprefetches }
    if h.resumed then s.modTh t fun h => { h with st := .ready }
    else
      let s := s.modTh t fun h => { h with st := .idle, item := none }
      match h.item with
      | some it => if discard then s else (s.modSow fun w => { w with store := insertAge it w.store }).raised it.q
      | none => s

/-- The standby pair of every field core is cancelled. -/
def State.unprefetchAll (s : State) (at_ cause : Nat) : State :=
  (List.range 6).foldl (fun s k => s.unprefetch k at_ cause false) s

/-- A thread's open item is discarded and any claim it holds or waits for is released (R574, R614). -/
def State.dropOpen (s : State) (t : Nat) : State :=
  let s := s.modTh t fun h => { h with openItem := none, wait := none }
  s.modSow fun w => { w with claims := w.claims.filter fun p => p.2 ≠ .thread t }

/-- Core `k` no longer runs a thread, and what that wrote to ports may stand in the core's buffer still (R572); a heartbeat
counter is held at 0 (R64). -/
def State.freeCore (s : State) (k : Nat) : State :=
  let s := s.modCore k fun c =>
    { c with run := none, leftBy := if c.wbuf.isEmpty then [] else c.leftBy ++ c.run.toList }
  if k < 6 then { s with hng := { s.hng with beat := vset s.hng.beat k 0 } } else s

/-! ### Faults -/

/-- Write `v` to register `r` of a register file; g0 discards it (R493). -/
def regPut (regs : Vector Word 32) (r : Nat) (v : Word) : Vector Word 32 := if r = 0 then regs else vset regs r v

/-- Write delayed results that fall due together, given oldest first: the newer ones first, because a result is
written after a result of the same register from its own delay slots (R505). -/
def landDelayed (regs : Vector Word 32) (l : List Delayed) : Vector Word 32 :=
  l.foldr (fun d r => regPut r d.rd d.val) regs

/-- Write every outstanding delayed result, those with fewer slots to run first (R507, R508). -/
def landAll (regs : Vector Word 32) (l : List Delayed) : Vector Word 32 :=
  landDelayed (landDelayed (landDelayed regs (l.filter fun d => d.slots = 0)) (l.filter fun d => d.slots = 1))
    (l.filter fun d => 1 < d.slots)

/-- Keeper firmware's work on an item that thread `t` held ends with its hold. -/
def State.dropHeld (s : State) (t : Nat) : State :=
  { s with bays := { s.bays with work := s.bays.work.filter fun w => w.tid ≠ some t } }

/-- The hold of a faulted thread on its item ends: an item of flow 0x000 is discarded, another is FENCED (R638). The thread's
g28..g31 still name the item. `parked`: a BREAK parks the thread, and keeper firmware's work on the item rests until it goes on
(R696). -/
def State.fence (s : State) (t k : Nat) (parked : Bool) : State :=
  let h := s.th t
  let s := s.modTh t fun h => { h with item := none, yieldAge := none, took := h.item }
  let s := if parked then s else s.dropHeld t
  match h.item with
  | none => s
  | some it =>
    if it.flow = 0 then s
    else (s.modSow fun w => { w with fenced := w.fenced ++ [(it.flow, it, t)] }).trace k 10 t it.q it.flowField 0

/-- The oldest tick item of Q2, which the ledger thread can have been serving (R641). -/
def State.ledgerItem (s : State) : Option Item := s.sow.store.find? fun it => it.q = 2 && it.typ = 0xFF20

/-- The items that keeper field threads which the model does not follow have in service, or, of the ledger's ticks, can have
been dispatched with: a bay's, one of a form, the oldest tick item of Q2. -/
def State.atRisk (s : State) : List Item :=
  ((s.bays.work.filter fun w => w.tid.isNone).map Work.item) ++ s.hnd.opens.filterMap Handle.item ++ s.ledgerItem.toList

/-- Thread `t` holds item `it`, which the model followed as keeper firmware's. -/
def State.holdsItem (s : State) (t : Nat) (it : Item) : State :=
  let s := { s with
    bays := { s.bays with work := s.bays.work.filter fun w => w.tid.isSome || w.item ≠ it }
    hnd := { s.hnd with opens := s.hnd.opens.map fun (h : Handle) => if h.item = some it then { h with item := none } else h } }
  (s.modSow fun w => { w with store := w.store.filter fun x => x ≠ it }).modTh t fun h => { h with item := some it }

/-- A keeper field thread faults while it holds no item that the model follows it with: it was serving an item of keeper
firmware, or none. Which of them it was the spec does not say, so that is free (R265, R268, R638, log 65). -/
def State.caught (s : State) (t : Nat) : State :=
  let l := s.atRisk
  if 24 ≤ t || (s.th t).item.isSome || l.isEmpty then s
  else
    let d := s.draw
    match l[(Config.freeWord d.1).toNat % (l.length + 1)]? with
    | some it => d.2.holdsItem t it
    | none => d.2

/-- The thread leaves core `k` with its last results written (R507, R584). -/
def Thread.settle (h : Thread) : Thread := { h with regs := landAll h.regs h.delayed, delayed := [] }

/-- A core stops under R65 or R529: its standby pair is cancelled, the running thread's item is fenced, and the
thread is FAULTED without a fault item (R639). The thread's outstanding results have been written, since a thread is not
switched out before (R507, R584). -/
def State.stopCore (s : State) (k : Nat) : State :=
  let s := s.unprefetch k k 3 false
  let s := s.modCore k fun c => { c with stopped := true, halting := false }
  match (s.core k).run with
  | none => s
  | some t =>
    let s := (s.modTh t fun h => { h.settle with inter := [] }).caught t
    let s := (s.fence t k false).modTh t fun h => { h with st := .faulted, openItem := none, wait := none, stopping := false }
    s.freeCore k

/-- Post a fault item to queue `q`, or to the spill where the queue is full, or stop core `k` where the spill is
full as well (R529). A spilled item waits for its queue behind every claimant that waits there already (R634). -/
def State.faultItem (s : State) (k q : Nat) (words : List Word) : State :=
  if s.hasRoom q && (s.waiter q).isNone then s.visible q words
  else if s.sow.spill.length < 16 then
    (s.await q .spilled).modSow fun w => { w with spill := w.spill ++ [(q, words)], spilled := satInc 255 w.spilled }
  else (s.stopCore k).modSys fun y => { y with spillStop := putBit y.spillStop k true }

/-- The plot number of TS (R491). -/
def plotOf (t : Nat) : Nat := if 24 ≤ t ∧ t < 120 then (t - 24) / 6 else 0

/-- The thread runs with plot privilege (R491). -/
def isPlot (t : Nat) : Bool := 24 ≤ t && t < 120

/-- A trap of thread `t` on core `k`: outstanding delayed results are written (R508), the open item is discarded
(R574), the thread is FAULTED and its item fenced (R638), and a fault item is posted (R528). `pc` is the address in
the fault item, `save` the one the context keeps. DEDUCED (log 87): the header's tenancy is TS plot, as the fault item table of
R528 says, where R640 has tenancy 0 in every header. -/
def State.trap (s : State) (t k code pc save : Nat) (detail : Word) : State :=
  let s := (s.modTh t fun h => { h.settle with inter := [], pc := save }).caught t
  let h := s.th t
  let s := s.trace k 7 t ((h.item.map Item.q).getD 0) ((h.item.map Item.flowField).getD 0) code
  let s := s.dropOpen t
  let s := (s.fence t k (code = 15)).modTh t fun h => { h with st := .faulted, trap := code, stopping := false }
  let s := s.freeCore k
  let s := if code = 15 then { s with jtag := { s.jtag with breakTid := t } } else s
  s.faultItem k h.faultQ
    [header 3 0 (plotOf t) (0xFE00 + code), wordOf (t + 256 * k), wordOf pc, detail]

end Sys2Proof.Machine
end

