-- ==== Sys2Proof/Machine/Granary.lean ====
section
/-! DEFINITION. The Granary (R649 to R661): pools and bitmaps, TAKE, GIVE, mode, quotas and minima. -/

namespace Sys2Proof.Machine

def State.modGran (s : State) (f : Granary → Granary) : State := { s with gran := f s.gran }

/-- Buffers of pool `p` (R649); the table's sized counts, which pool 0 has in single mode too. -/
def poolBuffers (p : Nat) : Nat :=
  match p with
  | 0 => 4096
  | 1 => 1024
  | 2 => 256
  | 3 => 64
  | _ => 0

/-- Pool `p` is in use in the mode. -/
def poolUsed (sized : Bool) (p : Nat) : Bool := p = 0 || (sized && p < 4)

/-- Buffer size of pool `p`. -/
def poolSize (sized : Bool) (p : Nat) : Nat := if sized then 64 * 4 ^ p else 256

/-- First data address of pool `p`. -/
def poolBase (p : Nat) : Nat := 0x10000000 + 0x40000 * p

/-- Bit `i` of pool `p`'s bitmap: 1 for free (R650). -/
def Granary.bit (g : Granary) (p i : Nat) : Bool :=
  match p with
  | 0 => g.map0.getLsbD i
  | 1 => g.map1.getLsbD i
  | 2 => g.map2.getLsbD i
  | _ => g.map3.getLsbD i

def Granary.setBit (g : Granary) (p i : Nat) (b : Bool) : Granary :=
  match p with
  | 0 => { g with map0 := putBit g.map0 i b }
  | 1 => { g with map1 := putBit g.map1 i b }
  | 2 => { g with map2 := putBit g.map2 i b }
  | _ => { g with map3 := putBit g.map3 i b }

/-- Free count of a pool; 0 for a pool the mode does not use (R650, GRN_FREE). -/
def Granary.free (g : Granary) (p : Nat) : Nat :=
  if poolUsed g.sized p then ((List.range (poolBuffers p)).filter fun i => g.bit p i).length else 0

/-- Every buffer of the mode's pools is free (R651). -/
def Granary.allFree (g : Granary) : Bool :=
  (List.range 4).all fun p => !poolUsed g.sized p || g.free p = poolBuffers p

def Granary.inuseOf (g : Granary) (r p : Nat) : Nat := vget (vget g.inuse r) p
def Granary.quotaOf (g : Granary) (r p : Nat) : Nat := vget (vget g.quota r) p
def Granary.minOf (g : Granary) (r p : Nat) : Nat := vget (vget g.min r) p

/-- Buffers of pool `p` that are owed to keeper units other than `r` (R657). -/
def Granary.owed (g : Granary) (r p : Nat) : Nat :=
  (List.range 32).foldl (fun n j =>
    if 16 ≤ j ∧ j ≠ r ∧ g.inuseOf j p < g.minOf j p then n + (g.minOf j p - g.inuseOf j p) else n) 0

/-- TAKE from the candidate pools in order (R657). -/
def Granary.takeFrom (g : Granary) (r : Nat) : List Nat → Option (Word × Granary)
  | [] => none
  | p :: l =>
    if g.inuseOf r p < g.quotaOf r p && g.owed r p < g.free p then
      match (List.range (poolBuffers p)).find? fun i => g.bit p i with
      | some i =>
        some (wordOf (poolBase p + i * poolSize g.sized p),
          { g.setBit p i false with inuse := vmod g.inuse r fun v => vmod v p (· + 1), takers := (p, i, r) :: g.takers })
      | none => g.takeFrom r l
    else g.takeFrom r l

/-- TAKE by requester `r` with size class `sl` (R657). In single mode classes 2 and 3 return 0 at once and count in
FAILS, as the corner case states. -/
def Granary.take (g : Granary) (r sl : Nat) : Word × Granary :=
  let cand := if g.sized then (List.range 4).filter fun p => sl ≤ p else if 2 ≤ sl then [] else [0]
  match g.takeFrom r cand with
  | some x => x
  | none => (0#32, { g with fails := satInc 65535 g.fails })

/-- The pool and the index of the buffer that an address selects (R661). -/
def Granary.bufferOf (g : Granary) (addr : Word) : Nat × Nat :=
  let a := addr.toNat
  let p := if g.sized then fieldAt a 18 2 else 0
  (p, if g.sized then a % 0x40000 / poolSize true p else fieldAt a 8 12)

/-- GIVE of the buffer that an address selects, under requester `r` (R661). -/
def Granary.give (g : Granary) (r : Nat) (addr : Word) : Granary :=
  let b := g.bufferOf addr
  { g.setBit b.1 b.2 true with inuse := vmod g.inuse r fun v => vmod v b.1 fun n => n - 1
                               takers := g.takers.filter fun x => (x.1, x.2.1) ≠ b }

/-- The requester under which the buffer that an address selects was taken (R664). -/
def Granary.taker (g : Granary) (addr : Word) : Option Nat :=
  (g.takers.find? fun x => (x.1, x.2.1) = g.bufferOf addr).map fun x => x.2.2

/-- A write of GRN_CTL MODE (R651). -/
def Granary.setMode (g : Granary) (sized : Bool) : Granary :=
  if g.allFree then
    { g with sized := sized, map0 := BitVec.allOnes 4096, map1 := BitVec.allOnes 1024, map2 := BitVec.allOnes 256
             map3 := BitVec.allOnes 64, inuse := Vector.replicate 32 (Vector.replicate 4 0), takers := [] }
  else { g with rej := satInc 255 g.rej }

/-- A write of a quota (R655). -/
def Granary.setQuota (g : Granary) (r p v : Nat) : Granary :=
  { g with quota := vmod g.quota r fun q => vset q p (Nat.min v (poolBuffers p)) }

/-- A write of a minimum (R655); requesters 0..15 have none (GRN_RMIN). -/
def Granary.setMin (g : Granary) (r p v : Nat) : Granary :=
  if r < 16 then g
  else
    let sum := (List.range 32).foldl (fun n j => n + (if j = r then v else g.minOf j p)) 0
    if poolBuffers p < sum then { g with rej := satInc 255 g.rej }
    else { g with min := vmod g.min r fun q => vset q p v }

/-- The Granary after field reset (R670). -/
def Granary.cold : Granary := { quota := resetQuotas }

/-- Reserved minima of the keeper units (R653). -/
def keeperMinima : List (Nat × Nat × List Nat) :=
  [(16, 32, [64, 32, 4, 0]), (17, 8, [0, 8, 8, 0]), (18, 8, [16, 8, 0, 0]), (19, 16, [96, 16, 0, 0]),
   (20, 16, [0, 0, 4, 4]), (21, 4, [0, 4, 0, 0])]

end Sys2Proof.Machine
end

