-- ==== Sys2Proof/Machine/Text.lean ====
section
/-! DEFINITION. Text: decimal and hexadecimal numbers, handles, hundredths, and joining. -/

namespace Sys2Proof.Machine

/-- One uppercase hexadecimal digit. -/
def hexDigit (n : Nat) : Char := if n < 10 then Char.ofNat (48 + n) else Char.ofNat (55 + n)

/-- `k` uppercase hexadecimal digits of `n` (R102). -/
def hexText (k n : Nat) : String :=
  String.ofList ((List.range k).map fun i => hexDigit (n / 16 ^ (k - 1 - i) % 16))

/-- Decimal digits of `n`, padded with zeros to `k`. -/
def padText (k n : Nat) : String :=
  String.ofList ((List.range k).map fun i => hexDigit (n / 10 ^ (k - 1 - i) % 10))

def decDigits : Nat → Nat → List Char
  | 0, _ => []
  | f + 1, n => if n < 10 then [hexDigit n] else decDigits f (n / 10) ++ [hexDigit (n % 10)]

/-- A decimal number, without leading zeros. -/
def decText (n : Nat) : String := String.ofList (decDigits 40 n)

/-- A signed decimal number. -/
def intText (n : Int) : String := if n < 0 then "-" ++ decText n.natAbs else decText n.natAbs

/-- A count of 10^-k units with `k` fractional digits. -/
def fracText (k n : Nat) : String := decText (n / 10 ^ k) ++ "." ++ padText k (n % 10 ^ k)

/-- A handle's text (R221). -/
def handleText (kk seq : Nat) : String := "H" ++ hexText 2 kk ++ "." ++ hexText 4 seq

/-- Join with a separator. -/
def joinText (sep : String) : List String → String
  | [] => ""
  | [a] => a
  | a :: l => a ++ sep ++ joinText sep l

/-- Join with spaces, leaving out what is empty. -/
def words (l : List String) : String := joinText " " (l.filter fun a => a ≠ "")

/-- Groups of four hexadecimal digits joined by "-", most significant first. -/
def groupText (groups v : Nat) : String :=
  joinText "-" ((List.range groups).map fun i => hexText 4 (v / 65536 ^ (groups - 1 - i) % 65536))

/-- ASCII codes of a text. -/
def asciiOf (t : String) : List Byte := t.toList.map fun c => BitVec.ofNat 8 c.toNat

/-- A character in capitals. -/
def capOf (c : Char) : Char := if 97 ≤ c.toNat ∧ c.toNat ≤ 122 then Char.ofNat (c.toNat - 32) else c

/-- A text in capitals. -/
def capText (t : String) : String := String.ofList (t.toList.map capOf)

/-- The text of ASCII codes. -/
def textOf (l : List Byte) : String := String.ofList (l.map fun b => Char.ofNat b.toNat)

/-- A value token in units of 10^-k; meaningful where it has at most `k` fractional digits (R118). -/
def scaledOf (v : DecVal) (k : Nat) : Nat := v.whole * 10 ^ k + v.frac * 10 ^ (k - v.digits)

/-- A value token as typed. -/
def valText (v : DecVal) : String :=
  if v.digits = 0 then decText v.whole else decText v.whole ++ "." ++ padText v.digits v.frac

end Sys2Proof.Machine
end

