-- ==== Sys2Proof/Machine/Parse.lean ====
section
/-! DEFINITION. Reading a line: address, tag and command (R111 to R114), tokens and their classes (R117 to R119), and the
forms of the verbs, position by position (R118, R133, R138, R181, R246). -/

namespace Sys2Proof.Machine

/-! ### Characters and tokens (R102, R117) -/

/-- The character's code is in a span. -/
def codeIn (c : Char) (lo hi : Nat) : Bool := lo ≤ c.toNat && c.toNat ≤ hi
def isDec (c : Char) : Bool := codeIn c 0x30 0x39
def isLetter (c : Char) : Bool := codeIn c 0x41 0x5A || codeIn c 0x61 0x7A
def isAlphaNum (c : Char) : Bool := isLetter c || isDec c

/-- The value of a hexadecimal digit in either case (R102). -/
def hexVal (c : Char) : Option Nat :=
  if isDec c then some (c.toNat - 0x30)
  else if codeIn c 0x41 0x46 then some (c.toNat - 55)
  else if codeIn c 0x61 0x66 then some (c.toNat - 87)
  else none

/-- Tokens between runs of spaces; spaces inside a quoted text are kept (R111, R119). None where a DQUOTE is unbalanced. -/
def cutTokens : Bool → List Char → List Char → Option (List (List Char))
  | true, _, [] => none
  | false, cur, [] => some (if cur.isEmpty then [] else [cur.reverse])
  | q, cur, c :: l =>
    if c = '"' then cutTokens (!q) (c :: cur) l
    else if c = ' ' && !q then (cutTokens false [] l).map fun r => if cur.isEmpty then r else cur.reverse :: r
    else cutTokens q (c :: cur) l

/-- The parts of a token between separators. -/
def cutAt (sep : Char) : List Char → List Char → List (List Char)
  | cur, [] => [cur.reverse]
  | cur, c :: l => if c = sep then cur.reverse :: cutAt sep [] l else cutAt sep (c :: cur) l

/-- The parts before and after the first "..". -/
def cutDots : List Char → List Char → Option (List Char × List Char)
  | _, [] => none
  | cur, '.' :: '.' :: l => some (cur.reverse, l)
  | cur, c :: l => cutDots (c :: cur) l

/-- Digits of base 10, of base 16. -/
def decNat (l : List Char) : Option Nat :=
  if !l.isEmpty && l.all isDec then some (l.foldl (fun n c => 10 * n + (c.toNat - 0x30)) 0) else none
def hexNat (l : List Char) : Option Nat :=
  if !l.isEmpty && l.all (fun c => (hexVal c).isSome) then some (l.foldl (fun n c => 16 * n + (hexVal c).getD 0) 0)
  else none

/-! ### Token classes (R117, R118) -/

/-- `number`. -/
def numberTok (l : List Char) : Option Nat :=
  match l with
  | '0' :: x :: h =>
    if x = 'x' || x = 'X' then (if h.length ≤ 8 then hexNat h else none)
    else if l.length ≤ 10 then (decNat l).filter fun n => n < pow32
    else none
  | _ => if l.length ≤ 10 then (decNat l).filter fun n => n < pow32 else none

/-- A number within a bound. -/
def upTo (b : Nat) (l : List Char) : Option Nat := (numberTok l).filter fun n => n ≤ b

/-- `number` or `range`: first and last value. -/
def spanTok (l : List Char) : Option (Nat × Nat) :=
  match cutDots [] l with
  | some (a, b) =>
    match numberTok a, numberTok b with
    | some x, some y => if x ≤ y then some (x, y) else none
    | _, _ => none
  | none => (numberTok l).map fun n => (n, n)

/-- Every element, where each is there. -/
def allSome {α : Type} : List (Option α) → Option (List α)
  | [] => some []
  | none :: _ => none
  | some a :: l => (allSome l).map (a :: ·)

/-- `number`, `range` or `list`: up to 16 spans. -/
def spansTok (l : List Char) : Option (List (Nat × Nat)) :=
  let p := cutAt ',' [] l
  if p.length ≤ 16 then allSome (p.map spanTok) else none

/-- The values that a number, range or list names, each at most `b`, in ascending order and once each (R133). -/
def setTok (b : Nat) (l : List Char) : Option (List Nat) :=
  match spansTok l with
  | some p =>
    if p.all fun x => x.2 ≤ b then some ((List.range (b + 1)).filter fun n => p.any fun x => x.1 ≤ n && n ≤ x.2) else none
  | none => none

def baysTok (l : List Char) : Option (List BayNo) := (setTok 95 l).map fun x => x.map (Fin.ofNat 96)

/-- `value`. -/
def valueTok (l : List Char) : Option DecVal :=
  match cutAt '.' [] l with
  | [w] => if w.length ≤ 6 then (decNat w).map fun n => { whole := n, frac := 0, digits := 0 } else none
  | [w, f] =>
    if w.length ≤ 6 && f.length ≤ 4 then
      match decNat w, decNat f with
      | some n, some d => some { whole := n, frac := d, digits := f.length }
      | _, _ => none
    else none
  | _ => none

/-- Groups of `n` hexadecimal digits joined by "-". -/
def groupsOf (n : Nat) (l : List Char) : Option (List Nat) :=
  allSome ((cutAt '-' [] l).map fun g => if g.length = n then hexNat g else none)

/-- `groups` of four digits, 2 to 8 of them; eight groups of eight digits are sixteen halves. -/
def groupsTok (l : List Char) : Option (List (BitVec 16)) :=
  match groupsOf 4 l with
  | some g => if 2 ≤ g.length && g.length ≤ 8 then some (g.map (BitVec.ofNat 16)) else none
  | none =>
    match groupsOf 8 l with
    | some g => if g.length = 8 then some (g.flatMap fun v => [BitVec.ofNat 16 (v / 65536), BitVec.ofNat 16 v]) else none
    | none => none

/-- A key: eight groups of eight digits, the first most significant (R195). -/
def keyTok (l : List Char) : Option (BitVec 256) :=
  match groupsOf 8 l with
  | some g => if g.length = 8 then some (BitVec.ofNat 256 (g.foldl (fun n v => n * pow32 + v) 0)) else none
  | none => none

/-- `handle`. -/
def handleTok (l : List Char) : Option HRef :=
  match l with
  | h :: l =>
    if (h = 'H' || h = 'h') && l.length = 7 && (l.drop 2).head? = some '.' then
      match hexNat (l.take 2), hexNat (l.drop 3) with
      | some k, some q => some ⟨BitVec.ofNat 8 k, BitVec.ofNat 16 q⟩
      | _, _ => none
    else none
  | [] => none

/-- `tenancy`. -/
def tenTok (l : List Char) : Option Ten :=
  match l with
  | t :: d =>
    if (t = 'T' || t = 't') && d.length ≤ 2 then ((decNat d).filter fun n => n ≤ 15).map (Fin.ofNat 16) else none
  | [] => none

/-- `word`. -/
def wordTok (l : List Char) : Bool :=
  match l with
  | c :: r => isLetter c && r.length ≤ 15 && r.all fun c => isAlphaNum c || c = '-'
  | [] => false

/-- `text`: what stands between the quotes. -/
def textTok (l : List Char) : Option String :=
  match l with
  | '"' :: r =>
    let body := r.dropLast
    if r.getLast? = some '"' && body.length ≤ 64 && body.all (· ≠ '"') then some (String.ofList body) else none
  | _ => none

/-- Some class of `argument`. -/
def argTok (l : List Char) : Bool :=
  (spansTok l).isSome || (valueTok l).isSome || (groupsTok l).isSome || (handleTok l).isSome || (tenTok l).isSome
    || wordTok l || (textTok l).isSome

/-- `verb`. -/
def verbTok (l : List Char) : Bool :=
  match l with
  | c :: r => isLetter c && r.length ≤ 11 && r.all isAlphaNum
  | [] => false

/-- A token in capitals, as keywords are compared (R102). -/
def capTok (l : List Char) : String := String.ofList (l.map capOf)

/-! ### The verbs' forms (R138, R181, R246) -/

def colourTok (t : String) : Option Colour :=
  if t = "GREEN" then some .green else if t = "AMBER" then some .amber else if t = "BLUE" then some .blue else none

def patternTok (t : String) : Option Pattern :=
  if t = "OFF" then some .off else if t = "STEADY" then some .steady else if t = "BLINK1" then some .blink1
  else if t = "BLINK4" then some .blink4 else if t = "BREATHE" then some .breathe else none

def viewTok (t : String) : Option View :=
  if t = "STATE" then some .state else if t = "POWER" then some .power else if t = "TIME" then some .time
  else if t = "RING" then some .ring else if t = "AUTO" then some .auto else none

def envTok (t : String) : Option EnvWord :=
  if t = "MAIN" then some .main else if t = "AUX" then some .aux else if t = "MARGIN" then some .margin
  else if t = "SHED" then some .shed else if t = "GUARD" then some .guard else none

def bayTok (l : List Char) : Option BayNo := (upTo 95 l).map (Fin.ofNat 96)

/-- A form with two keywords ON and OFF. -/
def onOffForm (t : String) (on off : Instr) : Option Instr :=
  if t = "ON" then some on else if t = "OFF" then some off else none

/-- BAY: `w` are the arguments in capitals, `a` as typed. -/
def readBay (q : Src) (a : List (List Char)) (w : List String) : Option Instr :=
  match a, w with
  | [b, _], [_, v] =>
    if v = "ON" then (baysTok b).map (.bayOn q)
    else if v = "OFF" then (baysTok b).map (.bayOff q)
    else if v = "INFO" then (baysTok b).map (.bayInfo q)
    else if v = "UNLOCK" then (bayTok b).map fun n => .bayUnlock q n false false
    else none
  | [b, _, _], [_, v, x] =>
    if v = "LOCATE" then (bayTok b).bind fun n => onOffForm x (.bayLocateOn q n) (.bayLocateOff q n) else none
  | _, _ => none

def readProfile (q : Src) (a : List (List Char)) (w : List String) : Option Instr :=
  match a, w with
  | [b], _ => (bayTok b).map (.profile q)
  | [b, _], [_, v] => if v = "FORGET" then (baysTok b).map (.profileForget q) else none
  | _, _ => none

def readEnvelope (q : Src) (a : List (List Char)) (w : List String) : Option Instr :=
  match a, w with
  | [], _ => some (.envelope q)
  | [_, _, v], [s, x, _] =>
    if s = "SET" then (envTok x).bind fun e => (valueTok v).map fun d => .envelopeSet q e d else none
  | _, _ => none

def readScan (q : Src) (a : List (List Char)) (w : List String) : Option Instr :=
  match a, w with
  | [], _ => some (.scan q)
  | [_, r], [v, _] => if v = "ROW" then (upTo 15 r).map fun n => .scanRow q (Fin.ofNat 16 n) else none
  | _, _ => none

def readKeys (q : Src) (a : List (List Char)) (w : List String) : Option Instr :=
  match a, w with
  | [b], [v] =>
    if v = "PANEL" then some (.keysPanel q) else if v = "GENERAL" then some (.keysGeneral q)
    else (baysTok b).map (.keys q)
  | _, _ => none

def readTag (q : Src) (a : List (List Char)) (w : List String) : Option Instr :=
  match a, w with
  | [b, _], [_, v] => if v = "AUTO" then (baysTok b).map (.tagAuto q) else none
  | [b, _, _], [_, c, p] =>
    (baysTok b).bind fun l => (colourTok c).bind fun c => (patternTok p).map fun p => .tag q l c p
  | _, _ => none

def readFace (q : Src) (a : List (List Char)) (w : List String) : Option Instr :=
  match a, w with
  | [], _ => some (.face q)
  | [_, x], [v, y] =>
    if v = "VIEW" then (viewTok y).map (.faceView q)
    else if v = "TEXT" then (if y = "OFF" then some (.faceTextOff q) else (textTok x).map (.faceText q))
    else none
  | _, _ => none

def fansTok (l : List Char) : Option (List (Fin 8)) := (setTok 7 l).map fun x => x.map (Fin.ofNat 8)

def readFan (q : Src) (a : List (List Char)) (w : List String) : Option Instr :=
  match a, w with
  | [], _ => some (.fan q)
  | [f, _], [_, v] => if v = "AUTO" then (fansTok f).map (.fanAuto q) else none
  | [f, _, p], [_, v, _] =>
    if v = "DUTY" then (fansTok f).bind fun l => (upTo 100 p).map fun n => .fanDuty q l (Fin.ofNat 101 n) else none
  | _, _ => none

def readLineVerb (q : Src) (a : List (List Char)) (w : List String) : Option Instr :=
  match a, w with
  | [], _ => some (.line q)
  | [_, b], [v, x] =>
    if v = "BAUD" then (numberTok b).map (.lineBaud q)
    else if v = "XON" then onOffForm x (.lineXonOn q) (.lineXonOff q)
    else none
  | _, _ => none

def readTen (q : Src) (a : List (List Char)) (f : Src → Ten → Instr) : Option Instr :=
  match a with
  | [t] => (tenTok t).map (f q)
  | _ => none

def readKey (q : Src) (a : List (List Char)) (w : List String) : Option Instr :=
  match a, w with
  | [t], _ => (tenTok t).map (.key q)
  | [t, _], [_, v] => if v = "CLEAR" then (tenTok t).map (.keyClear q) else none
  | [t, _, g], [_, v, _] => if v = "SET" then (tenTok t).bind fun t => (keyTok g).map (.keySet q t) else none
  | _, _ => none

def readTenancy (q : Src) (a : List (List Char)) (w : List String) : Option Instr :=
  match a, w with
  | [t], _ => (tenTok t).map (.tenancy q)
  | [t, _, x], [z, v, _] =>
    if z = "WEIGHT" then (numberTok (a.getD 1 [])).bind fun g => (numberTok x).map (.tenancyWeight q g)
    else (tenTok t).bind fun t =>
      if v = "GROUP" then (numberTok x).map (.tenancyGroup q t)
      else if v = "SHARE" then (valueTok x).map (.tenancyShare q t)
      else if v = "ALLOT" then (valueTok x).map (.tenancyAllot q t)
      else none
  | _, _ => none

def readAssign (q : Src) (a : List (List Char)) (w : List String) : Option Instr :=
  match a, w with
  | [b, t], [_, v] =>
    (baysTok b).bind fun l => if v = "NONE" then some (.assignNone q l) else (tenTok t).map (.assign q l)
  | _, _ => none

def readQuota (q : Src) (a : List (List Char)) (w : List String) : Option Instr :=
  match a, w with
  | [t], _ => (tenTok t).map (.quota q)
  | [t, _, p, k], [_, v, _, _] =>
    if v = "POOL" then
      (tenTok t).bind fun t => (numberTok p).bind fun p => (numberTok k).map (.quotaPool q t p)
    else none
  | _, _ => none

def readLedger (q : Src) (a : List (List Char)) (w : List String) : Option Instr :=
  match a, w with
  | [t], _ => (tenTok t).map (.ledger q)
  | [t, _], [_, v] =>
    (tenTok t).bind fun t =>
      if v = "GAPS" then some (.ledgerGaps q t) else if v = "EPOCH" then some (.ledgerEpoch q t) else none
  | _, _ => none

def readTime (q : Src) (a : List (List Char)) (w : List String) : Option Instr :=
  match a, w with
  | [], _ => some (.time q)
  | [_, n], [v, _] => if v = "SET" then (numberTok n).map fun n => .timeSet q (BitVec.ofNat 32 n) else none
  | _, _ => none

def readPlot (q : Src) (a : List (List Char)) (w : List String) : Option Instr :=
  match a, w with
  | [], _ => some (.plot q)
  | [t], _ => (tenTok t).map (.plotTenancy q)
  | [t, _], [_, v] => if v = "UNLOAD" then (tenTok t).map (.plotUnload q) else none
  | [t, _, n], [_, v, _] => if v = "LOAD" then (tenTok t).bind fun t => (numberTok n).map (.plotLoad q t) else none
  | _, _ => none

def readRing (q : Src) (w : List String) : Option Instr :=
  match w with
  | [] => some (.ring q)
  | [v] => if v = "ENUM" then some (.ringEnum q) else none
  | [v, x] => if v = "TERM" then onOffForm x (.ringTermOn q) (.ringTermOff q) else none
  | _ => none

def coresTok (l : List Char) : Option (List CoreId) := (setTok 6 l).map fun x => x.map (Fin.ofNat 7)

def readTrace (q : Src) (a : List (List Char)) (w : List String) : Option Instr :=
  match a, w with
  | [], _ => some (.trace q)
  | [_], [v] => if v = "CLEAR" then some (.traceClear q) else none
  | [c, n], [v, x] =>
    if v = "MODE" then (if x = "STOP" then some (.traceModeStop q) else if x = "WRAP" then some (.traceModeWrap q) else none)
    else if v = "DUMP" then (numberTok n).map (.traceDump q)
    else (coresTok c).bind fun l => onOffForm x (.traceCoresOn q l) (.traceCoresOff q l)
  | _, _ => none

def readStats (q : Src) (a : List (List Char)) (w : List String) : Option Instr :=
  match a, w with
  | [_], [v] => if v = "CLEAR" then some (.statsClear q) else none
  | [_, n], [v, _] =>
    if v = "Q" then (upTo 63 n).map fun n => .statsQ q (Fin.ofNat 64 n)
    else if v = "CORE" then (upTo 6 n).map fun n => .statsCore q (Fin.ofNat 7 n)
    else none
  | _, _ => none

def readGranary (q : Src) (a : List (List Char)) (w : List String) : Option Instr :=
  match a, w with
  | [], _ => some (.granary q)
  | [_, n], [v, x] =>
    if v = "USE" then (upTo 31 n).map fun n => .granaryUse q (Fin.ofNat 32 n)
    else if v = "MODE" then
      (if x = "SINGLE" then some (.granaryModeSingle q) else if x = "SIZED" then some (.granaryModeSized q) else none)
    else none
  | _, _ => none

def readHandle (a : List (List Char)) (f : HRef → Instr) : Option Instr :=
  match a with
  | [h] => (handleTok h).map f
  | _ => none

/-- A verb without arguments. -/
def bare (a : List (List Char)) (i : Instr) : Option Instr := if a.isEmpty then some i else none

/-- A form of one optional keyword. -/
def one (w : List String) (v : String) (i : Instr) : Option Instr := if w = [v] then some i else none

/-- The shelf verbs (R138). -/
def readShelf (q : Src) (v : String) (a : List (List Char)) (w : List String) : Option Instr :=
  if v = "STATE" then bare a (.state q)
  else if v = "WAKE" then bare a (.wake q)
  else if v = "REST" then bare a (.rest q)
  else if v = "BAY" then readBay q a w
  else if v = "ENVELOPE" then readEnvelope q a w
  else if v = "PROFILE" then readProfile q a w
  else if v = "SCAN" then readScan q a w
  else if v = "KEYS" then readKeys q a w
  else if v = "TAG" then readTag q a w
  else if v = "FACE" then readFace q a w
  else if v = "FAN" then readFan q a w
  else if v = "TEMP" then bare a (.temp q)
  else none

/-- The account, plot and service verbs (R181), and those of handles (R246). -/
def readAccount (q : Src) (v : String) (a : List (List Char)) (w : List String) : Option Instr :=
  if v = "LINE" then readLineVerb q a w
  else if v = "ECHO" then
    (match w with
    | [] => some (.echo q)
    | [x] => onOffForm x (.echoOn q) (.echoOff q)
    | _ => none)
  else if v = "WHO" then (if a.isEmpty then some (.who q) else one w "ALL" (.whoAll q))
  else if v = "OPEN" then readTen q a .openT
  else if v = "PROVE" then
    (match a with
    | [g] => (groupsTok g).map (.prove q)
    | _ => none)
  else if v = "CLOSE" then bare a (.close q)
  else if v = "KEY" then readKey q a w
  else if v = "TENANCY" then readTenancy q a w
  else if v = "ASSIGN" then readAssign q a w
  else if v = "QUOTA" then readQuota q a w
  else if v = "LEDGER" then readLedger q a w
  else if v = "TIME" then readTime q a w
  else if v = "PLOT" then readPlot q a w
  else none

def readService (q : Src) (v : String) (a : List (List Char)) (w : List String) : Option Instr :=
  if v = "RING" then readRing q w
  else if v = "TRACE" then readTrace q a w
  else if v = "STATS" then readStats q a w
  else if v = "GRANARY" then readGranary q a w
  else if v = "FURROW" then bare a (.furrow q)
  else if v = "SEEDBANK" then bare a (.seedbank q)
  else if v = "SELFTEST" then bare a (.selftest q)
  else if v = "RESET" then one w "FIELD" (.resetField q)
  else if v = "HANDLE" then readHandle a (.handle q)
  else if v = "HANDLES" then (if a.isEmpty then some (.handles q) else one w "ORPHAN" (.handlesOrphan q))
  else if v = "CANCEL" then readHandle a (.cancel q)
  else none

/-- What stands after a command's verb and the space that follows it, as typed (R205, R206). -/
def afterVerb (l : List Char) : String := String.ofList ((l.dropWhile (· ≠ ' ')).drop 1)

/-- A command: verb and arguments; `l` is the command as typed, without the spaces around it. -/
def readCommand (q : Src) (l : List Char) (toks : List (List Char)) : Option Instr :=
  match toks with
  | v :: a =>
    if !verbTok v || !a.all argTok then none
    else
      let n := capTok v
      let w := a.map capTok
      if n.toList.head? = some 'X' then some (.xVerb q n (afterVerb l))
      else (readShelf q n a w).or ((readAccount q n a w).or (readService q n a w))
  | [] => none

/-! ### Lines (R111 to R114) -/

/-- Without the spaces in front, and at the end. -/
def trimLeft (l : List Char) : List Char := l.dropWhile (· = ' ')
def trimEnd (l : List Char) : List Char := (trimLeft l.reverse).reverse

/-- A line as read. -/
inductive Typed where
  | command (i : Instr)
  | addressed (n : Nat) (text : String)
  | broadcast (text : String)
  deriving DecidableEq, Repr, Inhabited

/-- The text of a line with an address. -/
def Typed.text : Typed → Option String
  | .command _ => none
  | .addressed _ t => some t
  | .broadcast t => some t

/-- `tag` without its "#". -/
def tagTok (l : List Char) : Option String :=
  match l with
  | '#' :: r => if 1 ≤ r.length && r.length ≤ 8 && r.all isAlphaNum then some (String.ofList r) else none
  | _ => none

/-- The first word of a line, and the rest without the spaces between. -/
def firstWord (l : List Char) : List Char × List Char :=
  (l.takeWhile (· ≠ ' '), trimLeft (l.dropWhile (· ≠ ' ')))

/-- A line of session `k` without an address: its tag, `-` where there is none (R116), and the rest. -/
def readTagged (l : List Char) : Option (String × List Char) :=
  match l with
  | '#' :: _ => (tagTok (firstWord l).1).map fun t => (t, (firstWord l).2)
  | _ => some ("-", l)

/-- A line without an address (R111). -/
def readPlain (k : Fin 16) (l : List Char) : Option Instr :=
  (readTagged l).bind fun p => (cutTokens false [] p.2).bind fun toks => readCommand { ses := k, tag := p.1 } p.2 toks

/-- The line without its address is in the grammar of R117, whatever its verb. -/
def inGrammar (l : List Char) : Bool :=
  match readTagged l with
  | some p =>
    match cutTokens false [] p.2 with
    | some (v :: a) => verbTok v && a.all argTok
    | _ => false
  | none => false

/-- The number of an address: `n` of `@n` (R111). -/
def addressNo (w : List Char) : Option Nat := if w.length ≤ 3 then (decNat w).filter fun n => n ≤ 255 else none

/-- The line without its address, where it carries one (R111). -/
def unaddressed (l : List Char) : List Char :=
  match l with
  | '@' :: r => if (firstWord r).1 = ['*'] || (addressNo (firstWord r).1).isSome then (firstWord r).2 else l
  | _ => l

/-- The line, with or without an address, matches the grammar of R117 and its verb is PROVE (R126, R188). -/
def provesLine (t : String) : Bool :=
  let l := unaddressed (trimEnd (trimLeft t.toList))
  inGrammar l && (match (readTagged l).bind fun p => cutTokens false [] p.2 with
    | some (v :: _) => capTok v = "PROVE"
    | _ => false)

/-- A completed line of session `k` (R111, R117, R118); none where it is malformed. A ring line that carries an address is
a host error (R112). DESIGN CHOICE (log 89): the text that goes onto the ring ends with the line's last character that is no
space; R113 takes away only the address and the spaces that follow it. DESIGN CHOICE (log 109): a line with an address is held
to the ABNF of R117 here, and one that fails it is a host error of session 0; its verb, and the form of its arguments (R118), are
left to the keeper that runs it, since R113, R126 and R127 do not say where they are checked. -/
def readLine (k : Fin 16) (t : String) : Option Typed :=
  let l := trimEnd (trimLeft t.toList)
  match l with
  | '@' :: r =>
    let w := firstWord r
    if k.val ≠ 0 || !inGrammar w.2 then none
    else if w.1 = ['*'] then some (.broadcast (String.ofList w.2))
    else (addressNo w.1).map fun n => .addressed n (String.ofList w.2)
  | _ => (readPlain k l).map .command

/-- The bays, fans and cores of a command in ascending order and once each, and without the outcomes that the command
carries beside its line: the command as `readLine` gives it. -/
def canonical (i : Instr) : Instr :=
  let bays : List BayNo → List BayNo := fun l => (List.finRange 96).filter fun n => l.contains n
  match i with
  | .bayOn q l => .bayOn q (bays l)
  | .bayOff q l => .bayOff q (bays l)
  | .bayInfo q l => .bayInfo q (bays l)
  | .bayUnlock q n _ _ => .bayUnlock q n false false
  | .profileForget q l => .profileForget q (bays l)
  | .keys q l => .keys q (bays l)
  | .tag q l c p => .tag q (bays l) c p
  | .tagAuto q l => .tagAuto q (bays l)
  | .assign q l t => .assign q (bays l) t
  | .assignNone q l => .assignNone q (bays l)
  | .fanDuty q l p => .fanDuty q ((List.finRange 8).filter fun n => l.contains n) p
  | .fanAuto q l => .fanAuto q ((List.finRange 8).filter fun n => l.contains n)
  | .traceCoresOn q l => .traceCoresOn q ((List.finRange 7).filter fun n => l.contains n)
  | .traceCoresOff q l => .traceCoresOff q ((List.finRange 7).filter fun n => l.contains n)
  | .xVerb q n t => .xVerb q (capText n) t
  | i => i

end Sys2Proof.Machine
end

