-- ==== Sys2Proof/Machine/Output.lean ====
section
/-! DEFINITION. Output lines: the console's output queue (R125), the ring's insertion queue (R310), notices (R74),
sessions, and running one line of a session (R121, R122, R126). -/

namespace Sys2Proof.Machine

def State.modCon (s : State) (f : Console → Console) : State := { s with con := f s.con }
def State.modRing (s : State) (f : Ring → Ring) : State := { s with ring := f s.ring }
def State.sesAt (s : State) (k : Nat) : Session := vget s.ses k
def State.modSes (s : State) (k : Nat) (f : Session → Session) : State := { s with ses := vmod s.ses k f }

/-- A function has announced itself and is up (R73). -/
def State.isUp (s : State) (f : Fn) : Bool := s.up.contains f

/-- Characters that an entry of the output queue takes: a line has its CR LF. -/
def Out.size : Out → Nat
  | .line t => t.length + 2
  | .echo t => t.length
  | .rate t _ => t.length + 2

/-- Characters of output lines among entries. -/
def lineChars : List Out → Nat
  | [] => 0
  | .line t :: l => t.length + 2 + lineChars l
  | .rate t _ :: l => t.length + 2 + lineChars l
  | .echo _ :: l => lineChars l

/-- Characters of output lines that the queue holds and has not sent (R125); echo is sent between lines and takes no room
(R105). -/
def Console.used (c : Console) : Nat :=
  match c.outq with
  | .line t :: l => t.length + 2 - c.outSent + lineChars l
  | .rate t _ :: l => t.length + 2 - c.outSent + lineChars l
  | l => lineChars l

/-- The queue can take a whole line of `n` characters with its CR LF (R125). -/
def Console.fits (c : Console) (n : Nat) : Bool := c.used + n ≤ 4096

/-- The queue can take a whole line (R125). -/
def Console.takes (c : Console) (t : String) : Bool := c.fits (t.length + 2)

/-- A `^` or `*` line, or a line of another keeper, finds room: it does not pass the lines that are held (R124, R125). -/
def Console.free (c : Console) (t : String) : Bool := c.held.isEmpty && c.takes t

/-- Queue a line; with echo on and a line half typed, the line stands between CR LF and the characters again (R106). -/
def State.pushOut (s : State) (o : Out) : State :=
  if (s.sesAt 0).echo && s.con.buf ≠ "" then
    s.modCon fun c => { c with outq := c.outq ++ [.echo "\r\n", o, .echo c.buf] }
  else s.modCon fun c => { c with outq := c.outq ++ [o] }

def State.pushLine (s : State) (t : String) : State := s.pushOut (.line t)

/-- Echo characters to the console while echo is on (R99, R105). -/
def State.echo (s : State) (t : String) : State :=
  if (s.sesAt 0).echo && t ≠ "" then s.modCon fun c => { c with outq := c.outq ++ [.echo t] } else s

/-- Symbols of a frame (R298). -/
def Frame.size : Frame → Nat
  | .sol _ _ _ _ t => t.length + 5
  | .sob _ _ _ _ t => t.length + 5
  | .sor _ _ _ _ t => t.length + 5
  | .enum _ _ _ => 5
  | .brk _ _ _ => 5
  | .join => 2
  | .raw l => l.length

/-- Symbols that the insertion queue holds (R310). -/
def Ring.insUsed (r : Ring) : Nat := r.insq.foldl (fun n f => n + f.size) 0 + r.build.length

/-- The insertion queue takes the whole frame (R310). -/
def Ring.takes (r : Ring) (f : Frame) : Bool := r.insUsed + f.size ≤ 2048

/-- The session that produces a frame: that of a reply line by its pair; the console's of the others. -/
def Frame.session : Frame → Option (Nat × Nat)
  | .sor _ d _ b _ => some (d, b)
  | _ => none

/-- The frame is queued now: it has room, and no frame of the session that produces it waits before it (R310). DEDUCED (log
88): lines of other sessions that wait for room do not hold it up, since R310 gives the order of R124 to the lines as they enter
the queue. -/
def Ring.free (r : Ring) (f : Frame) : Bool := r.takes f && !r.wait.any fun w => w.frame.session = f.session

/-- Queue a frame of a session, or let it wait, behind those of its session that wait (R310); `done` names the handle whose
completion it carries. DESIGN CHOICE (log 88): a console line for the ring (SOL, SOB) that finds no room waits like a session's,
while the console session goes on (R113); R310 names only notices and `=`, `~` and `!` lines. -/
def State.pushFrame (s : State) (f : Frame) (done : Option (Nat × Nat)) : State :=
  s.modRing fun r =>
    if r.free f then { r with insq := r.insq ++ [f] } else { r with wait := r.wait ++ [{ frame := f, done := done }] }

/-- The number under which the answers still due to a session that has ended are kept: it tells its pair (R108, R121). -/
def endedNo (src byte : Nat) : Nat := 16 + 256 * src + byte

/-- The source keeper and the session byte of session `k`, or of an ended one. -/
def State.pairOf (s : State) (k : Nat) : Nat × Nat :=
  if k < 16 then ((s.sesAt k).src, (s.sesAt k).byte) else ((k - 16) / 256, (k - 16) % 256)

/-- A reply line of ring session `k` (R300). -/
def State.replyFrame (s : State) (k : Nat) (t : String) : Frame :=
  .sor (s.sys.head) (s.pairOf k).1 (s.ring.number.getD 0) (s.pairOf k).2 t

/-- A line of session `k` is queued now, not held (R125, R310). -/
def State.queuesNow (s : State) (k : Nat) (t : String) : Bool :=
  if k = 0 then s.con.free t else s.ring.free (s.replyFrame k t)

/-- Queue a line for the console, or hold it until room appears (R125). -/
def State.pushHeld (s : State) (o : Out) (done : Option (Nat × Nat)) : State :=
  if s.con.held.isEmpty && s.con.fits o.size then s.pushOut o
  else s.modCon fun c => { c with held := c.held ++ [{ out := o, done := done }] }

/-- Send an `=`, `~` or `!` line to session `k` (R120, R124, R125); `done` names the handle whose completion it is. -/
def State.emitFor (s : State) (k : Nat) (t : String) (done : Option (Nat × Nat)) : State :=
  if k = 0 then s.pushHeld (.line t) done else s.pushFrame (s.replyFrame k t) done

def State.emit (s : State) (k : Nat) (t : String) : State := s.emitFor k t none

/-- A `^` or `*` line also goes to the head, once this keeper has announced RING and holds a number (R74, R303). It is
dropped where it finds no room (R310). -/
def State.toHead (s : State) (t : String) : State :=
  if s.isUp .ring && !s.sys.head then
    match s.ring.number with
    | some n =>
      let f := Frame.sor false 0 n 0 t
      if s.ring.takes f then
        s.modRing fun r => { r with insq := r.insq ++ [f] }
      else s.modRing fun r => { r with notices := satInc 65535 r.notices }
    | none => s
  else s

/-- Print a `^` or `*` line (R74, R120, R125). -/
def State.notice (s : State) (t : String) : State :=
  let s := if s.con.free t then s.pushLine t
    else s.modCon fun c => { c with lost := (c.lost + 1) % pow32, lostSince := c.lostSince + 1 }
  s.toHead t

/-- Announce a function (R73): its notice, then its use. -/
def State.announce (s : State) (f : Fn) (t : String) : State :=
  let s := s.notice ("^READY " ++ t)
  { s with up := s.up ++ [f] }

/-- A function's DOWN notice (R75). -/
def State.isDown (s : State) (f : Fn) (t : String) : State :=
  let s := s.notice ("^DOWN " ++ t)
  { s with down := s.down ++ [f] }

/-- Names of functions as notices give them (R76). -/
def Fn.name : Fn → String
  | .line => "LINE"
  | .face => "FACE"
  | .seedbank => "SEEDBANK"
  | .furrow => "FURROW"
  | .calendar => "CALENDAR"
  | .ring => "RING"
  | .replay => "REPLAY"
  | .keys => "KEYS"
  | .field => "FIELD"
  | .sower => "SOWER"
  | .granary => "GRANARY"
  | .baysRow r => "BAYS ROW " ++ decText r
  | .envelope => "ENVELOPE"
  | .ledger => "LEDGER"
  | .tenancy => "TENANCY"
  | .plot p => "PLOT " ++ decText p

/-! ### Running a line of a session -/

/-- The result line of a line (R116, R120). -/
def State.reply (s : State) (q : Src) (t : String) : State :=
  s.emit q.ses.val ("=" ++ q.tag ++ " " ++ t)

/-- A line of a multi-line result other than the last. -/
def State.more (s : State) (q : Src) (t : String) : State :=
  s.emit q.ses.val ("~" ++ q.tag ++ " " ++ t)

/-- Several such lines. -/
def State.mores (s : State) (q : Src) (l : List String) : State := l.foldl (fun s t => s.more q t) s

/-- The result of LINE BAUD, after whose last character the console's rate changes to the one just set (R94, R184). -/
def State.replyRate (s : State) (q : Src) (t : String) : State :=
  if q.ses.val = 0 then s.pushHeld (.rate ("=" ++ q.tag ++ " " ++ t) s.con.baud) none else s.reply q t

/-- The answer BUSY (R129). -/
def State.busy (s : State) (q : Src) : State := s.reply q "BUSY"

/-- A host error: the session's ignored count rises, saturating, and nothing else happens (R126, R127). -/
def State.ignore (s : State) (k : Nat) : State :=
  s.modSes k fun x => { x with ignored := satInc max32 x.ignored }

/-- The tag of a handle that the front panel opened: it is announced, not answered (R475). -/
def panelTag : String := "^PANEL REST"

/-- A line of session `k` has not had its `=` line yet: a setting that is being stored, a handle whose ACCEPTED record is
not durable, or an UNLOCK whose lock record is being written (R122, R224, R360, R428). -/
def State.answerDue (s : State) (k : Nat) : Bool :=
  (s.sdb.jobs.any fun j => j.reply.any fun r => r.1 = k)
    || (s.hnd.opens.any fun h => !h.accepted && !h.ended && h.ses = k && h.tag ≠ panelTag)
    || s.bays.unlocking.any fun u => u.2.1 = k

/-- Text of an entry of the output queue. -/
def Out.text : Out → String
  | .line t => t
  | .echo t => t
  | .rate t _ => t

/-- The line is one of another keeper, which it prefixes with `@` (R124): no session of this keeper produced it. -/
def Out.foreign (o : Out) : Bool := o.text.toList.head? = some '@'

/-- A line that session `k`, or an ended one, produced is held for room (R125, R310). -/
def State.linesHeld (s : State) (k : Nat) : Bool :=
  if k = 0 then s.con.held.any fun h => !h.out.foreign else s.ring.wait.any fun w => w.frame.session = some (s.pairOf k)

/-- The result line of session `k`'s last line is held for room: no other result of it is, since the session runs no line
meanwhile (R122). -/
def State.answerHeld (s : State) (k : Nat) : Bool :=
  if k = 0 then s.con.held.any fun h => h.out.text.toList.head? = some '='
  else s.ring.wait.any fun w => match w.frame with
    | .sor _ d _ b t => s.pairOf k = (d, b) && t.toList.head? = some '='
    | _ => false

/-- Session `k` waits: its last line is not answered, or a line that it produced is held for room (R122, R125, R310). -/
def State.sessionWaits (s : State) (k : Nat) : Bool := s.answerDue k || s.linesHeld k

/-- Session `k` is open and can run a line (R107, R108, R122). -/
def State.canRun (s : State) (k : Nat) : Bool :=
  s.isUp .line && (s.sesAt k).isOpen && !s.sessionWaits k

/-- Remove the first ring line of session `k`, giving its text. -/
def takeRingLine (k : Nat) : List RingLine → Option String × List RingLine
  | [] => (none, [])
  | p :: l => if p.1 = k then (some p.2, l) else
    let r := takeRingLine k l
    (r.1, p :: r.2)

/-! ### The console's line editor -/

/-- Only spaces (R101). -/
def blankText (t : String) : Bool := t.toList.all fun c => c = ' '

/-- The line ends (R99, R100, R101). -/
def State.endLine (s : State) : State :=
  let s := s.echo "\r\n"
  s.modCon fun c =>
    if blankText c.buf && !c.overlong then { c with buf := "" }
    else { c with lines := c.lines ++ [c.buf], longLine := c.overlong, buf := "", overlong := false }

/-- LC takes one received character (R99, R100). -/
def State.editChar (s : State) (b : Byte) : State :=
  let n := b.toNat
  let afterCr := s.con.lastCr
  let s := s.modCon fun c => { c with lastCr := n = 13 }
  if (32 ≤ n ∧ n ≤ 126) ∨ n = 9 then
    if s.con.overlong then s
    else
      let t := if n = 9 then " " else textOf [b]
      let s := s.echo t
      s.modCon fun c => { c with buf := c.buf ++ t, overlong := 201 ≤ c.buf.length + 1 }
  else if n = 8 ∨ n = 127 then
    if s.con.overlong || s.con.buf = "" then s
    else
      let s := s.modCon fun c => { c with buf := String.ofList c.buf.toList.dropLast }
      s.echo (textOf [8#8, 32#8, 8#8])
  else if n = 24 ∨ n = 21 then (s.modCon fun c => { c with buf := "", overlong := false }).echo "\r\n"
  else if n = 13 then s.endLine
  else if n = 10 then (if afterCr then s else s.endLine)
  else s

/-- A flow character is sent, or, while CONS_CTS is high, waits until it falls, in place of one that waits (R96, R97). -/
def Console.flowChar (c : Console) (b : Byte) : Console :=
  if !c.xon then c else if c.cts then { c with flowDue := some b } else { c with flowOut := b :: c.flowOut }

/-- RTS and flow characters at the two fill points (R96). -/
def State.flowPoints (s : State) : State :=
  let n := s.con.rx.length
  if 448 ≤ n && !s.con.rts then s.modCon fun c => { c with rts := true, xoffSent := c.xon }.flowChar 0x13#8
  else if n ≤ 128 && s.con.rts then s.modCon fun c => { c with rts := false, xoffSent := false }.flowChar 0x11#8
  else s

/-- LC reads the input store while no completed line waits (R122). DESIGN CHOICE (log 89): R122 does not say how many completed
lines LC holds outside the 512-character store; the model holds one, and leaves the characters behind it in the store. -/
def State.pump : Nat → State → State
  | 0, s => s
  | n + 1, s =>
    if !s.con.lines.isEmpty then s
    else if s.con.marks.contains 0 then
      State.pump n (s.modCon fun c => { c with marks := c.marks.filter fun m => m ≠ 0, overlong := true })
    else match s.con.rx with
      | [] => s
      | b :: l =>
        State.pump n ((s.modCon fun c => { c with rx := l, marks := c.marks.map fun m => m - 1 }).editChar b).flowPoints

/-- Steps that suffice to read the whole store. -/
def Console.work (c : Console) : Nat := 2 * (c.rx.length + c.marks.length) + 1

/-- The console goes on with the characters that wait, once its line has run (R122). -/
def State.afterLine (s : State) (k : Nat) : State := if k = 0 then s.pump s.con.work else s

/-- The next line of session `k`, taken to be run. -/
def State.nextLine (s : State) (k : Nat) : Option String × State :=
  if k = 0 then (s.con.lines.head?, s.modCon fun c => { c with lines := c.lines.drop 1, longLine := false })
  else
    let r := takeRingLine k s.ring.linesIn
    (r.1, s.modRing fun x => { x with linesIn := r.2 })

/-- A ring session with echo on returns the line it received, before the line's response (R104). -/
def State.ringEcho (s : State) (k : Nat) (line : Option String) : State :=
  match line with
  | some t => if k ≠ 0 && (s.sesAt k).echo then s.emit k t else s
  | none => s

/-- The line of session `k` that runs next. -/
def State.firstLine (s : State) (k : Nat) : Option String :=
  if k = 0 then s.con.lines.head? else (takeRingLine k s.ring.linesIn).1

/-- Session `k`'s first line is over-length (R100). -/
def State.longFirst (s : State) (k : Nat) : Bool := k = 0 && s.con.longLine

/-- The first line of session `k` says command `c` (R111 to R119), or is over-length. Where no line waits, the command
stands for one that comes complete (log 20). -/
def State.says (s : State) (k : Fin 16) (c : Instr) : Bool :=
  match s.firstLine k.val with
  | none => true
  | some t => s.longFirst k.val || readLine k t = some (.command (canonical c))

/-- Session `q` has the line of command `c` to run next. -/
def State.sends (s : State) (q : Src) (c : Instr) : Bool := s.canRun q.ses.val && s.says q.ses c

/-- Run one line: the checks of R126 up to resources, then the verb. `ok` is readiness, rights and legal state. -/
def State.runLine (s : State) (q : Src) (c : Instr) (ok : State → Bool) (body : State → State) : State :=
  let k := q.ses.val
  if !s.sends q c then s
  else
    let long := s.longFirst k
    let r := s.nextLine k
    let s := r.2
    (if ok s && !long then body (s.ringEcho k r.1) else s.ignore k).afterLine k

end Sys2Proof.Machine
end

