-- ==== Sys2Proof/Machine/Furrow.lean ====
section
/-! DEFINITION. The furrow (R253, R735 to R741): lines, firmware writes outside the journal, and what a failed write
leaves. -/

namespace Sys2Proof.Machine

def State.modFur (s : State) (f : Furrow → Furrow) : State := { s with fur := f s.fur }

/-- The 64 bytes of a line as the memory holds them. -/
def State.furHeld (s : State) (line : Nat) : List Byte := Mem.gets zeroByte s.fur.mem (line * 64) 64

/-- The last write of `line` that waits. -/
def lastPending (line : Nat) : List (Nat × List Byte × Nat) → Option (List Byte)
  | [] => none
  | p :: l =>
    match lastPending line l with
    | some b => some b
    | none => if p.1 = line then some p.2.1 else none

/-- The 64 bytes of a line as LC takes them: as the newest write that waits gives them, otherwise as the memory holds
them (log 13). -/
def State.furLine (s : State) (line : Nat) : List Byte := (lastPending line s.fur.pendingLines).getD (s.furHeld line)

/-- The bytes of `n` lines from `line`. -/
def State.furLines (s : State) (line n : Nat) : List Byte := (List.range n).flatMap fun i => s.furLine (line + i)

/-- Store a line's bytes in the memory. -/
def State.furStore (s : State) (line : Nat) (b : List Byte) : State :=
  s.modFur fun f => { f with mem := Mem.puts zeroByte f.mem (line * 64) (padBytes 64 b) }

/-- A write counts in FUR_WRITES. -/
def State.furCount (s : State) : State := s.modFur fun f => { f with writes := (f.writes + 1) % pow32 }

/-- Writes are refused while VSTBY is low, and in reset (R263). -/
def State.furLocked (s : State) : Bool := s.sys.vstbyLow || s.sys.inReset

/-- Firmware asks for a write of a line outside the journal; it is made at a FURROW-OP-DONE (R739, R740, log 13). -/
def State.furPut (s : State) (line : Nat) (b : List Byte) : State :=
  s.modFur fun f => { f with pendingLines := f.pendingLines ++ [(line, padBytes 64 b, 0)] }

/-- A line whose write failed its verify or was cut short: any mixture of bytes (R736). -/
def State.furDamage (s : State) (line : Nat) : State :=
  let d := s.draw
  d.2.furStore line ((List.range 64).map (Config.damagedByte d.1))

/-- A failed verify counts in ERRS and sets VERIFY_FAIL (R261, R740). -/
def State.furFailed (s : State) : State :=
  s.modFur fun f => { f with errs := satInc 65535 f.errs, verifyFail := true }

/-- Change bytes `off ..` of a line and write it. -/
def State.furPatch (s : State) (line off : Nat) (b : List Byte) : State :=
  let l := s.furLine line
  s.furPut line (l.take off ++ b ++ l.drop (off + b.length))

/-! ### Furrow ports (R284, R285) -/

/-- A line outside the journal may be written: no record waits, or the write had begun before the records came (R739). -/
def Journal.lineTurn (j : Journal) : Bool := j.queue.isEmpty || j.lineLate

/-- The write of a line outside the journal runs: one waits, and no record goes before it (R739). -/
def State.lineRuns (s : State) : Bool :=
  !s.furLocked && s.jrn.lineTurn && (!s.fur.pendingLines.isEmpty || s.cal.saveDue)

/-- A read or a write runs: the port's own command, a journal record's write, or that of another line (BUSY, R284, R285). -/
def State.furBusy (s : State) : Bool := s.fur.op.isSome || s.jrn.writing.isSome || s.lineRuns

/-- FUR_STATUS. -/
def State.furStatus (s : State) : Nat :=
  bitNat s.furBusy + 2 * bitNat s.sys.vstbyLow + 4 * bitNat s.fur.verifyFail + s.fur.errs * 2 ^ 16

/-- A write of FUR_CMD (R285): READ before WRITE; nothing while BUSY or LOCKOUT. -/
def State.furCmd (s : State) (v : Nat) : State :=
  if s.furBusy || s.furLocked then s
  else if bitAt v 0 then s.modFur fun f => { f with op := some .read, opLine := f.line }
  else if bitAt v 1 then (s.modFur fun f => { f with op := some .write, opLine := f.line }).furCount
  else s

/-- A command of the port completes (R284). A WRITE stores FUR_BUF as it stands now: DESIGN CHOICE (log 102), since no rule says
when a running WRITE takes it. -/
def State.furPortDone (s : State) (verified : Bool) : State :=
  let s' := s.modFur fun f => { f with op := none }
  match s.fur.op with
  | some .read =>
    s'.modFur fun f =>
      { f with buf := Vector.ofFn fun i => wordOf (Mem.unit zeroByte f.mem (f.opLine * 64 + 4 * i.val) 4) }
  | some .write =>
    if verified then s'.furStore s.fur.opLine (bytesOf s.fur.buf.toList)
    else (s'.furDamage s.fur.opLine).furFailed
  | none => s

end Sys2Proof.Machine
end

