-- ==== Sys2Proof/Machine/Journal.lean ====
section
/-! DEFINITION. The journal: verb codes and argument blocks (R259, R742), completion lines (R140, R182, R230, R231),
record bytes (R255 to R257), the write queue and the write position (R260 to R262, R738). -/

namespace Sys2Proof

/-! ### Codes and names -/

def EnvWord.code : EnvWord → Nat
  | .main => 1
  | .aux => 2
  | .margin => 3
  | .shed => 4
  | .guard => 5

def EnvWord.name : EnvWord → String
  | .main => "MAIN"
  | .aux => "AUX"
  | .margin => "MARGIN"
  | .shed => "SHED"
  | .guard => "GUARD"

def Colour.code : Colour → Nat
  | .green => 0
  | .amber => 1
  | .blue => 2

/-- Pattern codes (R479). -/
def Pattern.code : Pattern → Nat
  | .off => 0
  | .steady => 1
  | .blink1 => 2
  | .blink4 => 3
  | .breathe => 4

def View.name : View → String
  | .state => "STATE"
  | .power => "POWER"
  | .time => "TIME"
  | .ring => "RING"
  | .auto => "AUTO"

end Sys2Proof

namespace Sys2Proof.Machine

def State.modJrn (s : State) (f : Journal → Journal) : State := { s with jrn := f s.jrn }

/-- Function codes of R742: the function, and its row or tenancy. -/
def Fn.code : Fn → Nat × Nat
  | .line => (1, 0)
  | .face => (2, 0)
  | .seedbank => (3, 0)
  | .furrow => (4, 0)
  | .calendar => (5, 0)
  | .ring => (6, 0)
  | .replay => (7, 0)
  | .keys => (8, 0)
  | .field => (9, 0)
  | .sower => (10, 0)
  | .granary => (11, 0)
  | .baysRow r => (12, r)
  | .envelope => (13, 0)
  | .ledger => (14, 0)
  | .tenancy => (15, 0)
  | .plot p => (16, p)

/-- The function of a code. -/
def fnOf (c d : Nat) : Fn :=
  match c with
  | 1 => .line
  | 2 => .face
  | 3 => .seedbank
  | 4 => .furrow
  | 5 => .calendar
  | 6 => .ring
  | 7 => .replay
  | 8 => .keys
  | 9 => .field
  | 10 => .sower
  | 11 => .granary
  | 12 => .baysRow d
  | 13 => .envelope
  | 14 => .ledger
  | 15 => .tenancy
  | _ => .plot d

/-- Verb codes (R259). -/
def Form.code : Form → Nat
  | .wake => 1
  | .rest => 2
  | .bayOn _ _ => 3
  | .bayOff _ => 4
  | .envSet _ _ => 5
  | .forget _ _ => 6
  | .tag _ _ _ => 7
  | .tagAuto _ => 7
  | .face _ => 8
  | .keySet _ _ => 9
  | .keyClear _ => 10
  | .epoch _ _ => 11
  | .plotLoad _ _ => 12
  | .plotUnload _ => 13
  | .selftest _ => 14
  | .x _ i _ _ => 16 + i

/-- The verb of a code, as typed in capitals; an X verb's own name is given beside. -/
def verbName (code : Nat) (x : String) : String :=
  match code with
  | 1 => "WAKE"
  | 2 => "REST"
  | 3 => "BAY"
  | 4 => "BAY"
  | 5 => "ENVELOPE"
  | 6 => "PROFILE"
  | 7 => "TAG"
  | 8 => "FACE"
  | 9 => "KEY"
  | 10 => "KEY"
  | 11 => "LEDGER"
  | 12 => "PLOT"
  | 13 => "PLOT"
  | 14 => "SELFTEST"
  | _ => x

/-- Bay bitmap: 12 bytes (R259). -/
def mapBytes (m : BitVec 96) : List Byte := leBytes 12 m.toNat

/-- A key's bytes, first group first and each group's most significant byte first. -/
def keyBytes (k : BitVec 256) : List Byte := (leBytes 32 k.toNat).reverse

/-- One byte. -/
def byteOf (n : Nat) : Byte := BitVec.ofNat 8 n

/-- The argument block: ARGS of ACCEPTED, STEP and COMMITTED records (R257, R259). -/
def Form.args (f : Form) : List Byte :=
  padBytes 40 (match f with
    | .wake => []
    | .rest => []
    | .bayOn b t => mapBytes b ++ mapBytes t
    | .bayOff b => mapBytes b
    | .envSet w v => [byteOf w.code, 0#8] ++ leBytes 2 v
    | .forget b e => mapBytes b ++ mapBytes e
    | .tag b c p => mapBytes b ++ [byteOf c.code, byteOf p.code]
    | .tagAuto b => mapBytes b ++ [0#8, 0x0F#8]
    | .face (.text t) => 1#8 :: asciiOf t
    | .face .off => [2#8]
    | .face (.view v) => 3#8 :: asciiOf v.name
    | .keySet t k => byteOf t :: keyBytes k
    | .keyClear t => [byteOf t]
    | .epoch t e => byteOf t :: leBytes 4 e
    | .plotLoad t a => byteOf t :: leBytes 4 a
    | .plotUnload t => [byteOf t]
    | .selftest p => [byteOf p]
    | .x _ _ text _ => asciiOf text)

/-! ### Reading an argument block back -/

def mapAt (l : List Byte) (i : Nat) : BitVec 96 := BitVec.ofNat 96 (unitAt l i 12)

/-- Text of bytes up to the first 0. -/
def textTo0 (l : List Byte) : String := textOf (l.takeWhile fun b => b ≠ 0#8)

def envWordOf (n : Nat) : EnvWord :=
  match n with
  | 1 => .main
  | 2 => .aux
  | 3 => .margin
  | 4 => .shed
  | _ => .guard

def colourOf (n : Nat) : Colour :=
  match n with
  | 0 => .green
  | 1 => .amber
  | _ => .blue

def patternOfCode (n : Nat) : Pattern :=
  match n with
  | 0 => .off
  | 1 => .steady
  | 2 => .blink1
  | 3 => .blink4
  | _ => .breathe

def viewOf (t : String) : View :=
  if t = "STATE" then .state else if t = "POWER" then .power else if t = "TIME" then .time
  else if t = "RING" then .ring else .auto

/-- The form of a record: verb code, tenancy, the replayable flag, and ARGS (R259). -/
def formOf (code ten : Nat) (rep : Bool) (l : List Byte) : Form :=
  match code with
  | 1 => .wake
  | 2 => .rest
  | 3 => .bayOn (mapAt l 0) (mapAt l 12)
  | 4 => .bayOff (mapAt l 0)
  | 5 => .envSet (envWordOf (unitAt l 0 1)) (unitAt l 2 2)
  | 6 => .forget (mapAt l 0) (mapAt l 12)
  | 7 =>
    if unitAt l 13 1 = 15 then .tagAuto (mapAt l 0)
    else .tag (mapAt l 0) (colourOf (unitAt l 12 1)) (patternOfCode (unitAt l 13 1))
  | 8 =>
    match unitAt l 0 1 with
    | 1 => .face (.text (textTo0 (l.drop 1)))
    | 2 => .face .off
    | _ => .face (.view (viewOf (textTo0 (l.drop 1))))
  | 9 => .keySet (unitAt l 0 1) (BitVec.ofNat 256 (leNat ((l.drop 1).take 32).reverse))
  | 10 => .keyClear (unitAt l 0 1)
  | 11 => .epoch (unitAt l 0 1) (unitAt l 1 4)
  | 12 => .plotLoad (unitAt l 0 1) (unitAt l 1 4)
  | 13 => .plotUnload (unitAt l 0 1)
  | 14 => .selftest (unitAt l 0 1)
  | c => .x ten (c - 16) (textTo0 l) rep

/-! ### Completions -/

/-- Outcomes. -/
def oDone : Nat := 1
def oFailed : Nat := 2
def oCancelled : Nat := 3

/-- A DONE completion with numeric fields. -/
def complDone (nums : List Nat) (r : Bool) : Compl :=
  { outcome := oDone, reason := 0, fn := 0, detail := 0, nums := nums, tripped := 0#96, text := "", replayed := r }

/-- A FAILED completion with a reason code. -/
def complFailed (reason : Nat) (r : Bool) : Compl :=
  { outcome := oFailed, reason := reason, fn := 0, detail := 0, nums := [], tripped := 0#96, text := "", replayed := r }

/-- A cancelled completion. -/
def complCancelled (r : Bool) : Compl := { complFailed 0 r with outcome := oCancelled }

/-- The form's own reason code for NOT-READY (R140, R182). -/
def notReadyCode : Form → Nat
  | .bayOn _ _ => 2
  | .bayOff _ => 2
  | .plotLoad _ _ => 4
  | .selftest _ => 2
  | _ => 1

/-- A NOT-READY completion. -/
def complNotReady (f : Form) (fn : Fn) (r : Bool) : Compl :=
  { complFailed (notReadyCode f) r with fn := fn.code.1, detail := fn.code.2 }

/-- Common reasons (R742). -/
def commonReason (n : Nat) : String :=
  match n with
  | 0x81 => "REPLAY-EXHAUSTED"
  | 0x82 => "REPLAY-REFUSED"
  | 0x83 => "SUPERSEDED"
  | 0x84 => "THREAD-FAULT"
  | 0x85 => "FIELD-PG-TIMEOUT"
  | 0x86 => "PLL-NO-LOCK"
  | _ => "FIELD-ROM"

/-- The name of a form's own reason (R140, R182). -/
def formReason (f : Form) (n : Nat) : String :=
  match f, n with
  | .wake, 1 => "FIELD-PG-TIMEOUT"
  | .wake, 2 => "PLL-NO-LOCK"
  | .wake, _ => "FIELD-ROM"
  | .bayOn _ _, 1 => "BAY-TRIP"
  | .bayOff _, 1 => "BAY-TRIP"
  | .plotLoad _ _, 1 => "IMAGE-MISSING"
  | .plotLoad _ _, 2 => "IMAGE-CRC"
  | .plotLoad _ _, 3 => "TOO-LARGE"
  | .selftest _, 1 => "SELFTEST"
  | _, _ => "NOT-READY"

/-- Ascending numbers as maximal ranges (first, last). -/
def rangesOf : List Nat → List (Nat × Nat)
  | [] => []
  | n :: l =>
    match rangesOf l with
    | (a, b) :: m => if a = n + 1 then (n, b) :: m else (n, n) :: (a, b) :: m
    | [] => [(n, n)]

def rangeText (p : Nat × Nat) : String := if p.1 = p.2 then decText p.1 else decText p.1 ++ ".." ++ decText p.2

/-- The list of BAY-TRIP (R151). -/
def tripList (m : BitVec 96) : String :=
  let l := rangesOf (onesOf m)
  joinText "," ((l.take 16).map rangeText) ++ (if 16 < l.length then " MORE" else "")

/-- The counts of a BAY completion (R150). -/
def bayCounts (n : List Nat) : String :=
  "BAYS " ++ decText (n.getD 0 0) ++ " EMPTY " ++ decText (n.getD 1 0) ++ " UNLATCHED " ++ decText (n.getD 2 0)
    ++ " LOCKED " ++ decText (n.getD 3 0)

/-- A value of ENVELOPE SET as its completion prints it. DESIGN CHOICE (log 75): one fractional digit, as the setting is
held and as the section's worked case prints it (`DONE MAIN 120.0`), where R137 gives amperes two. -/
def envText (w : EnvWord) (v : Nat) : String := if w = .guard then decText v else fracText 1 v

/-- Names of failed SELFTEST steps (R219). -/
def selftestList (m : Nat) : String :=
  joinText "," (["ROM", "PROOF", "FURROW", "SEEDBANK"].zipIdx.filterMap fun p => if bitAt m p.2 then some p.1 else none)

/-- The content of a DONE completion (R140, R182). -/
def doneText (f : Form) (c : Compl) : String :=
  let n := c.nums
  match f with
  | .wake => "FIELD"
  | .rest => "LATCH"
  | .bayOn _ _ => bayCounts n
  | .bayOff _ => bayCounts n
  | .envSet w v => w.name ++ " " ++ envText w v
  | .forget _ _ => "FORGOT " ++ decText (n.getD 0 0)
  | .tag _ _ _ => "TAG " ++ decText (n.getD 0 0)
  | .tagAuto _ => "TAG " ++ decText (n.getD 0 0)
  | .face _ => "FACE"
  | .keySet t _ => "KEY T" ++ decText t
  | .keyClear t => "KEY T" ++ decText t
  | .epoch _ e => "EPOCH " ++ decText e
  | .plotLoad t _ => "PLOT T" ++ decText t ++ " SIZE " ++ decText (n.getD 1 0) ++ " VERBS " ++ decText (n.getD 2 0)
  | .plotUnload t => "PLOT T" ++ decText t ++ " NONE"
  | .selftest _ => "SELFTEST PASS RAILS " ++ decText (n.getD 0 0)
  | .x _ _ _ _ => c.text

/-- What follows FAILED. -/
def failedText (f : Form) (c : Compl) : String :=
  match f with
  | .x _ _ _ _ => c.text
  | _ =>
    if 0x81 ≤ c.reason then commonReason c.reason
    else
      let r := formReason f c.reason
      if r = "NOT-READY" then r ++ " " ++ (fnOf c.fn c.detail).name
      else if r = "BAY-TRIP" then r ++ " " ++ tripList c.tripped ++ " " ++ bayCounts c.nums
      else if r = "SELFTEST" then r ++ " " ++ selftestList (c.nums.getD 1 0)
      else r

/-- The completion line after the handle (R230, R231, R251). -/
def complText (f : Form) (c : Compl) : String :=
  words [if c.outcome = oDone then "DONE" else "FAILED",
    if c.outcome = oCancelled then "CANCELLED" else if c.outcome = oDone then doneText f c else failedText f c,
    if c.replayed then "REPLAYED" else ""]

/-- Completion fields of a RETIRED record (R742). -/
def complFields (f : Form) (c : Compl) : List Byte :=
  let n := c.nums
  match f with
  | .bayOn _ _ => (List.range 4).map (fun i => byteOf (n.getD i 0)) ++ mapBytes c.tripped
  | .bayOff _ => (List.range 4).map (fun i => byteOf (n.getD i 0)) ++ mapBytes 0#96
  | .envSet w v => [byteOf w.code, 0#8] ++ leBytes 2 v
  | .forget _ _ => [byteOf (n.getD 0 0)]
  | .tag _ _ _ => [byteOf (n.getD 0 0)]
  | .tagAuto _ => [byteOf (n.getD 0 0)]
  | .keySet t _ => [byteOf t]
  | .keyClear t => [byteOf t]
  | .plotUnload t => [byteOf t]
  | .epoch _ e => leBytes 4 e
  | .plotLoad t _ => [byteOf t, 0#8, 0#8, 0#8] ++ leBytes 4 (n.getD 1 0) ++ [byteOf (n.getD 2 0)]
  | .selftest _ => leBytes 2 (n.getD 0 0) ++ [byteOf (n.getD 1 0)]
  | _ => []

/-- The chunks of 40 bytes of an X verb's completion text; never none (R259). -/
def textChunks (t : String) : List (List Byte) :=
  let l := asciiOf t
  (List.range (max 1 ((l.length + 39) / 40))).map fun i => padBytes 40 ((l.drop (40 * i)).take 40)

/-- ARGS of the RETIRED record (R259, R742). -/
def complArgs (f : Form) (c : Compl) : List Byte :=
  match f with
  | .x _ _ _ _ => (textChunks c.text).getLastD []
  | _ => padBytes 40 ([byteOf c.reason, byteOf c.fn, byteOf c.detail, 0#8] ++ complFields f c)

/-! ### Record bytes -/

def RecPhase.code : RecPhase → Nat
  | .accepted => 1
  | .step => 2
  | .committed => 3
  | .retired => 4
  | .text => 5
  | .queued => 6

/-- Bytes 0..59 of a record (R255). -/
def Rec.head (r : Rec) (seq : Nat) : List Byte :=
  [0x4A#8, 0xB6#8] ++ leBytes 4 seq ++ leBytes 2 r.handle ++ [byteOf r.keeper, byteOf r.origKeeper, byteOf r.origSession,
    byteOf r.verb,
    byteOf (r.tenancy % 16 + 16 * bitNat r.ring + 32 * bitNat r.replayable + 64 * bitNat r.replayedMark),
    byteOf r.phase.code, byteOf r.step, byteOf (r.replays % 4 + 16 * r.outcome)]
    ++ leBytes 4 r.tick ++ padBytes 40 r.args

/-- The 64 bytes of a record with its SEQ and CRC (R255, R256). -/
def Rec.bytes (r : Rec) (seq : Nat) : List Byte := r.head seq ++ leBytes 4 (crc32c (r.head seq))

/-- A line of the journal ring: empty, BAD, or a record with its SEQ (R271). -/
inductive Slot where
  | empty
  | bad
  | good (seq : Nat) (r : Rec)
  deriving DecidableEq, Repr, Inhabited

/-- Read a line (R255, R271). -/
def readSlot (l : List Byte) : Slot :=
  if unitAt l 0 1 ≠ 0x4A ∨ unitAt l 1 1 ≠ 0xB6 then .empty
  else if crc32c (l.take 60) ≠ unitAt l 60 4 then .bad
  else
    let flags := unitAt l 12 1
    .good (unitAt l 2 4)
      { handle := unitAt l 6 2, keeper := unitAt l 8 1, origKeeper := unitAt l 9 1, origSession := unitAt l 10 1
        verb := unitAt l 11 1, tenancy := flags % 16, ring := bitAt flags 4, replayable := bitAt flags 5
        replayedMark := bitAt flags 6
        phase := match unitAt l 13 1 with
          | 1 => .accepted
          | 2 => .step
          | 3 => .committed
          | 4 => .retired
          | 5 => .text
          | _ => .queued
        step := unitAt l 14 1, replays := unitAt l 15 1 % 4, outcome := unitAt l 15 1 / 16
        tick := unitAt l 16 4, args := (l.drop 20).take 40 }

/-- The journal ring as LC reads it: slot and contents, lines 0..2559. -/
def State.journalSlots (s : State) : List (Nat × Slot) :=
  (List.range 2560).map fun n => (n, readSlot (s.furLine n))

/-! ### The write queue -/

/-- A record for a handle, with the calendar tick of the moment (R255). -/
def State.recFor (s : State) (h : Handle) (phase : RecPhase) (step : Nat) (args : List Byte) : Rec :=
  let o := match h.origin with
    | .console => (h.kk, 0, false)
    | .ring a b => (a, b, true)
  { handle := h.seq, keeper := h.kk, origKeeper := o.1, origSession := o.2.1, verb := h.form.code, tenancy := h.ten
    ring := o.2.2
    replayable := match h.form with
      | .x _ _ _ r => r
      | _ => false
    replayedMark := phase = .retired && (match h.compl with
      | some c => c.replayed
      | none => false)
    phase := phase, step := step, replays := h.replays
    outcome := if phase = .retired then (match h.compl with
      | some c => c.outcome
      | none => 0) else 0
    tick := s.cal.tick % pow32, args := args }

/-- Entries of the write queue in use: those that wait, and the record being written (R260). -/
def Journal.used (j : Journal) : Nat := j.queue.length + bitNat j.writing.isSome

/-- Records asked for while all 16 entries are in use take the entries that come free, in order (R260). -/
def Journal.refill (j : Journal) : Journal :=
  { j with queue := j.queue ++ j.late.take (16 - j.used), late := j.late.drop (16 - j.used) }

/-- A record joins the write queue (R260). A line's write may be under way when a record comes to an empty queue (R739). -/
def State.enqueue (s : State) (r : Rec) : State :=
  let late := s.jrn.writing.isNone && s.fur.op.isNone && (!s.fur.pendingLines.isEmpty || s.cal.saveDue)
  s.modJrn fun j =>
    { j with late := j.late ++ [r], lineLate := if j.queue.isEmpty then late else j.lineLate }.refill

/-- Records of the handle wait to be written, or one of them is being written. -/
def State.recordsDue (s : State) (kk seq : Nat) : Bool :=
  (s.jrn.queue ++ s.jrn.late ++ (s.jrn.writing.map fun x => x.2.2).toList).any fun r => r.handle = seq && r.keeper = kk

/-- LC can write a line now: no record and no port command is under way, and no record goes first (R739). -/
def State.lineFree (s : State) : Bool := !s.furLocked && s.jrn.writing.isNone && s.fur.op.isNone && s.jrn.lineTurn

/-- Live slots (R262). -/
def State.liveSlots (s : State) : List Nat :=
  s.hnd.opens.flatMap (fun h => h.slots ++ h.ends) ++ s.hnd.kept.flatMap (fun k => k.slots) ++ s.hnd.gone.flatMap fun g => g.2.2

/-- The first slot from `n` on that is not live. -/
def freeSlot (live : List Nat) : Nat → Nat → Nat
  | 0, n => n
  | f + 1, n => if live.contains n then freeSlot live f ((n + 1) % 2560) else n

/-- JOURNAL-WRITE-START: LC starts writing the record at the head of its queue (R260, R262, R738, R739). -/
def State.journalStart (s : State) : State :=
  match s.jrn.queue with
  | [] => s
  | r :: l =>
    if s.furLocked || s.jrn.writing.isSome || s.fur.op.isSome || !s.isUp .furrow then s
    else
      let slot := freeSlot s.liveSlots 2560 ((s.jrn.lastSlot + 1) % 2560)
      let seq := (s.jrn.lastSeq + 1) % pow32
      (s.modJrn fun j => { j with queue := l, writing := some (slot, seq, r), lineLate := false }.refill).furCount

def execJournalWriteStart (s : State) : Res := goOn s.journalStart

end Sys2Proof.Machine
end

