-- ==== Sys2Proof/Machine/Handles.lean ====
section
/-! DEFINITION. Tenancies that sessions hold (R334, R343), key states, and handles: acceptance (R221 to R225, R238),
record requests (R226, R250), completion, kept handles and orphans (R232 to R241). -/

namespace Sys2Proof.Machine

/-! ### Keys and rights -/

/-- Published state of position `p` (R457, R462). -/
def State.keyClosed (s : State) (p : Nat) : Bool := (vget s.keys.pubDeb (p / 32)).getLsbD (p % 32)

/-- Position of bay `n`'s key `i`: PRESENT, LATCHED, LEVER, LOCATE (R457). -/
def bayKey (n i : Nat) : Nat := 32 * (n / 8) + 4 * (n % 8) + i

def State.present (s : State) (n : Nat) : Bool := s.keyClosed (bayKey n 0)
def State.latched (s : State) (n : Nat) : Bool := s.keyClosed (bayKey n 1)

/-- The keyswitch is turned (R343). -/
def State.turned (s : State) : Bool := s.keyClosed (12 * 32 + 21) && !s.keyClosed (12 * 32 + 22)

/-- Session 0 holds T0 through the keyswitch (R334, R348). -/
def State.switchT0 (s : State) (k : Nat) : Bool := k = 0 && s.isUp .keys && s.turned

/-- The tenancy that session `k` holds (R334). -/
def State.holds (s : State) (k : Nat) : Option Nat := if s.switchT0 k then some 0 else (s.sesAt k).proved

/-- STEWARD rights (R131). -/
def State.steward (s : State) (k : Nat) : Bool := s.holds k = some 0

/-- TENANT rights for tenancy `t` (R179). -/
def State.tenant (s : State) (k t : Nat) : Bool := s.steward k || s.holds k = some t

/-- BAY rights for every named bay (R131, R132), by the stored assignment (R193). -/
def State.bayRights (s : State) (k : Nat) (bays : List Nat) : Bool :=
  s.steward k || bays.all fun n => match vget s.sdb.assign n, s.holds k with
    | some t, some u => t = u
    | _, _ => false

/-! ### Finding and changing handles -/

def State.modHnd (s : State) (f : Handles → Handles) : State := { s with hnd := f s.hnd }

/-- The handle has this name. -/
def Handle.is (h : Handle) (kk seq : Nat) : Bool := h.kk = kk && h.seq = seq

def State.openAt (s : State) (kk seq : Nat) : Option Handle := s.hnd.opens.find? fun h => h.is kk seq

def State.modOpen (s : State) (kk seq : Nat) (f : Handle → Handle) : State :=
  s.modHnd fun x => { x with opens := x.opens.map fun h => if h.is kk seq then f h else h }

def Kept.is (h : Kept) (kk seq : Nat) : Bool := h.kk = kk && h.seq = seq

/-- A kept handle counts as an orphan until HANDLE has delivered it (R237, log 30). -/
def Kept.orphaned (h : Kept) : Bool := h.orphan && !h.delivered

/-- The keeper's number in handles; 0 while it is ALONE (R78, R221). -/
def State.keeperNo (s : State) : Nat := s.ring.number.getD 0

/-! ### Acceptance -/

/-- The sequence belongs to a handle open or kept (R222). -/
def State.seqUsed (s : State) (n : Nat) : Bool :=
  (s.hnd.opens.any fun h => h.seq = n) || s.hnd.kept.any fun h => h.seq = n

def nextSeqNo (n : Nat) : Nat := if 65535 ≤ n then 1 else n + 1

/-- The first sequence from `n` on that is not used. -/
def freeSeqNo (used : Nat → Bool) : Nat → Nat → Nat
  | 0, n => n
  | f + 1, n => if used n then freeSeqNo used f (nextSeqNo n) else n

/-- The resources of every handle form: a handle slot and a free journal record (R129, R238, R260, R336). -/
def State.canAccept (s : State) (ten : Nat) : Bool :=
  s.hnd.opens.length < 64 && s.jrn.used < 16
    && (ten = 0 || (s.hnd.opens.filter fun h => h.ten = ten).length < 16)

/-- The session as a handle records it (R255). -/
def State.originOf (s : State) (k : Nat) : Origin :=
  if k = 0 then .console else .ring (s.sesAt k).src (s.sesAt k).byte

/-- A new handle. -/
def newHandle (kk seq ten : Nat) (origin : Origin) (tag : String) (ses : Nat) (name : String) (form : Form) : Handle :=
  { kk := kk, seq := seq, ten := ten, origin := origin, tag := tag, ses := ses, name := name, form := form
    phase := .accepted, accepted := false, step := 0, stepReq := 0, committing := false, compl := none
    cancelled := false, replays := 0, replayed := false, waiting := false, hit := .none, copying := false
    running := false, ended := false, claim := 0, buf := none, left := [], skip := 0#96, ord := 0
    order := 0, slots := [], ends := [], retSeq := 0, delivered := false, cntE := 0, cntU := 0, cntL := 0, item := none }

/-- The bays that a form names, of those forms that need an item for each (R139). -/
def Form.bays : Form → Option (BitVec 96)
  | .bayOn b _ => some b
  | .bayOff b => some b
  | .forget b _ => some b
  | .tag b _ _ => some b
  | .tagAuto b => some b
  | _ => none

/-- Items that a form posts: one for each bay that it names, one for an X verb (R139, R206). -/
def Form.items (f : Form) : Nat :=
  match f with
  | .x _ _ _ _ => 1
  | _ => match f.bays with
    | some b => (onesOf b).length
    | none => 0

/-- A REST is open that has not ended (R44, R135). -/
def State.restOpen (s : State) : Bool := s.hnd.opens.any fun h => h.form = .rest && h.compl.isNone

/-- A handle accepted now claims its field resources at once: in WAKING and FIELD, where it is not held behind a REST
(R139, R206, R243). -/
def State.claimsNow (s : State) : Bool := (s.sys.kst = .waking || s.sys.kst = .field) && !s.restOpen

/-- Size class of an X verb's 256-byte buffer (R206, R657). -/
def State.xClass (s : State) : Nat := if s.gran.sized then 1 else 0

/-- Queue `q` can take `n` more items (R616), and no claimant waits for it already (R634). -/
def State.roomFor (s : State) (q n : Nat) : Bool :=
  n = 0 || (s.placeCount q + n ≤ (s.que q).limit && s.used (fieldQ q) + n ≤ partSize (fieldQ q) && (s.waiter q).isNone)

/-- The field resources that the form claims at acceptance are there (R139, R206). -/
def State.formRoom (s : State) (f : Form) : Bool :=
  !s.claimsNow || (match f.queue with
    | some q => s.roomFor q f.items
    | none => true)
  && (match f with
    | .x t _ _ _ => (s.gran.take t s.xClass).1 ≠ 0#32
    | _ => true)

/-- The keeper field thread that holds the handle's Granary buffer (R524, log 19). -/
def holder (kk seq : Nat) : Nat := (Config.holdingTid kk seq).toNat % 24

/-- The handle has the buffer at `a`, which a keeper field thread has taken and entered in its owner list (R206, R524). -/
def State.holdBuffer (s : State) (kk seq : Nat) (a : Word) : State :=
  (s.ownEnter (holder kk seq) a).modOpen kk seq fun h => { h with buf := some a }

/-- The handle claims its items, and an X verb its buffer (R139, R206). -/
def State.claim (s : State) (kk seq : Nat) (f : Form) : State :=
  if !s.claimsNow then s
  else
    let s := s.modOpen kk seq fun h => { h with claim := f.items }
    match f with
    | .x t _ _ _ =>
      let a := (s.gran.take t s.xClass).1
      let s := s.modGran fun g => (g.take t s.xClass).2
      if a = 0#32 then s else s.holdBuffer kk seq a
    | _ => s

/-- What a handle has claimed and not used is free again (R139, R206, R524, R665). -/
def State.unclaim (s : State) (h : Handle) : State :=
  let s := match h.form, h.buf with
    | .x t _ _ _, some a => (s.ownLeave (holder h.kk h.seq) a).modGran fun g => g.give t a
    | _, _ => s
  (s.waitNoMore h.kk h.seq).modOpen h.kk h.seq fun h => { h with claim := 0, buf := none }

/-- The handle with this name asks for a record. -/
def State.request (s : State) (kk seq : Nat) (phase : RecPhase) : State :=
  match s.openAt kk seq with
  | some h => s.enqueue (s.recFor h phase h.stepReq h.form.args)
  | none => s

/-- The form writes the seedbank (R161, R195, R202, R204, R360). -/
def Form.stores : Form → Bool
  | .envSet _ _ => true
  | .keySet _ _ => true
  | .keyClear _ => true
  | .plotLoad _ _ => true
  | .plotUnload _ => true
  | _ => false

/-- The next place in the order of the lines that write the seedbank (R360). -/
def State.nextCheck (s : State) : Nat × State :=
  (s.sdb.checks + 1, { s with sdb := { s.sdb with checks := s.sdb.checks + 1 } })

/-- The handle's line has passed its checks: its place in the order of seedbank writes (R360). -/
def State.ranked (s : State) (kk seq : Nat) (f : Form) : State :=
  if f.stores then
    let r := s.nextCheck
    r.2.modOpen kk seq fun h => { h with ord := r.1 }
  else s

/-- Accept a handle form: its sequence is given and its ACCEPTED record is asked for (R221, R222, R224); a form that
commits at acceptance asks for both records (R227). -/
def State.accept (s : State) (ten : Nat) (q : Src) (name : String) (form : Form) : State :=
  let n := freeSeqNo s.seqUsed 400 s.hnd.nextSeq
  let kk := s.keeperNo
  let h := newHandle kk n ten (s.originOf q.ses.val) q.tag q.ses.val name form
  let s := s.modHnd fun x => { x with opens := x.opens ++ [h], nextSeq := nextSeqNo n }
  let s := ((s.claim kk n form).ranked kk n form).request kk n .accepted
  match form with
  | .face _ => (s.modOpen kk n fun h => { h with committing := true }).request kk n .committed
  | _ => s

/-! ### Record requests -/

/-- The record of one more step, with the argument block as it stands (R226, R257): a STEP record, or, once the handle
has committed, a COMMITTED record with the new step number, since the records of a handle are in phase order (R280). No record
but its RETIRED one follows the outcome (R226, R229). -/
def State.reqStep (s : State) (kk seq : Nat) : State :=
  match s.openAt kk seq with
  | some h =>
    if h.compl.isSome then s
    else
      (s.modOpen kk seq fun h => { h with stepReq := min 255 (h.stepReq + 1) }).request kk seq
        (if h.committing then .committed else .step)
  | none => s

/-- The COMMITTED record, unless the outcome or the commit is already settled (R250). -/
def State.reqCommit (s : State) (kk seq : Nat) : State :=
  match s.openAt kk seq with
  | some h =>
    if h.committing || h.compl.isSome then s
    else (s.modOpen kk seq fun h => { h with committing := true }).request kk seq .committed
  | none => s

/-- A failure of the keeper's own, in the words that an X verb's completion carries (R229, R259). -/
def Compl.worded (c : Compl) (f : Form) : Compl :=
  match f with
  | .x _ _ _ _ =>
    if c.outcome ≠ oFailed || c.text ≠ "" then c
    else if 0x81 ≤ c.reason then { c with text := commonReason c.reason }
    else if c.fn ≠ 0 then { c with text := "NOT-READY " ++ (fnOf c.fn c.detail).name }
    else c
  | _ => c

/-- The outcome is fixed: TEXT records where the completion needs them, then the RETIRED record (R229, R259). -/
def State.retire (s : State) (kk seq : Nat) (c : Compl) : State :=
  match s.openAt kk seq with
  | some h =>
    if h.compl.isSome then s
    else
      let c := c.worded h.form
      let s := (s.unclaim h).modOpen kk seq fun h => { h with compl := some { c with replayed := h.replayed } }
      match s.openAt kk seq with
      | some h =>
        let chunks := match h.form with
          | .x _ _ _ _ => (textChunks c.text).dropLast
          | _ => []
        let s := chunks.zipIdx.foldl (fun s p => s.enqueue (s.recFor h .text (p.2 + 1) p.1)) s
        s.enqueue (s.recFor h .retired h.stepReq (complArgs h.form c))
      | none => s
  | none => s

/-! ### Kept handles -/

/-- The name of a handle's verb in 12 bytes (R240). -/
def nameBytes (t : String) : List Byte := padBytes 12 (asciiOf t)

/-- The 32 bytes of a kept-handle entry (R240). -/
def Kept.bytes (h : Kept) : List Byte :=
  let b := [0x48#8, byteOf h.kk] ++ leBytes 2 h.seq
    ++ [byteOf (h.ten + 16 * bitNat h.orphan + 32 * bitNat h.delivered + 64 * h.replays), byteOf h.verb,
        byteOf h.compl.outcome, 0#8]
    ++ nameBytes h.name ++ leBytes 4 h.retSeq ++ leBytes 4 h.order
  b ++ leBytes 4 (crc32c b)

/-- Write a kept handle's entry: entry i lies at 0x3E000 + 32 i. -/
def State.writeKept (s : State) (h : Kept) : State := s.furPatch (3968 + h.entry / 2) (h.entry % 2 * 32) h.bytes

/-- The first entry that no kept handle uses. -/
def State.freeEntry (s : State) : Nat :=
  ((List.range 256).find? fun i => !(s.hnd.kept.any fun h => h.entry = i)).getD 0

/-- The kept handle that a 257th displaces: the oldest that is no orphan, otherwise the oldest (R241). -/
def State.displaced (s : State) : Option Kept :=
  if s.hnd.kept.length < 256 then none
  else match s.hnd.kept.find? fun h => !h.orphaned with
    | some h => some h
    | none => s.hnd.kept.head?

/-- The session that opened the handle, unless it has ended (R109, R232). -/
def Handle.opener (h : Handle) : Option Nat :=
  match h.origin with
  | .console => some 0
  | .ring _ _ => if h.ended then none else some h.ses

/-- A kept handle is displaced (R241): its slots stay live while its QUEUED record is not durable (R262). -/
def State.displace (s : State) (k : Kept) : State :=
  s.modHnd fun x =>
    { x with kept := x.kept.filter fun y => !y.is k.kk k.seq
             gone := if s.recordsDue k.kk k.seq then x.gone ++ [(k.kk, k.seq, k.slots)] else x.gone }

/-- A closed handle becomes kept (R228, R239 to R241) and its QUEUED record is asked for (R258); from then on its session
may be idle (R109). -/
def State.keep (s : State) (h : Handle) (c : Compl) (orphan : Bool) : State :=
  let out := s.displaced
  let entry := match out with
    | some k => k.entry
    | none => s.freeEntry
  let s := match out with
    | some k =>
      let s := s.displace k
      if k.orphaned then s.notice ("^ORPHAN LOST " ++ handleText k.kk k.seq) else s
    | none => s
  let k : Kept :=
    { kk := h.kk, seq := h.seq, ten := h.ten, name := h.name, verb := h.form.code, compl := c, form := h.form
      replays := h.replays, orphan := orphan, delivered := !orphan, retSeq := h.retSeq, order := s.hnd.keptCount + 1
      entry := entry, slots := h.ends }
  let s := s.modHnd fun x =>
    { x with opens := x.opens.filter fun y => !y.is h.kk h.seq, kept := x.kept ++ [k], keptCount := (x.keptCount + 1) % pow32 }
  let s := match h.opener with
    | some j => if j = 0 then s else s.modSes j fun x => { x with lastTick := s.cal.tick }
    | none => s
  (s.enqueue (s.recFor h .queued h.stepReq (padBytes 40 []))).writeKept k

/-! ### Completion -/

/-- The handle is open for HANDLE, HANDLES, CANCEL and STATE: its first ACCEPTED record is durable (R226, R228). -/
def Handle.isOpen (h : Handle) : Bool := h.accepted || !h.slots.isEmpty

/-- The open ring session of a source keeper and session byte. -/
def State.sessionOf (s : State) (src byte : Nat) : Option Nat :=
  (List.range 16).find? fun k => k ≠ 0 && (s.sesAt k).isOpen && (s.sesAt k).src = src && (s.sesAt k).byte = byte

/-- A completion for a ring session can go onto the ring now (R327). No frame tells a member whether its head reports BROKEN, so
that is free (log 60). -/
def State.ringCarries (s : State) : Bool × State :=
  if s.ring.upDead || s.ring.number.isNone then (false, s)
  else if s.sys.head then (decide (s.ring.st ≠ .broken), s)
  else (!s.freeCheck.1, s.freeCheck.2)

/-- The handle's completion becomes an orphan (R236). -/
def State.orphan (s : State) (h : Handle) (c : Compl) : State :=
  (s.notice ("^ORPHAN " ++ handleText h.kk h.seq)).keep h c true

/-- The completion line of a handle. -/
def complLine (h : Handle) (c : Compl) : String := "!" ++ handleText h.kk h.seq ++ " " ++ complText h.form c

/-- The completion goes to session `k`: the handle is kept once its line is queued, now or when room appears (R228,
R235). -/
def State.sendDone (s : State) (k : Nat) (h : Handle) (c : Compl) (line : String) : State :=
  if s.queuesNow k line then (s.emit k line).keep h c false else s.emitFor k line (some (h.kk, h.seq))

/-- Queue the completion of a handle whose RETIRED record is durable (R228, R232 to R236). -/
def State.finish (s : State) (h : Handle) : State :=
  match h.compl with
  | none => s
  | some c =>
    match h.opener, h.origin with
    | none, _ => s.orphan h c
    | some k, .console => s.sendDone k h c (complLine h c)
    | some k, .ring a b =>
      let r := s.ringCarries
      if r.1 && s.hnd.heldOut.isEmpty then r.2.sendDone k h c (complLine h c)
      else r.2.modHnd fun x => { x with heldOut := x.heldOut ++ [(h.kk, h.seq, a, b, complLine h c)] }

/-- The line of a completion that was held is queued: its handle is kept (R228). -/
def State.lineQueued (s : State) (done : Option (Nat × Nat)) : State :=
  match done with
  | none => s
  | some p =>
    match s.openAt p.1 p.2 with
    | some h => match h.compl with
      | some c => s.keep h c false
      | none => s
    | none => s

/-- The completion line of the handle waits to be queued. -/
def State.finishing (s : State) (kk seq : Nat) : Bool :=
  (s.hnd.heldOut.any fun x => x.1 = kk && x.2.1 = seq) || (s.con.held.any fun x => x.done = some (kk, seq))
    || s.ring.wait.any fun x => x.done = some (kk, seq)

/-- A line of the close of an epoch waits to be written: a checkpoint's, or a closed-epoch record's (R379). -/
def State.closing (s : State) : Bool :=
  s.fur.pendingLines.any fun p => decide (2944 ≤ p.1) && decide (p.1 < 3520) && !decide (p.1 = 3008) && !decide (p.1 = 3009)

/-- Some item of the handle is in service (R251): a bay's, one that a thread has been dispatched with, a seedbank write of it, or
the close of an epoch that has begun. -/
def State.inService (s : State) (kk seq : Nat) : Bool :=
  (s.bays.work.any fun w => w.kk = kk && w.seq = seq && !w.fin)
    || (s.heldItems.any fun p => p.1.names kk seq && (s.th p.2).resumed && !s.bays.work.any fun w => w.tid = some p.2)
    || ((s.openAt kk seq).any fun h => h.running && s.closing && (match h.form with
      | .epoch _ _ => true
      | _ => false))
    || (s.sdb.jobBusy && s.sdb.jobs.head?.any fun j => j.handle = some (kk, seq))

/-- Service of the item of Q4 that the handle's form rode ends (R139, R616, R620). -/
def State.endForm (s : State) (h : Handle) : State :=
  match h.item with
  | some it => (s.endItem it).modOpen h.kk h.seq fun h => { h with item := none }
  | none => s

/-- Finish the handle where its RETIRED record is durable and, if it was cancelled, its last item has ended (R251). -/
def State.finishDue (s : State) (kk seq : Nat) : State :=
  match s.openAt kk seq with
  | some h =>
    if h.phase = .retired && !(h.cancelled && s.inService kk seq) && !s.finishing kk seq then (s.endForm h).finish { h with item := none }
    else s
  | none => s

/-- The oldest completion held for a ring session is sent, or becomes an orphan where its session has ended (R234,
R327). -/
def State.sendHeld (s : State) : State :=
  match s.hnd.heldOut with
  | [] => s
  | (kk, seq, _, _, line) :: l =>
    match s.openAt kk seq with
    | none => s.modHnd fun x => { x with heldOut := l }
    | some h =>
      match h.compl with
      | none => s
      | some c =>
        match h.opener with
        | none => (s.modHnd fun x => { x with heldOut := l }).orphan h c
        | some k =>
          let r := s.ringCarries
          if r.1 then (r.2.modHnd fun x => { x with heldOut := l }).sendDone k h c line else r.2

/-- COMPLETION-HELD-SEND (R234, R327). -/
def execCompletionHeldSend (s : State) : Res := goOn s.sendHeld

/-! ### Forms and the functions they need -/

/-- The form needs the field (R138, R181). -/
def Form.needsField : Form → Bool
  | .rest => false
  | .face _ => false
  | .keySet _ _ => false
  | .keyClear _ => false
  | .epoch _ _ => false
  | _ => true

/-- Rows of a bay map. -/
def rowsOf (m : BitVec 96) : List Nat := (List.range 12).filter fun r => (onesOf m).any fun n => n / 8 = r

/-- The functions a form needs to run (R83, R85, R138, R181). -/
def State.needsOf (s : State) (f : Form) : List Fn :=
  match f with
  | .wake => [.tenancy]
  | .rest => [.replay]
  | .bayOn b _ => (rowsOf b).map Fn.baysRow
  | .bayOff b => (rowsOf b).map Fn.baysRow
  | .envSet _ _ => [.envelope]
  | .forget _ _ => [.envelope]
  | .tag _ _ _ => [.field]
  | .tagAuto _ => [.field]
  | .face _ => [.replay]
  | .keySet _ _ => [.replay]
  | .keyClear _ => [.replay]
  | .epoch _ _ => if s.sys.kst = .latch then [.replay] else [.ledger]
  | .plotLoad _ _ => [.tenancy]
  | .plotUnload _ => [.tenancy]
  | .selftest _ => [.field]
  | .x t _ _ _ => [.plot t]

/-- Every function has announced. -/
def State.allUp (s : State) (l : List Fn) : Bool := l.all s.isUp

/-- One of them that printed DOWN (R85). -/
def State.anyDown (s : State) (l : List Fn) : Option Fn := l.find? fun f => s.down.contains f

end Sys2Proof.Machine
end

