-- ==== Sys2Proof/Machine/Profile.lean ====
section
/-! DEFINITION. Inrush profiles: the profile record, its default curve, the update a measured start makes, and its
erasure (R440 to R446). -/

namespace Sys2Proof.Machine

/-- First line of bay `n`'s profile record (R440). -/
def profileLine (n : Nat) : Nat := 2560 + 4 * n

/-- Bytes 0..191 of the record. -/
def State.profileBytes (s : State) (n : Nat) : List Byte := s.furLines (profileLine n) 3

/-- The profile has been learned; otherwise it is DEFAULT (R441). -/
def learnedBytes (l : List Byte) : Bool :=
  unitAt l 131 1 = 0x50 && unitAt l 130 1 ≠ 0 && crc32c (l.take 188) = unitAt l 188 4

/-- The default curve (R441). -/
def defaultCurve : List Nat := List.replicate 48 4000 ++ List.replicate 16 1500

/-- The 64 points that the planner uses, in mA (R441). -/
def State.curve (s : State) (n : Nat) : List Nat :=
  let l := s.profileBytes n
  if learnedBytes l then (List.range 64).map fun k => unitAt l (2 * k) 2 else defaultCurve

/-- STARTS of a learned profile. -/
def State.profileStarts (s : State) (n : Nat) : Nat :=
  let l := s.profileBytes n
  if learnedBytes l then unitAt l 128 2 else 0

/-- Bytes 0..191 of a record. -/
def recordBytes (points : List Byte) (starts learned tick : Nat) : List Byte :=
  let b := padBytes 128 points ++ leBytes 2 starts ++ [byteOf learned, 0x50#8] ++ leBytes 4 (tick % pow32)
    ++ List.replicate 52 0#8
  b ++ leBytes 4 (crc32c b)

/-- An integer quotient rounded to the nearest whole number, halves up. -/
def intHalfUp (a : Int) (b : Nat) : Int := (2 * a + b) / (2 * (b : Int))

/-- M_k from the sum and the number of the samples of a point, with the row's shunt code (R411, R444). -/
def pointMean (sum : Int) (count shunt : Nat) : Int := intHalfUp (sum * 152587890625) (shunt * 1000000000 * count)

/-- A point after the update (R445); a point without a sample stays. One that its 16 bits do not hold is free (log 84). -/
def newPoint (old : Nat) (p : Int × Nat) (shunt : Nat) : Nat :=
  if p.2 = 0 then old
  else
    let v := (3 * (old : Int) + pointMean p.1 p.2 shunt + 2) / 4
    if 0 ≤ v && v < 65536 then v.toNat else (Config.pointOver v).toNat

/-- LC writes the update of a measured start, line 0, line 1, line 2 (R443, R445). -/
def State.updateProfile (s : State) (n shunt : Nat) (points : List (Int × Nat)) : State :=
  let new := (s.curve n).zipIdx.map fun p => newPoint p.1 (points.getD p.2 (0, 0)) shunt
  let b := recordBytes (new.flatMap fun v => leBytes 2 v) (satInc 65535 (s.profileStarts n)) 1 s.cal.tick
  ((s.furPut (profileLine n) (b.take 64)).furPut (profileLine n + 1) ((b.drop 64).take 64)).furPut (profileLine n + 2)
    (b.drop 128)

/-- Line 2 of bay `n`'s erased profile, where it is written now: its points as they stand, and the calendar tick (R446). -/
def State.erasureLine (s : State) (n : Nat) : List Byte :=
  (recordBytes (s.furHeld (profileLine n) ++ s.furHeld (profileLine n + 1)) 0 0 s.cal.tick).drop 128

/-- PROFILE FORGET asks for the write of line 2, which takes its tick as it is made (R446, `State.asWritten`). -/
def State.eraseProfile (s : State) (n : Nat) : State := s.furPut (profileLine n + 2) (s.erasureLine n)

end Sys2Proof.Machine
end

