-- ==== Sys2Proof/Machine/Operands.lean ====
section
/-! DEFINITION. The operand forms of Oluique instructions: registers (R493), immediates and targets (R536, R538),
instruction words (R535, R540, R541), the data and instruction spaces of a thread (R496 to R499), the return stack
(R509 to R511) and the instruction cache (R503). -/

namespace Sys2Proof.Machine

/-! ### Registers -/

/-- Register `r` of a thread; g0 reads as 0 (R493). -/
def Thread.reg (h : Thread) (r : Nat) : Word := if r = 0 then 0#32 else vget h.regs r

/-- The thread with register `r` written. -/
def Thread.putReg (h : Thread) (r : Nat) (v : Word) : Thread := { h with regs := regPut h.regs r v }

/-! ### Immediates, addresses and targets -/

/-- An S immediate (R536). -/
def immS (i : BitVec 16) : Word := i.signExtend 32

/-- A Z immediate (R536). -/
def immZ (i : BitVec 16) : Word := i.setWidth 32

/-- Effective address ra + imm (R549, R558). -/
def effective (a : Word) (i : BitVec 16) : Nat := (a + immS i).toNat

/-- Port number (ra + imm) modulo 65,536 (R553). -/
def portNumber (a : Word) (i : BitVec 16) : Nat := (a + immZ i).toNat % 65536

/-- Target of a branch at `pc` (R538). -/
def branchTarget (pc : Nat) (off : BitVec 16) : Nat :=
  (((pc : Int) + 4 * off.toInt) % 16777216).toNat

/-- Target of JMP and CALL at `pc` (R538). -/
def jumpTarget (pc : Nat) (off : BitVec 26) : Nat :=
  (((pc : Int) + 4 * off.toInt) % 16777216).toNat

/-- Register target: bits [23:2] × 4 (R538). -/
def registerTarget (w : Word) : Nat := fieldAt w.toNat 2 22 * 4

/-- The instruction after `pc`. -/
def nextPc (pc : Nat) : Nat := (pc + 4) % 16777216

/-! ### Instruction words -/

/-- A word of format R (R535). -/
def rWord (op : Nat) (rd ra rb : Reg) (sh fn : Nat) : Word :=
  wordOf (op * 2 ^ 26 + rd.val * 2 ^ 21 + ra.val * 2 ^ 16 + rb.val * 2 ^ 11 + sh * 2 ^ 6 + fn)

/-- A word of format I. -/
def iWord (op : Nat) (rd ra : Reg) (imm : BitVec 16) : Word :=
  wordOf (op * 2 ^ 26 + rd.val * 2 ^ 21 + ra.val * 2 ^ 16 + imm.toNat)

/-- A word of format J. -/
def jWord (op : Nat) (off : BitVec 26) : Word := wordOf (op * 2 ^ 26 + off.toNat)

/-! ### Spaces -/

/-- Where a data address of a thread leads. -/
inductive DataAt where
  | sram (a : Nat)
  | granary (a : Nat)
  | latch (a : Nat)
  deriving DecidableEq, Repr, Inhabited

/-- The data regions of a thread (R497, R498, R499). -/
def State.dataAt (s : State) (t a : Nat) : Option DataAt :=
  if 120 ≤ t then (if a < 0x4000 then some (.latch a) else none)
  else if 0x10000000 ≤ a ∧ a < 0x10100000 then some (.granary (a - 0x10000000))
  else if isPlot t then
    let p := vget s.plots (plotOf t)
    let b := p.dbase * 1024 + a
    if a < p.dsize * 1024 ∧ b < 0x40000 then some (.sram b) else none
  else if a < 0x40000 then some (.sram a) else none

/-- The `n`-byte unit at a place. -/
def State.readData (s : State) (x : DataAt) (n : Nat) : Nat :=
  match x with
  | .sram a => Mem.unit zeroByte s.mems.data a n
  | .granary a => Mem.unit zeroByte s.gran.mem a n
  | .latch a => Mem.unit zeroByte s.mems.latch a n

/-- Store an `n`-byte unit at a place. -/
def State.writeData (s : State) (x : DataAt) (n v : Nat) : State :=
  match x with
  | .sram a => { s with mems := { s.mems with data := Mem.putUnit zeroByte s.mems.data a n v } }
  | .granary a => { s with gran := { s.gran with mem := Mem.putUnit zeroByte s.gran.mem a n v } }
  | .latch a => { s with mems := { s.mems with latch := Mem.putUnit zeroByte s.mems.latch a n v } }

/-- Where an instruction address leads, and whether IWR may write there. -/
inductive InstrAt where
  | rom (a : Nat)
  | plotRam (a : Nat)
  | latchRom (a : Nat)
  | latchRam (a : Nat)
  deriving DecidableEq, Repr, Inhabited

/-- The instruction regions of a thread (R497, R498, R499). -/
def State.instrAt (s : State) (t a : Nat) : Option InstrAt :=
  if 120 ≤ t then
    if a < 0x8000 then some (.latchRom a)
    else if 0x10000 ≤ a ∧ a < 0x12000 then some (.latchRam (a - 0x10000))
    else none
  else if isPlot t then
    let p := vget s.plots (plotOf t)
    let b := p.ibase * 4096 + a
    if a < p.isize * 4096 ∧ b < 0x20000 then some (.plotRam b) else none
  else if a < 0x40000 then some (.rom a)
  else if a < 0x60000 then some (.plotRam (a - 0x40000))
  else none

/-- The instruction-space word at a place. -/
def State.readInstr (s : State) (x : InstrAt) : Word :=
  match x with
  | .rom a => wordOf (leNat ((List.range 4).map fun i => Config.keeperRom (a + i)))
  | .plotRam a => wordOf (Mem.unit zeroByte s.mems.plotRam a 4)
  | .latchRom a => wordOf (leNat ((List.range 4).map fun i => Config.latchRom (a + i)))
  | .latchRam a => wordOf (Mem.unit Config.latchIram s.mems.iram a 4)

/-! ### The instruction cache -/

/-- The instruction address, as keeper threads number it, that names a line of the field-core caches. -/
def InstrAt.line : InstrAt → Option Nat
  | .rom a => some (a / 64)
  | .plotRam a => some ((0x40000 + a) / 64)
  | _ => none

/-- The two ways of a set after line tag `tag` has been fetched from it: the line that was used less recently is replaced, and
the way that holds the line is used last (R503). -/
def useWay (tag : Nat) (w : Option Nat × Option Nat) : Option Nat × Option Nat :=
  if w.2 = some tag then w else (w.2, some tag)

/-- The cache after a fetch of line `l`. -/
def cacheFetch (l : Nat) (c : List (Nat × Option Nat × Option Nat)) : List (Nat × Option Nat × Option Nat) :=
  let ways := ((c.find? fun p => p.1 = l % 64).map Prod.snd).getD (none, none)
  (l % 64, useWay (l / 64) ways) :: c.filter fun p => p.1 ≠ l % 64

/-- A way after a line tag has been invalidated: it stays the way it was, and holds no line. -/
def dropTag (tag : Nat) (w : Option Nat) : Option Nat := if w = some tag then none else w

/-- The cache after line `l` has been invalidated (R502). -/
def cacheDrop (l : Nat) (c : List (Nat × Option Nat × Option Nat)) : List (Nat × Option Nat × Option Nat) :=
  c.map fun p => if p.1 = l % 64 then (p.1, dropTag (l / 64) p.2.1, dropTag (l / 64) p.2.2) else p

/-- Core `k` fetches from a place. -/
def State.touchCache (s : State) (k : Nat) (x : InstrAt) : State :=
  match x.line with
  | some l => if k < 6 then s.modCore k fun c => { c with cache := cacheFetch l c.cache } else s
  | none => s

/-- Line `l` is invalidated in all six field-core caches (R502). -/
def State.dropTagged (s : State) (l : Nat) : State :=
  (List.range 6).foldl (fun s k => s.modCore k fun c => { c with cache := cacheDrop l c.cache }) s

/-- The line of a place is invalidated in all six field-core caches (R502). -/
def State.dropLine (s : State) (x : InstrAt) : State :=
  match x.line with
  | some l => s.dropTagged l
  | none => s

/-- The `n` lines from plot RAM address `a` on are invalidated in all six field-core caches (R502). -/
def State.dropPlotLines (s : State) (a n : Nat) : State :=
  (List.range n).foldl (fun s i => s.dropTagged ((0x40000 + a) / 64 + i)) s

/-- IWR stores a word where the space may be written (R559). -/
def State.writeInstr (s : State) (x : InstrAt) (v : Word) : Option State :=
  match x with
  | .plotRam a =>
    some (({ s with mems := { s.mems with plotRam := Mem.putUnit zeroByte s.mems.plotRam a 4 v.toNat } }).dropLine x)
  | .latchRam a => some { s with mems := { s.mems with iram := Mem.putUnit Config.latchIram s.mems.iram a 4 v.toNat } }
  | _ => none

/-! ### The return stack -/

/-- Push an address (R509, R510). -/
def Thread.push (h : Thread) (a : Nat) : Thread :=
  { h with rs := a :: h.rs.dropLast, rsd := min 12 (h.rsd + 1) }

/-- Move the pointer back (R509, R510). -/
def Thread.pop (h : Thread) : Thread :=
  { h with rs := h.rs.drop 1 ++ h.rs.take 1, rsd := h.rsd - 1 }

/-- The entry at the pointer. -/
def Thread.top (h : Thread) : Nat := h.rs.headD 0

end Sys2Proof.Machine
end

