-- ==== Sys2Proof/Machine/Exec.lean ====
section
/-! DEFINITION. Issuing one Oluique instruction on a core: what stands before and after the instruction's own effect
(interlocked results R506 and R581 to R584, delayed results R504 and R505, the fetch R496 to R499 and R503, traps
R526 and R527, and the next address R538). The command gives the instruction itself (log 12). -/

namespace Sys2Proof.Machine

/-- What an instruction does once it has issued: it completes, it completes and transfers control, it traps, or it
leaves the core, with its state and PC as they stand. -/
inductive Did where
  | went (s : State)
  | jumped (s : State) (pc : Nat)
  | trapped (code : Nat) (detail : Word)
  | left (s : State)

/-- The thread that core `k` executes. -/
def State.runner (s : State) (k : Nat) : Option Nat :=
  if s.sys.inReset || (s.core k).stopped then none else (s.core k).run

/-- The thread that core `k` can issue an instruction of: a core that stalls at a hinge access issues none (R57). -/
def State.issuer (s : State) (k : Nat) : Option Nat := if s.stalled k then none else s.runner k

/-! ### Interlocked and delayed results -/

/-- The float trap of raised and enabled flags, the highest-ranked first (R526, R605). -/
def floatCode (x : BitVec 5) : Nat :=
  if x.getLsbD 4 then 8 else if x.getLsbD 3 then 9 else if x.getLsbD 2 then 10 else if x.getLsbD 1 then 11 else 12

/-- The result traps at its completion (R605). -/
def Inter.traps (i : Inter) (h : Thread) : Bool := decide (i.flags &&& h.fen ≠ 0#5)

/-- Write an interlocked result with its flags (R593, R596, R605). -/
def Thread.landInter (h : Thread) (i : Inter) : Thread :=
  let regs := regPut h.regs i.rd i.lo
  let regs := match i.hi with
    | some w => regPut regs (i.rd + 1) w
    | none => regs
  let ts := match i.dc with
    | some b => putBit h.ts tsDc b
    | none => h.ts
  let ts := if i.dinv then putBit ts tsDinv true else ts
  { h with regs := regs, ts := ts ||| (i.flags.setWidth 20 <<< 6) }

/-- Complete results in order; the second component says that one of them trapped. -/
def State.landList (s : State) (k t : Nat) : List Inter → State × Bool
  | [] => (s.modTh t fun h => { h with inter := [] }, false)
  | i :: l =>
    let h := s.th t
    if i.traps h then
      (s.trap t k (floatCode (i.flags &&& h.fen)) i.pc i.pc (i.flags.setWidth 32), true)
    else State.landList (s.modTh t fun h => { h.landInter i with inter := l }) k t l

/-- Complete every outstanding interlocked result of thread `t` on core `k`. -/
def State.landInters (s : State) (k t : Nat) : State × Bool := s.landList k t (s.th t).inter

/-- Write the delayed results that are due (R504, R505). -/
def Thread.landDue (h : Thread) : Thread :=
  { h with regs := landDelayed h.regs (h.delayed.filter fun d => d.slots = 0)
           delayed := h.delayed.filter fun d => d.slots ≠ 0 }

/-- An instruction of the thread executes: one slot fewer for each result outstanding. -/
def Thread.ageDelayed (h : Thread) : Thread :=
  { h with delayed := h.delayed.map fun d => { d with slots := d.slots - 1 } }

/-- A result that becomes visible after `slots` delay slots (R504). -/
def Thread.delay (h : Thread) (rd : Nat) (v : Word) (slots : Nat) : Thread :=
  { h with delayed := h.delayed ++ [{ rd := rd, val := v, slots := slots }] }

/-- An interlocked result, made at issue (R506). -/
def Thread.interlock (h : Thread) (i : Inter) : Thread := { h with inter := h.inter ++ [i] }

/-! ### Issue -/

/-- Thread `t` has executed the instruction at `pc` and goes on at `dst`. -/
def State.goPc (s : State) (t pc dst : Nat) : State := s.modTh t fun h => { h with pc := dst, prev := pc }

/-- Issue one instruction on core `k`. `undef` holds its word where the encoding is unassigned or the instruction
traps UNDEF (R526, R537). Where the core executes no thread, or stalls at a hinge access (R57), the event does not come about
(log 11). -/
def State.issue (s : State) (k : Nat) (undef : Nat → Option Word) (body : State → Nat → Did) : State :=
  match s.issuer k with
  | none => s
  | some t =>
    let r := s.landInters k t
    if r.2 then r.1
    else
      let s := r.1.modTh t fun h => h.landDue.ageDelayed
      let h := s.th t
      match s.instrAt t h.pc with
      | none => s.trap t k 4 h.pc h.pc (wordOf h.prev)
      | some x =>
        let s := s.touchCache k x
        match undef t with
        | some w => s.trap t k 1 h.pc h.pc w
        | none =>
          match body s t with
          | .went s' => s'.goPc t h.pc (nextPc h.pc)
          | .jumped s' a => s'.goPc t h.pc a
          | .trapped c d => s.trap t k c h.pc h.pc d
          | .left s' => s'

/-- Every encoding of the instruction is assigned. -/
def always : Nat → Option Word := fun _ => none

/-- UNDEF where the condition holds. -/
def undefIf (b : Bool) (w : Word) : Nat → Option Word := fun _ => if b then some w else none

/-- An instruction that changes only its own thread. -/
def onThread (f : Thread → Thread) (s : State) (t : Nat) : Did := .went (s.modTh t f)

/-- An instruction as a command's meaning. -/
def oluique (s : State) (k : CoreId) (undef : Nat → Option Word) (body : State → Nat → Did) : Res :=
  goOn (s.issue k.val undef body)

/-! ### Events of outstanding results -/

/-- DELAYED-RESULT-WRITE: the results whose slots have run are written (R504, R505). A result of an interlocked
instruction in their slots is written before them. -/
def execDelayedResultWrite (k : CoreId) (s : State) : Res :=
  goOn (match s.runner k.val with
    | none => s
    | some t =>
      if (s.th t).delayed.any fun d => d.slots = 0 then
        let r := s.landInters k.val t
        if r.2 then r.1 else r.1.modTh t Thread.landDue
      else s)

/-- INTERLOCKED-RESULT: the oldest outstanding result is written, or its float trap is taken (R506, R605). -/
def execInterlockedResult (k : CoreId) (s : State) : Res :=
  goOn (match s.runner k.val with
    | none => s
    | some t =>
      match (s.th t).inter with
      | [] => s
      | i :: l =>
        if i.traps (s.th t) then (s.landList k.val t [i]).1
        else s.modTh t fun h => { h.landInter i with inter := l })

end Sys2Proof.Machine
end

