-- ==== Sys2Proof/Machine/SowHw.lean ====
section
/-! DEFINITION. What the Sower does at its own events and at writes of its ports: dispatch, prefetch and preemption
(R625 to R632), stop and start of threads (R614), flush (R636, R637), the queue, weight and control ports (R619,
R627, R629, R633), statistics, context and trace ports (R645 to R648), and the fault spill (R529). -/

namespace Sys2Proof.Machine

/-! ### Dispatch, prefetch, preemption -/

/-- Core `k` may be served by the Sower now (R612, R633, R639). -/
def State.servable (s : State) (k : Nat) : Bool :=
  !s.sys.inReset && !(s.core k).stopped && (k = 6 || (s.sys.fieldUp && s.sow.dispatch))

/-- Core `k` is a prefetch core (R628). -/
def State.prefetchCore (s : State) (k : Nat) : Bool := k = 6 || !s.sow.preempt.getLsbD k

/-- Urgency of the item that thread `t` holds. -/
def State.urgOf (s : State) (t : Nat) : Nat :=
  match (s.th t).item with
  | some it => (s.que it.q).urg
  | none => 0

/-- The pair that stands in the standby slot with thread `t`. -/
def State.standbyPair (s : State) (t : Nat) : Pair :=
  let h := s.th t
  { tid := t, item := h.item, held := h.resumed, urg := s.urgOf t, group := 0, age := 0, last := h.lastCore }

/-- A free core takes its next pair: the standby pair, otherwise the pair chosen for it (R625, R628). -/
def State.dispatchOn (s : State) (k : Nat) : State :=
  if !s.servable k || (s.core k).run.isSome then s
  else match (s.core k).standby with
    | some t => s.startPair k (s.standbyPair t) true
    | none =>
      match s.choose k with
      | (some p, s') => (s'.takePair p .running).startPair k p false
      | (none, _) => s

/-- The chosen pair of core `k` goes into its empty standby slot (R628). -/
def State.fillSlot (s : State) (k : Nat) : State :=
  match s.choose k with
  | (none, _) => s
  | (some p, s') =>
    let s := s'.takePair p .standby
    let s := s.modSow fun w => { w with stamp := w.stamp + 1 }
    let s := s.modCore k fun c => { c with standby := some p.tid, sbStamp := s.sow.stamp }
    s.trace k 1 p.tid ((p.item.map Item.q).getD 0) ((p.item.map Item.flowField).getD 0) (4 * p.urg)

/-- Core `k` runs a thread and has an empty standby slot. -/
def State.slotOpen (s : State) (k : Nat) : Bool :=
  s.servable k && s.prefetchCore k && (s.core k).run.isSome && (s.core k).standby.isNone

/-- PREFETCH on core `k`. -/
def State.prefetchOn (s : State) (k : Nat) : State := if s.slotOpen k then s.fillSlot k else s

/-- The better of two candidates of R631: lower urgency, then the later stamp, then the lower core. -/
def betterSlot (a b : Nat × Nat × Nat) : Bool :=
  a.1 < b.1 || (a.1 = b.1 && (b.2.1 < a.2.1 || (a.2.1 = b.2.1 && a.2.2 < b.2.2)))

/-- The best of the candidates (urgency, stamp, core). -/
def bestSlot : List (Nat × Nat × Nat) → Option Nat
  | [] => none
  | a :: l => some (l.foldl (fun b c => if betterSlot c b then c else b) a).2.2

/-- Preempt cores whose running thread holds an item of urgency below 3 (R631). -/
def State.preemptCores (s : State) : List (Nat × Nat × Nat) :=
  (List.range 6).filterMap fun k =>
    match (s.core k).run with
    | some t =>
      if s.sow.preempt.getLsbD k && s.servable k && s.urgOf t < 3 then some (s.urgOf t, (s.core k).runStamp, k) else none
    | none => none

/-- Standby slots of a part whose pair has an urgency below `u` (R631). -/
def State.lowerSlots (s : State) (cores : List Nat) (u : Nat) : List (Nat × Nat × Nat) :=
  cores.filterMap fun k =>
    match (s.core k).standby with
    | some t => if s.servable k && s.urgOf t < u then some (s.urgOf t, (s.core k).sbStamp, k) else none
    | none => none

/-- Preempt the thread of core `k` for the pair chosen (R632). While a result of it is outstanding the preemption
waits (R507), and while it stalls at a hinge access, which is no instruction boundary (R57). -/
def State.preemptOn (s : State) (k : Nat) : State :=
  match (if s.stalled k then none else (s.core k).run) with
  | none => s
  | some v =>
    let r := s.landInters k v
    if r.2 then r.1
    else
      let s0 := r.1.modTh v Thread.landDue
      if !(s0.th v).delayed.isEmpty then s0
      else match s0.choose k with
        | (none, _) => s0
        | (some p, s1) =>
          let h := s1.th v
          let s := s1.trace k 3 v ((h.item.map Item.q).getD 0) ((h.item.map Item.flowField).getD 0) p.tid
          let s := s.modCore k fun c => { c with preempts := if s.counting then inc32 c.preempts else c.preempts }
          let s := (s.modTh v fun h => { h with st := .ready }).freeCore k
          (s.takePair p .running).startPair k p false

/-- A pair is choosable and no core of the part that can take it is idle: R631. -/
def State.arrive (s : State) (cores : List Nat) : State :=
  let live := cores.filter s.servable
  match live with
  | [] => s
  | k0 :: _ =>
    let pairs := s.pairs k0
    if pairs.isEmpty || live.any (fun k => (s.core k).run.isNone) then s
    else
      let u := pairs.foldl (fun m p => max m p.urg) 0
      match (if u = 3 && k0 ≠ 6 then bestSlot s.preemptCores else none) with
      | some k => s.preemptOn k
      | none =>
        match live.find? s.slotOpen with
        | some k => s.fillSlot k
        | none =>
          match bestSlot (s.lowerSlots live u) with
          | some k => (s.unprefetch k k 0 false).fillSlot k
          | none => s

/-! ### Threads -/

/-- Service of the thread's item ends with its discard; an item fenced by the thread's trap goes too. -/
def State.dropItem (s : State) (t : Nat) : State :=
  let faulted := decide ((s.th t).st = .faulted)
  let s := (s.modTh t fun h => { h with item := none, yieldAge := none, resumed := false }).dropHeld t
  if faulted then s.modSow fun w => { w with fenced := w.fenced.filter fun p => p.2.2 ≠ t } else s

/-- The thread stands by on no core: a pair of it is cancelled (R630). -/
def State.leaveSlots (s : State) (t at_ : Nat) : State :=
  (List.range 7).foldl (fun s k => if (s.core k).standby = some t then s.unprefetch k at_ 3 false else s) s

/-- The thread runs on no core. -/
def State.leaveCores (s : State) (t : Nat) : State :=
  (List.range 7).foldl (fun s k => if (s.core k).run = some t then s.freeCore k else s) s

/-- The thread stops at an instruction boundary (R614); the end of its service is recorded, also of the item of zero words with
which a thread starts (R612, R643). -/
def State.stopNow (s : State) (t at_ : Nat) : State :=
  let s := s.leaveSlots t at_
  let k := s.coreOf t
  let s := if (s.th t).st = .running then (s.landInters k t).1 else s
  let s := (s.modTh t Thread.settle).dropOpen t
  let h := s.th t
  let s := if h.item.isSome || (h.resumed && (h.st = .running || h.st = .ready || h.st = .waitspace)) then
      s.trace k 6 t ((h.item.map Item.q).getD 0) ((h.item.map Item.flowField).getD 0) 1
    else s
  ((s.leaveCores t).dropItem t).modTh t fun h => { h with st := .stopped, stopping := false }

/-- The thread runs and its core stalls at a hinge access, which is no instruction boundary (R57). -/
def State.midAccess (s : State) (t : Nat) : Bool := (s.th t).st = .running && s.stalled (s.coreOf t)

/-- CMD STOP (R614); `at_` is the core that writes it. A thread that stalls at a hinge access stops once that completes. -/
def State.stopThread (s : State) (t at_ : Nat) : State :=
  if (s.th t).st = .stopped then s
  else if s.midAccess t then s.modTh t fun h => { h with stopping := true }
  else s.stopNow t at_

/-- CMD START (R614). DEDUCED (log 97): it does not move a thread that BREAK has parked, since R696 lists what ends its park, and
CMD START is not there. -/
def State.startThread (s : State) (t : Nat) : State :=
  if (s.th t).st = .stopped || ((s.th t).st = .faulted && (s.th t).trap ≠ 15) then s.modTh t fun h => { h with st := .idle, trap := 0 } else s

/-- Write of SOW_T (R614, R646). -/
def State.writeSowT (s : State) (t at_ v : Nat) : State :=
  let s := s.modTh t fun h =>
    { h with faultQ := fieldAt v 8 6
             listen := if 120 ≤ t then BitVec.ofNat 64 (fieldAt v 24 8 * 2 ^ 56) else h.listen }
  match fieldAt v 4 2 with
  | 1 => s.stopThread t at_
  | 2 => s.startThread t
  | _ => s

/-- Codes of SOW_T STATE (R613). -/
def TState.code : TState → Nat
  | .stopped => 0
  | .idle => 1
  | .running => 2
  | .standby => 3
  | .ready => 4
  | .waitspace => 5
  | .faulted => 6

/-- SOW_T as read. -/
def State.readSowT (s : State) (t : Nat) : Nat :=
  let h := s.th t
  h.st.code + h.faultQ * 2 ^ 8 + h.lastCore * 2 ^ 16 + (if 120 ≤ t then fieldAt h.listen.toNat 56 8 * 2 ^ 24 else 0)

/-! ### Flush -/

/-- Thread `t` has an open item of queue `q` that a flush discards. -/
def OpenItem.flushes (o : OpenItem) (q : Nat) : Bool := o.q = q && o.flushed.isNone && !o.dropped && !o.words.isEmpty

/-- Flush of queue `q` by a write from core `at_` (R636, R637). -/
def State.flush (s : State) (q at_ : Nat) : State :=
  let queued := (s.sow.store.filter fun it => it.q = q).length
  let slots := (List.range 7).filter fun k =>
    match (s.core k).standby with
    | some t => !(s.th t).resumed && (s.th t).item.any fun it => it.q = q
    | none => false
  let open_ := (List.range 128).filter fun t => (s.th t).openItem.any fun o => o.flushes q
  let n := queued + slots.length + open_.length
  let s := s.modSow fun w => { w with store := w.store.filter fun it => it.q ≠ q }
  let s := slots.foldl (fun s k => s.unprefetch k at_ 1 true) s
  let s := open_.foldl (fun s t => s.modTh t fun h =>
    { h with openItem := h.openItem.map fun o => { o with flushed := some (o.words.length, 0) } }) s
  let s := s.modSow fun w =>
    if q < 56 then { w with flushed := satAdd 65535 w.flushed n } else { w with flushedL := satAdd 255 w.flushedL n }
  s.trace at_ 9 0 q 0 (min 511 n)

/-- The flow of an open item: its header's, 0x000 where no word of it has been posted (R615). -/
def OpenItem.flow (o : OpenItem) : Nat := fieldAt (o.words.getD 0 0#32).toNat 20 10

/-- The last word of a flushed open item has been swallowed (R637); the entry names the flow of the item (R642). -/
def State.flushEnd (s : State) (k t : Nat) (o : OpenItem) (posted swallowed : Nat) : State :=
  (s.modTh t fun h => { h with openItem := none }).trace k 9 t o.q o.flow (512 + posted * 8 + swallowed)

/-! ### Queue, weight and control ports -/

/-- Sum of the depth limits of a part, with queue `q` at `l`. -/
def State.limitSum (s : State) (field : Bool) (q l : Nat) : Nat :=
  ((List.range 64).filter fun i => fieldQ i = field).foldl (fun n i => n + (if i = q then l else (s.que i).limit)) 0

/-- Write of SOW_Q (R619). -/
def State.writeSowQ (s : State) (q v : Nat) : State :=
  let l := fieldAt v 0 9
  if l = 0 || 256 < l || partSize (fieldQ q) < s.limitSum (fieldQ q) q l then
    s.modSow fun w => if fieldQ q then { w with rej := satInc 255 w.rej } else { w with rejL := satInc 255 w.rejL }
  else s.modQue q fun x => { x with limit := l, urg := fieldAt v 12 2, group := fieldAt v 16 3 }

/-- SOW_Q as read. -/
def State.readSowQ (s : State) (q : Nat) : Nat :=
  let x := s.que q
  x.limit + x.urg * 2 ^ 12 + x.group * 2 ^ 16 + s.depth q * 2 ^ 20

/-- Deficits and pointers return to 0 (R627). -/
def Sower.rewind (w : Sower) : Sower :=
  { w with ptrF := 0, defF := Vector.replicate 8 0, ptrL := 0, defL := Vector.replicate 8 0 }

/-- Write of a weight (R627): 0 stores 1. -/
def State.writeWeight (s : State) (g v : Nat) : State :=
  s.modSow fun w => { w with weights := vset w.weights g (if v % 256 = 0 then 1 else v % 256) }.rewind

/-- Write of SOW_CTL from core `at_` (R627, R629, R633). -/
def State.writeSowCtl (s : State) (at_ v : Nat) : State :=
  let on := bitAt v 1
  let mask := BitVec.ofNat 6 (fieldAt v 8 6)
  let s := (List.range 6).foldl (fun s k =>
    if (s.sow.dispatch && !on) || (mask.getLsbD k && !s.sow.preempt.getLsbD k) then s.unprefetch k at_ 2 false else s) s
  s.modSow fun w => { w with affinity := bitAt v 0, dispatch := on, preempt := mask }.rewind

/-- SOW_CTL as read. -/
def State.readSowCtl (s : State) : Nat :=
  bitNat s.sow.affinity + 2 * bitNat s.sow.dispatch + s.sow.preempt.toNat * 2 ^ 8

/-! ### Statistics, contexts, flows and trace -/

/-- The counts that SOW_STSEL SEL selects (SOW_ST0..5). DESIGN CHOICE (log 83): for SEL 71..127, of which the port table says
nothing, the six words read 0. -/
def State.stats (s : State) (sel : Nat) : Vector Word 6 :=
  if sel < 64 then
    let x := s.que sel
    #v[wordOf (s.depth sel % 512 + x.high % 512 * 2 ^ 16), wordOf x.dispatch, wordOf x.waitSum, wordOf x.waitMax,
       wordOf (s.placeCount sel), 0#32]
  else if sel < 71 then
    let c := s.core (sel - 64)
    #v[wordOf c.busy, wordOf c.idle, wordOf c.switches, wordOf c.prefetches, wordOf c.unprefetches, wordOf c.preempts]
  else Vector.replicate 6 0#32

/-- Every count except DEPTH returns to 0, and each HIGH takes the value given for its queue. -/
def State.zeroStats (s : State) (high : Nat → Nat) : State :=
  let s' := s.modSow fun w =>
    { w with cores := w.cores.map fun c =>
        { c with busy := 0, idle := 0, switches := 0, prefetches := 0, unprefetches := 0, preempts := 0 } }
  (List.range 64).foldl (fun x q =>
    x.modQue q fun y => { y with high := high q, dispatch := 0, waitSum := 0, waitMax := 0 }) s'

/-- SOW_STSEL CLEAR: HIGH takes DEPTH. -/
def State.clearStats (s : State) : State := s.zeroStats s.depth

/-- Write of SOW_STSEL by core `k`. -/
def State.writeStSel (s : State) (k v : Nat) : State :=
  let sel := fieldAt v 0 7
  let s := s.timed sel
  let s := s.modCore k fun c => { c with stSel := sel, stVal := s.stats sel }
  if bitAt v 8 then s.clearStats else s

/-- WORD after an access of a context window. -/
def nextWord (w : Nat) : Nat := if 45 ≤ w then 0 else w + 1

/-- A read of context word `i` of thread `t` through a window (R648). -/
def State.readContext (s : State) (t i : Nat) : Word :=
  let h := s.th t
  if h.st = .running then h.snap.getD i 0#32 else h.context t i

/-- A write of a context word through a window (R648): not while the thread runs or stands by, and never word 0. Instruction
addresses keep bits [1:0] at 0 (R496). -/
def State.writeContext (s : State) (t i : Nat) (v : Word) : State :=
  let h := s.th t
  if h.st = .running || h.st = .standby || i = 0 then s
  else s.modTh t fun h =>
    if i < 32 then { h with regs := vset h.regs i v }
    else if i < 44 then { h with rs := h.rs.set (i - 32) (fieldAt v.toNat 2 22 * 4) }
    else if i = 44 then
      { h with pc := fieldAt v.toNat 2 22 * 4, wait := h.wait.map fun (w : WaitPost) => { w with moved := true } }
    else if i = 45 then
      { h with ts := v.setWidth 20 &&& (if 120 ≤ t then lcTsMask else 0xFFFFF#20), rsd := min 12 (fieldAt v.toNat 20 4) }
    else h

/-- An access of SOW_CXDATA (or of SOW_LCXDATA, for LC's threads) by core `k`: the word read, and the state. -/
def State.contextAccess (s : State) (k : Nat) (latch : Bool) (write : Option Word) : Word × State :=
  let t := if latch then s.sow.lcxTid else (s.core k).cxTid
  let i := if latch then s.sow.lcxWord else (s.core k).cxWord
  let legal := if latch then 120 ≤ t else t < 120
  let r := if legal then s.readContext t i else 0#32
  let s := match write with
    | some v => if legal then s.writeContext t i v else s
    | none => s
  (r, if latch then s.modSow fun w => { w with lcxWord := nextWord i } else s.modCore k fun c => { c with cxWord := nextWord i })

/-- SOW_FLSTAT for flow `f`; TID is free where keeper firmware that the model does not follow holds the flow (log 19). -/
def State.flowStat (s : State) (f : Nat) : Nat :=
  let waiting := (s.sow.store.filter fun it => it.flow = f).length
  if f = 0 then waiting * 2 ^ 16
  else match s.sow.fenced.find? fun p => p.1 = f with
    | some p => 2 + p.2.2 * 2 ^ 8 + waiting * 2 ^ 16
    | none =>
      match s.heldItems.find? fun p => p.1.flow = f with
      | some p => 1 + p.2 * 2 ^ 8 + waiting * 2 ^ 16
      | none => match s.formItems.find? fun it => it.flow = f with
        | some it => 1 + it.server.1 * 2 ^ 8 + waiting * 2 ^ 16
        | none => waiting * 2 ^ 16

/-- Write of SOW_TR_CTL. -/
def State.writeTrCtl (s : State) (v : Nat) : State :=
  s.modSow fun w =>
    let w := { w with trCores := BitVec.ofNat 7 (fieldAt v 0 7), trWrap := bitAt v 8, trPause := bitAt v 10 }
    if bitAt v 9 then { w with trace := [], trMissed := 0 } else w

/-- SOW_TR_CTL as read. -/
def State.readTrCtl (s : State) : Nat :=
  s.sow.trCores.toNat + 2 ^ 8 * bitNat s.sow.trWrap + 2 ^ 10 * bitNat s.sow.trPause

/-- A read of SOW_TR_LO: low word of entry IDX; the high word is captured and IDX advances. -/
def State.readTrLo (s : State) : Word × State :=
  let e := s.sow.trace.getD s.sow.trIdx 0#64
  (lowWord e, s.modSow fun w => { w with trHi := highWord e, trIdx := (w.trIdx + 1) % 4096 })

/-- SOW_CORE and SOW_LCORE. -/
def State.readCore (s : State) (k : Nat) : Nat :=
  let c := s.core k
  c.run.getD 0 + 2 ^ 7 * bitNat c.run.isSome + 2 ^ 8 * c.standby.getD 0 + 2 ^ 15 * bitNat c.standby.isSome
    + 2 ^ 16 * (match c.run with
      | some t => s.urgOf t
      | none => 0)

/-! ### Spill and claims -/

/-- Remove the oldest spilled item of queue `q`. -/
def takeSpill (q : Nat) : List (Nat × List Word) → Option (List Word) × List (Nat × List Word)
  | [] => (none, [])
  | p :: l => if p.1 = q then (some p.2, l) else
    let r := takeSpill q l
    (r.1, p :: r.2)

/-- The spill posts its oldest item for queue `q`, in its turn among the claimants of the queue (R529, R634). -/
def State.spillPost (s : State) (q : Nat) : State :=
  match takeSpill q s.sow.spill with
  | (some w, l) =>
    if s.hasRoom q && s.waiter q = some .spilled then ((s.served q).modSow fun x => { x with spill := l }).visible q w else s
  | (none, _) => s

/-- A place of queue `q` goes to the claimant that waits first, where that is a thread or an item already written by
hardware (R634). -/
def State.grant (s : State) (q : Nat) : State :=
  if !s.hasRoom q then s
  else match s.waiter q with
    | some (.thread t) =>
      (s.served q).modTh t fun h =>
        { h with st := .ready, openItem := some { q := q, words := [], flushed := none, dropped := false } }
    | some (.hw w) => (s.served q).visible q w
    | _ => s

end Sys2Proof.Machine
end

