-- ==== Sys2Proof/Machine/Bays.lean ====
section
/-! DEFINITION. Bay channels: states and transitions (R412 to R417), trips (R402 to R407), lock-out (R425 to R430),
proofs (R418 to R424), automatic tags (R481), and the bay items of keeper firmware (R146 to R154, R163). -/

namespace Sys2Proof.Machine

/-! ### Accessors and names -/

def State.bayAt (s : State) (n : Nat) : Bay := vget s.bays.bay n
def State.modBays (s : State) (f : Bays → Bays) : State := { s with bays := f s.bays }
def State.modBay (s : State) (n : Nat) (f : Bay → Bay) : State :=
  s.modBays fun b => { b with bay := vmod b.bay n f }
def State.modEnv (s : State) (f : Env → Env) : State := { s with env := f s.env }

def Bay.rail (b : Bay) : Rail → RailSt
  | .main => b.main
  | .aux => b.aux

def Bay.modRail (b : Bay) (r : Rail) (f : RailSt → RailSt) : Bay :=
  match r with
  | .main => { b with main := f b.main }
  | .aux => { b with aux := f b.aux }

/-- State codes of STATE (R412). -/
def bayCode : BState → Nat
  | .empty => 0
  | .presentOff => 1
  | .starting => 2
  | .on => 3
  | .stopping => 4
  | .tripped => 5
  | .locked => 6
  | .held => 7

/-- The eight bay states as BAY INFO prints them (R157). -/
def bayName : BState → String
  | .empty => "EMPTY"
  | .presentOff => "PRESENT-OFF"
  | .starting => "STARTING"
  | .on => "ON"
  | .stopping => "STOPPING"
  | .tripped => "TRIPPED"
  | .locked => "LOCKED"
  | .held => "HELD"

def railNo : Rail → Nat
  | .main => 0
  | .aux => 1

def railName : Rail → String
  | .main => "MAIN"
  | .aux => "AUX"

/-- The lock latch of bay `n` (R400). -/
def State.locked (s : State) (n : Nat) : Bool := s.sys.lockLatch.getLsbD n

/-- The row clamp or the kill path holds the bay's gates (R399, R400). -/
def State.clamped (s : State) (n : Nat) : Bool := s.sys.clamps.getLsbD (n / 8) || s.locked n

/-! ### Tags -/

def State.modTags (s : State) (f : Tags → Tags) : State := { s with tags := f s.tags }

/-- The automatic pattern of colour `c` of bay `n` (R481). -/
def State.autoPattern (s : State) (n c : Nat) : Pattern :=
  let st := (s.bayAt n).st
  match c with
  | 0 =>
    match st with
    | .on => .steady
    | .starting => .blink4
    | .held => .blink1
    | _ => .off
  | 1 =>
    let lever := s.keyClosed (bayKey n 2)
    match st with
    | .locked => .blink4
    | .tripped => if lever then .breathe else .steady
    | .starting => if lever then .blink1 else .off
    | .on => if lever then .blink1 else .off
    | .held => if lever then .blink1 else .off
    | .stopping => if lever then .blink1 else .off
    | _ => if lever then .breathe else .off
  | _ => if (s.bayAt n).locate.isSome then .blink1 else .off

/-- The pattern code that TAG_PAT of bay `n` takes for colour `c`: the host's override, otherwise automatic (R481). -/
def State.tagCode (s : State) (n c : Nat) : Nat :=
  ((vget (vget s.tags.ovr n) c).getD (s.autoPattern n c)).code

/-- Firmware writes TAG_PAT of bay `n`, in field state (R480, R481); while DOT is held in FIELD every LED is STEADY (R475). -/
def State.showTag (s : State) (n : Nat) : State :=
  if s.sys.fieldUp then
    s.modTags fun t =>
      { t with pat := vset t.pat n (if s.face.dot && s.sys.kst = .field then #v[1, 1, 1] else #v[s.tagCode n 0, s.tagCode n 1, s.tagCode n 2]) }
  else s

/-- Firmware writes every TAG_PAT. -/
def State.showTags (s : State) : State := (List.range 96).foldl State.showTag s

/-! ### Transitions -/

/-- The bay draws or will draw current: STARTING, ON or HELD (R447). -/
def BState.active : BState → Bool
  | .starting => true
  | .on => true
  | .held => true
  | _ => false

/-- The channel with its gates turned off (R398); its BLANK window and its comparators go on (R402, R407). -/
def RailSt.off (r : RailSt) : RailSt := { r with good := false }

/-- The bay changes to a state whose gates are not driven; a start under measurement ends unmeasured (R444). -/
def Bay.turnOff (b : Bay) (st : BState) : Bay :=
  { b with st := st, main := b.main.off, aux := b.aux.off, measure := none, points := [], startTick := none }

/-- The bay leaves the release queue and the start order (R435, R436), and the planner replans where it leaves
STARTING, ON or HELD (R453). -/
def State.leaveOrders (s : State) (n : Nat) : State :=
  let act := (s.bayAt n).st.active
  s.modEnv fun e => { e with heldQ := e.heldQ.filter (· ≠ n), order := e.order.filter (· ≠ n), replanDue := e.replanDue || act }

/-- Bay `n` goes to a state with its gates off or sinking. -/
def State.bayDown (s : State) (n : Nat) (st : BState) : State :=
  ((s.leaveOrders n).modBay n fun b => b.turnOff st).showTag n

/-- The state a bay takes when it stands off: by its PRESENT key (R412). -/
def State.restingState (s : State) (n : Nat) : BState := if s.present n then .presentOff else .empty

/-- Entry to STARTING (R402, R403, R435, R436). -/
def State.enterStarting (s : State) (n : Nat) : State :=
  let go : RailSt → RailSt := fun r => { r with blankRun := r.work.blank ≠ 0, slowCount := 0, good := false }
  let s := s.modBay n fun b =>
    { b with st := .starting, main := go b.main, aux := go b.aux, measure := some s.cal.tick, points := [], startTick := some s.cal.tick }
  (s.modEnv fun e => { e with heldQ := e.heldQ.filter (· ≠ n), order := n :: e.order.filter (· ≠ n)
                              lastStart := some s.cal.tick }).showTag n

/-- The guard is holding (R434). -/
def State.guardHolding (s : State) : Bool := s.env.hold || !s.env.heldQ.isEmpty

/-- A command that the table of R412 refuses (R413). -/
def State.cmdRejected (s : State) (n : Nat) : State := s.modBay n fun b => { b with cmdRej := satInc 255 b.cmdRej }

/-- START is legal now (R412, R413). -/
def State.startLegal (s : State) (n : Nat) : Bool :=
  ((s.bayAt n).st = .presentOff || (s.bayAt n).st = .tripped) && s.present n && s.latched n

/-- START written to CTL (R412, R413, R434). -/
def State.bayStart (s : State) (n : Nat) : State :=
  if !s.startLegal n then s.cmdRejected n
  else if s.guardHolding then
    ((s.modBay n fun b => { b with st := .held }).modEnv fun e => { e with heldQ := e.heldQ ++ [n] }).showTag n
  else s.enterStarting n

/-- STOP written to CTL (R412, R413). -/
def State.bayStop (s : State) (n : Nat) : State :=
  match (s.bayAt n).st with
  | .starting => s.bayDown n .stopping
  | .on => s.bayDown n .stopping
  | .held => s.bayDown n .stopping
  | .tripped => s.bayDown n .stopping
  | _ => s.cmdRejected n

/-- STARTING ends in ON once both rails are GOOD and both BLANK windows have ended (R412). -/
def State.checkOn (s : State) (n : Nat) : State :=
  let b := s.bayAt n
  if b.st = .starting && b.main.good && b.aux.good && !b.main.blankRun && !b.aux.blankRun then
    (s.modBay n fun b => { b with st := .on }).showTag n
  else s

/-! ### Bay handles -/

/-- Counts of a completion (R150); bays that a replayed BAY ON left out are counted in none (R281). -/
def State.bayNums (s : State) (h : Handle) (bays : BitVec 96) (on : Bool) : List Nat :=
  let l := onesOf bays
  if on then [(l.filter fun n => (s.bayAt n).st = .on && !h.skip.getLsbD n).length, h.cntE, h.cntU, h.cntL]
  else
    [(l.filter fun n => (s.bayAt n).st = .presentOff || (s.bayAt n).st = .empty).length,
     (l.filter fun n => (s.bayAt n).st = .empty).length, 0, h.cntL]

/-- Bay items of the handle that no work of keeper firmware has begun on: queued, or held by a thread that the model
follows; or lost with a thread that recovery has not come to (R638). -/
def State.itemsLeft (s : State) (kk seq : Nat) : Bool :=
  (s.sow.store.any fun it => it.isWork && it.names kk seq)
    || (s.heldItems.any fun p => p.1.isWork && p.1.names kk seq && !s.bays.work.any fun w => w.tid = some p.2)
    || s.sow.threads.any fun h => h.st = .faulted && h.took.any fun it => it.names kk seq

/-- The last item of a handle has ended, and its records are durable (R261): its outcome is fixed (R150, R151, R163, R167). One
that waits for its replay goes on then. -/
def State.worksDone (s : State) (kk seq : Nat) : State :=
  match s.openAt kk seq with
  | none => s
  | some h =>
    if (s.bays.work.any fun w => w.kk = kk && w.seq = seq && !w.fin) || s.itemsLeft kk seq || !h.left.isEmpty then s
    else if h.compl.isSome then s.finishDue kk seq
    else if !h.running || s.recordsDue kk seq then s
    else match h.form with
      | .bayOn b t =>
        let nums := s.bayNums h b true
        s.retire kk seq (if t = 0#96 then complDone nums false else { complFailed 1 false with nums := nums, tripped := t })
      | .bayOff b => s.retire kk seq (complDone (s.bayNums h b false) false)
      | .forget _ _ => s.retire kk seq (complDone [h.cntE] false)
      | .tag _ _ _ => s.retire kk seq (complDone [h.cntE] false)
      | .tagAuto _ => s.retire kk seq (complDone [h.cntE] false)
      | _ => s

/-- The last start of a BAY ON has been made: it commits (R140), once the records that it asked for before are durable (R261). -/
def State.commitStarts (s : State) (kk seq : Nat) : State :=
  let mine := s.bays.work.filter fun w => w.kk = kk && w.seq = seq
  if !s.recordsDue kk seq && !s.itemsLeft kk seq && mine.all fun w => w.fin || w.acted && !s.env.waiting.contains w.bay then
    match s.openAt kk seq with
    | some h => match h.form with
      | .bayOn _ _ => if h.left.isEmpty then s.reqCommit kk seq else s
      | _ => s
    | none => s
  else s

/-- An item ends for its handle, with the count that its end adds there; a thread that the model follows holds it until its
service ends (R566). -/
def State.endWork (s : State) (w : Work) (f : Handle → Handle) : State :=
  let s := s.modBays fun b =>
    { b with work := if w.tid.isSome then b.work.map fun x => if x = w then { x with fin := true } else x
                     else b.work.filter fun x => x ≠ w }
  let s := (if w.tid.isSome then s else s.endItem w.item).modOpen w.kk w.seq f
  (s.commitStarts w.kk w.seq).worksDone w.kk w.seq

def bumpE (h : Handle) : Handle := { h with cntE := h.cntE + 1 }
def bumpU (h : Handle) : Handle := { h with cntU := h.cntU + 1 }
def bumpL (h : Handle) : Handle := { h with cntL := h.cntL + 1 }

/-- Change an item in place. -/
def State.setWork (s : State) (w w' : Work) : State :=
  s.modBays fun b => { b with work := b.work.map fun x => if x = w then w' else x }

/-- The start of the bay's item still waits in the planner (R450, R451). -/
def State.pendingStart (s : State) (n : Nat) : Bool := s.env.waiting.contains n

/-- The handle's records name bay `n` as tripped (R154). -/
def State.tripNoted (s : State) (kk seq n : Nat) : Bool :=
  (s.openAt kk seq).any fun h => match h.form with
    | .bayOn _ t => t.getLsbD n
    | _ => false

/-- A BAY ON item in service that has acted ends as its bay's state says (R146, R148); one whose bay has tripped ends once the
handle's STEP record is durable (R154, R261). -/
def State.onActed (s : State) (w : Work) : State :=
  if s.pendingStart w.bay then s
  else if s.tripNoted w.kk w.seq w.bay then (if s.recordsDue w.kk w.seq then s else s.endWork w id)
  else match (s.bayAt w.bay).st with
    | .starting => s.commitStarts w.kk w.seq
    | .held => s.commitStarts w.kk w.seq
    | .stopping => s.commitStarts w.kk w.seq
    | .on => s.endWork w id
    | .tripped => s.endWork w id
    | .locked => s.endWork w bumpL
    | .empty => s.endWork w bumpE
    | .presentOff => s.endWork w (if s.latched w.bay then id else bumpU)

/-- The item's handle has been cancelled (R251). -/
def State.calledOff (s : State) (w : Work) : Bool := (s.openAt w.kk w.seq).any Handle.cancelled

/-- The pending bays with bay `n`, in the order in which their items were dispatched (R450). -/
def State.pendingWith (s : State) (n : Nat) : List Nat :=
  (s.bays.work.map Work.bay).filter fun m => m = n || s.env.waiting.contains m

/-- A BAY ON item acts on the bay as it stands (R146 to R148); once its handle is cancelled it starts no bay (R153). -/
def State.onAct (s : State) (w : Work) : State :=
  let w' := { w with acted := true }
  match (s.bayAt w.bay).st with
  | .stopping => s
  | .empty => s.endWork w bumpE
  | .locked => s.endWork w bumpL
  | .on => s.endWork w id
  | .starting => s.setWork w w'
  | .held => s.setWork w w'
  | _ =>
    if !s.latched w.bay then s.endWork w bumpU
    else if s.calledOff w then s.endWork w id
    else (s.setWork w w').modEnv fun e => { e with waiting := s.pendingWith w.bay, replanDue := true }

/-- A BAY OFF item drives its bay off, and ends when the bay is no longer STOPPING (R149). -/
def State.offAct (s : State) (w : Work) : State :=
  match (s.bayAt w.bay).st with
  | .stopping => s
  | .starting => ((s.bayStop w.bay).setWork w { w with acted := true }).reqCommit w.kk w.seq
  | .on => ((s.bayStop w.bay).setWork w { w with acted := true }).reqCommit w.kk w.seq
  | .held => ((s.bayStop w.bay).setWork w { w with acted := true }).reqCommit w.kk w.seq
  | .tripped => ((s.bayStop w.bay).setWork w { w with acted := true }).reqCommit w.kk w.seq
  | .locked => s.endWork w bumpL
  | _ => s.endWork w id

/-- A PROFILE FORGET item erases its bay's profile once no start of the bay is being measured, and waits until that is written
(R163, R446). Its handle counts the profiles that were LEARNED. -/
def State.forgetAct (s : State) (w : Work) : State :=
  if (s.bayAt w.bay).measure.isSome || w.acted then s
  else
    let known := learnedBytes (s.profileBytes w.bay)
    ((s.eraseProfile w.bay).setWork w { w with acted := true }).modOpen w.kk w.seq fun h =>
      if known then { h with cntE := h.cntE + 1 } else h

/-- The erasure of bay `n` is written (R163, R446): one STEP record, and the first commits the handle once it is durable (R140); the
item ends once both are (R261). Where the handle's outcome is fixed already, the item ends at once and writes none (R251). -/
def State.eraseEnds (s : State) (n : Nat) : State :=
  match s.bays.work.find? fun w => w.bay = n && w.kind = .forget && w.acted && !w.fin with
  | none => s
  | some w =>
    if (s.openAt w.kk w.seq).any fun h => h.compl.isNone then
      (s.modOpen w.kk w.seq fun h => match h.form with
        | .forget b e => { h with form := .forget b (putBit e n true) }
        | _ => h).reqStep w.kk w.seq
    else s.endWork w id

/-- The items of a PROFILE FORGET end whose erasures' records are durable. -/
def State.forgotten (s : State) (kk seq : Nat) (e : BitVec 96) : State :=
  (s.bays.work.filter fun w => w.kk = kk && w.seq = seq && w.acted && !w.fin && e.getLsbD w.bay).foldl (fun s w => s.endWork w id) s

/-- The change that a TAG form makes to a bay's overrides (R167). -/
def Form.tagSet : Form → Vector (Option Pattern) 3 → Vector (Option Pattern) 3
  | .tag _ c p => fun v => vset v c.code (some p)
  | _ => fun _ => Vector.replicate 3 none

/-- A TAG item sets its bay's overrides, and its handle counts the bay where that changes a stored setting (R167). The first
change commits the form (R140), and the items after it wait until the COMMITTED record is durable (R261). -/
def State.tagAct (s : State) (w : Work) : State :=
  match s.openAt w.kk w.seq with
  | none => s.endWork w id
  | some h =>
    if h.compl.isSome then s.endWork w id
    else if !h.running || (h.committing && h.phase ≠ .committed) then s
    else
      let v := vget s.tags.ovr w.bay
      let s := (s.modTags fun t => { t with ovr := vset t.ovr w.bay (h.form.tagSet v) }).showTag w.bay
      if h.form.tagSet v = v then s.endWork w id else (s.reqCommit w.kk w.seq).endWork w fun h => { h with cntE := h.cntE + 1 }

/-- The thread that holds the item is parked by a BREAK (R696). -/
def State.parked (s : State) (w : Work) : Bool := w.tid.any fun t => (s.th t).st = .faulted

/-- One item in service looks at its bay. -/
def State.settleOne (s : State) (w : Work) : State :=
  if !(s.bays.work.contains w) || w.fin || s.parked w then s
  else match w.kind with
    | .on => if w.acted then s.onActed w else s.onAct w
    | .off => s.offAct w
    | .forget => s.forgetAct w
    | .tag => s.tagAct w

/-! ### Taking up bay items -/

/-- The kind of a form's bay items. -/
def Form.work : Form → WorkKind
  | .bayOff _ => .off
  | .forget _ _ => .forget
  | .tag _ _ _ => .tag
  | .tagAuto _ => .tag
  | _ => .on

/-- Keeper firmware's work on an item of Q1: of the open handle that it names, on the bay of its flow. -/
def State.workOf (s : State) (it : Item) (tid : Option Nat) : Option Work :=
  if !it.isWork then none
  else (s.hnd.opens.find? fun h => it.names h.kk h.seq).map fun h =>
    { kk := h.kk, seq := h.seq, bay := it.flow - 1, kind := h.form.work, acted := false, item := it, tid := tid }

/-- The oldest item of Q1 on bay `n`'s flow. -/
def State.bayItem (s : State) (n : Nat) : Option Item := s.sow.store.find? fun it => it.q = 1 && it.flow = n + 1

/-- The next item of bay `n` for keeper firmware: one that the Sower has dispatched to a keeper thread that the model follows,
otherwise the oldest of Q1, where it is eligible (R152, R620). -/
def State.nextWork (s : State) (n : Nat) : Option Work :=
  match s.heldItems.find? fun p => p.1.q = 1 && p.1.flow = n + 1 && p.2 < 24 && (s.th p.2).st = .running
      && !s.bays.work.any fun w => w.tid = some p.2 with
  | some p => s.workOf p.1 (some p.2)
  | none => match s.bayItem n with
    | some it => if s.eligible it then s.workOf it none else none
    | none => none

/-- Keeper firmware serves the bay's key items that are older than its next item of Q1; what it does with them the spec does
not say, and it changes nothing here (R472, R620, log 19). -/
def State.serveBayKeys (s : State) (n : Nat) : State :=
  if s.flowHeld (n + 1) || !s.sow.dispatch then s
  else
    let last := (s.bayItem n).map Item.age
    (s.sow.store.filter fun it => it.q = 5 && it.flow = n + 1 && last.any fun a => decide (it.age < a)).foldl State.serveItem s

/-- The item leaves its queue for keeper firmware, or stays with the thread that holds it (R616, R645); a BAY ON item makes the
planner plan again (R453). -/
def State.takeUp (s : State) (w : Work) : State :=
  let s := s.modBays fun b => { b with work := b.work ++ [w] }
  let s := if w.kind = .on then s.modEnv fun e => { e with replanDue := true } else s
  if w.tid.isSome then s else s.takeUpItem w.item

/-- The item of bay `n` is dispatched, where it is of kind `k`. -/
def State.dispatchWork (s : State) (n : Nat) (ok : WorkKind → Bool) : State :=
  let s := s.serveBayKeys n
  match s.nextWork n with
  | some w =>
    if ok w.kind && s.sys.fieldUp && (w.tid.isSome || s.sow.dispatch) then (s.takeUp w).settleOne w else s
  | none => s

/-- The bays of a TAG form. -/
def Form.tagBays : Form → BitVec 96
  | .tag b _ _ => b
  | .tagAuto b => b
  | _ => 0#96

/-- Keeper firmware serves the items of TAG forms as they come (R167): they wait for no event of their own. -/
def State.serveTags (s : State) : State :=
  s.hnd.opens.foldl (fun s h =>
    if h.running && h.compl.isNone then (onesOf h.form.tagBays).foldl (fun s n => s.dispatchWork n fun k => k = .tag) s else s) s

/-- The plots that are loaded. -/
def State.loadedPlots (s : State) : List Nat := (List.range 16).filter fun t => (vget s.plots t).st = .running

/-- The REST item of plot `t` (R45 step 3): on its plot queue and its flow; the spec gives it no type, and the model leaves
the type free (log 10). -/
def State.restItem (s : State) (t : Nat) : State :=
  let d := s.draw
  let w := [header 0 (0x61 + t) t ((Config.freeWord d.1).toNat % 65536)]
  d.2.hwPost (24 + t) (.hw w) w

/-- Step 2 of a REST is done once no bay is STOPPING, and step 3 begins: the plots' REST items are posted (R45). -/
def State.restPlots (s : State) : State :=
  if s.sys.kst = .resting && s.sys.restStep = 2 && (List.range 96).all fun n => (s.bayAt n).st ≠ .stopping then
    let s := s.modSys fun y => { y with restStep := 3 }
    s.loadedPlots.foldl State.restItem s
  else s

/-- Every item in service looks at its bay, oldest first, and a REST goes on where the last bay has stopped. -/
def State.settle (s : State) : State := (s.bays.work.foldl State.settleOne s).serveTags.restPlots

/-! ### Trips -/

def tripName (c : Nat) : String :=
  match c with
  | 1 => "FAST"
  | 2 => "SLOW"
  | 3 => "SHED"
  | _ => "GATE"

/-- An item of the handle for bay `n` has not been taken up yet. -/
def State.itemWaits (s : State) (kk seq n : Nat) : Bool := s.sow.store.any fun it => it.isWork && it.names kk seq && it.flow = n + 1

/-- Open BAY ON handles that name bay `n` and whose item for it has been dispatched: each records the trip in a STEP
(R151, R154). -/
def State.noteTrip (s : State) (n : Nat) : State :=
  s.hnd.opens.foldl (fun s h =>
    match h.form with
    | .bayOn b t =>
      if h.running && h.compl.isNone && b.getLsbD n && !t.getLsbD n && !h.left.contains n && !h.skip.getLsbD n
          && !s.itemWaits h.kk h.seq n then
        (s.modOpen h.kk h.seq fun h => { h with form := .bayOn b (putBit t n true) }).reqStep h.kk h.seq
      else s
    | _ => s) s

/-- Comparators act on the bay: STARTING and ON (R402, R403, R407). -/
def BState.driven : BState → Bool
  | .starting => true
  | .on => true
  | _ => false

/-- A trip decision of cause `c` (R405, R406): one trip, from STARTING or ON only (R407, R412). -/
def State.trip (s : State) (n c : Nat) (rail : Rail) : State :=
  if !(s.bayAt n).st.driven then s
  else
    let s := s.bayDown n .tripped
    let s := s.modBay n fun b =>
      { b with tripCause := c, tripRail := rail, tripEv := true, trips := satInc 65535 b.trips }
    let s := s.notice ("^BAY " ++ decText n ++ " TRIPPED " ++ tripName c ++ " " ++ railName rail)
    (s.noteTrip n).settle

/-- FAST-OVER (R402, R407, R421). -/
def State.fastOver (s : State) (n : Nat) (rail : Rail) : State :=
  let s := s.modBay n fun b => b.modRail rail fun r => { r with fastOver := true }
  let r := (s.bayAt n).rail rail
  if r.blankRun || r.frozen then s else s.trip n 1 rail

/-- SLOW-TRIP: after an over sample the count is at least TRIP_DLY × 1,000 (R403). The samples of the µs ticks before it are in
the command, since µs ticks are no commands (log 3); a count above that stands where TRIP_DLY has been lowered, and how far is
free. A proof repeats the last sample before it, so it does not hold the decision back (R421). In another state the comparator
only reads over (R407). -/
def State.slowTrip (s : State) (n : Nat) (rail : Rail) : State :=
  let d := s.draw
  let s := d.2.modBay n fun b => b.modRail rail fun r =>
    { r with slowOver := true
             slowCount := if b.st.driven then r.work.dly * 1000 + (Config.freeWord d.1).toNat else r.slowCount }
  s.trip n 2 rail

/-- GATE-TIMEOUT (R404). -/
def State.gateTimeout (s : State) (n : Nat) (rail : Rail) : State :=
  if (s.bayAt n).st = .starting && !((s.bayAt n).rail rail).good then s.trip n 4 rail else s

/-- GATE-GOOD: the rail's gate stands at or above its row reference + 8 V (R397), in whatever state the bay is: a gate that
is shorted to a rail on the board stands there in LOCKED too (R400). -/
def State.gateGood (s : State) (n : Nat) (rail : Rail) : State :=
  ((s.modBay n fun b => b.modRail rail fun r => { r with good := true }).checkOn n).settle

/-- BLANK-WINDOW-END (R402, R412): FAST is armed; an output that reads over trips. Whether one that has read over still does is
free (log 86); one that does not reads not over from here on. -/
def State.blankEnd (s : State) (n : Nat) (rail : Rail) : State :=
  if !((s.bayAt n).rail rail).blankRun then s
  else
    let s := s.modBay n fun b => b.modRail rail fun r => { r with blankRun := false }
    let r := (s.bayAt n).rail rail
    let c := if r.fastOver then s.freeCheck else (false, s)
    let c := (c.1, c.2.modBay n fun b => b.modRail rail fun r => { r with fastOver := c.1 })
    if c.1 && !r.frozen then c.2.trip n 1 rail else (c.2.checkOn n).settle

/-- GATES-BELOW-1V: neither gate stands above the GOOD threshold (R397, R400), and STOPPING ends (R412). -/
def State.gatesDown (s : State) (n : Nat) : State :=
  let s := s.modBay n fun b => { b with main := { b.main with good := false }, aux := { b.aux with good := false } }
  if (s.bayAt n).st = .stopping then
    ((s.modBay n fun b => { b with st := s.restingState n }).showTag n).settle
  else s

/-! ### Lock-out -/

def State.setLatch (s : State) (n : Nat) (b : Bool) : State :=
  s.modSys fun y => { y with lockLatch := putBit y.lockLatch n b }

/-- A lock-out condition of cause `c` (R425): a bay already LOCKED records it in FAULT only. -/
def State.lockOut (s : State) (n c : Nat) (rail : Rail) : State :=
  let fault : Bay → Bay := fun b => { b with lockCause := c, lockRail := rail, lockEv := true }
  if (s.bayAt n).st = .locked then s.modBay n fault
  else
    let s := ((s.setLatch n true).bayDown n .locked).modBay n fault
    let words := [header 1 0 0 0xFF13, wordOf (n + 256 * c + 4096 * railNo rail)]
    (s.hwPost s.hng.f2lQ (.hw words) words).settle

/-- GATE-OFF-LOCKOUT (R415): its states are those with the gates off or sinking. -/
def State.gateOff (s : State) (n : Nat) (mainUp auxUp : Bool) : State :=
  if (s.bayAt n).st.driven || (s.bayAt n).st = .locked || !(mainUp || auxUp) then s
  else s.lockOut n 4 (if mainUp then .main else .aux)

/-- A copy of the protected registers with register `i` changed by `x`, to another value of its width. -/
def Chan.upset (c : Chan) (i x : Nat) : Chan :=
  match i with
  | 0 => { c with isrc := (c.isrc + 1 + x % 63) % 64 }
  | 1 => { c with fast := (c.fast + 1 + x % 63) % 64 }
  | 2 => { c with slow := (c.slow + 1 + x % 255) % 256 }
  | 3 => { c with blank := (c.blank + 1 + x % 4095) % 4096 }
  | _ => { c with dly := (c.dly + 1 + x % 1023) % 1024 }

/-- SHADOW-MISMATCH (R418): the two copies of a register differ, or a parity fails. Which register it is, and which copy and
which bits are wrong, is free. -/
def State.shadowFails (s : State) (n : Nat) (rail : Rail) (parity : Bool) : State :=
  let d := s.draw
  let e := d.2.draw
  let i := (Config.freeWord d.1).toNat
  let x := (Config.freeWord e.1).toNat
  if parity then
    (e.2.modBay n fun b => b.modRail rail fun r => { r with parity := putBit r.parity (i % 10) false }).lockOut n 3 rail
  else
    (e.2.modBay n fun b => b.modRail rail fun r =>
      if i % 2 = 0 then { r with work := r.work.upset (i / 2 % 5) x } else { r with shadow := r.shadow.upset (i / 2 % 5) x }).lockOut
        n 2 rail

/-- The checker finds the copies and parities of a rail in agreement. -/
def RailSt.agree (r : RailSt) : Bool := r.work = r.shadow && r.parity = BitVec.allOnes 10

/-- PROOF AGREE. -/
def Bay.agree (b : Bay) : Bool := b.main.agree && b.aux.agree

/-- A write of bay `n`'s SYS_LOCK bit (R428, R430). -/
def State.writeLock (s : State) (n : Nat) (b : Bool) : State :=
  if b = s.locked n then s
  else if b then
    let s := s.setLatch n true
    if s.sys.fieldUp then ((s.bayDown n .locked).modBay n fun x => { x with lockEv := true }).settle else s
  else
    let s := s.setLatch n false
    if s.sys.fieldUp && (s.bayAt n).st = .locked then
      ((s.modBay n fun x => { x with st := s.restingState n }).showTag n).settle
    else s

/-! ### Lock records (R427, R440, R442) -/

/-- The lock line of bay `n`. -/
def lockLine (n : Nat) : Nat := 2563 + 4 * n

/-- Bytes of a lock record. -/
def lockBytes (locked : Bool) (cause rail tick : Nat) : List Byte :=
  let b := [0x4B#8, byteOf (bitNat locked), byteOf cause, byteOf rail] ++ leBytes 4 tick ++ List.replicate 52 0#8
  b ++ leBytes 4 (crc32c b)

/-- LC asks for the write of the lock record of bay `n`: a write outside the journal (R739). -/
def State.putLock (s : State) (n : Nat) (locked : Bool) (cause rail : Nat) : State :=
  s.furPut (lockLine n) (lockBytes locked cause rail (s.cal.tick % pow32))

/-- The lock record of bay `n` as read: locked, cause, rail (R442). -/
def State.lockRecord (s : State) (n : Nat) : Bool × Nat × Nat :=
  let l := s.furLine (lockLine n)
  if unitAt l 0 1 ≠ 0x4B then (false, 0, 0)
  else if crc32c (l.take 60) ≠ unitAt l 60 4 then (true, 1, 0)
  else (unitAt l 1 1 = 1, unitAt l 2 1, unitAt l 3 1)

/-- A lock-out item of the channels (R425). -/
def Item.isLockOut (it : Item) : Bool := it.typ = 0xFF13

/-- LC serves the oldest lock-out item: it writes the lock record, and the notice follows once that is durable (R425,
R427). -/
def State.serveLock (s : State) : State :=
  match s.sow.store.find? fun it => it.q = s.hng.f2lQ && it.isLockOut with
  | none => s
  | some it =>
    let w := (it.word 1).toNat
    let n := fieldAt w 0 7
    let s := s.serveItem it
    (s.putLock n true (fieldAt w 8 3) (fieldAt w 12 1)).modBays fun b => { b with lockNotes := b.lockNotes ++ [n] }

/-- Take the first of the elements that fit. -/
def dropOnce {α : Type} (ok : α → Bool) : List α → List α
  | [] => []
  | a :: l => if ok a then l else a :: dropOnce ok l

/-- The lock-out's record is durable: its notice (R427). -/
def State.lockNoted (s : State) (n cause : Nat) : State :=
  if s.bays.lockNotes.contains n then
    (s.modBays fun b => { b with lockNotes := dropOnce (fun x => x = n) b.lockNotes }).notice
      ("^BAY " ++ decText n ++ " LOCKED " ++ (if cause = 4 then "GATE" else "COMPARATOR"))
  else s

/-- A lock-out of bay `n` has not been noticed yet: its item waits, or its record is being written (R80, R425). -/
def State.lockOutDue (s : State) (n : Nat) : Bool :=
  s.bays.lockNotes.contains n
    || (s.sow.store.any fun it => it.q = s.hng.f2lQ && it.isLockOut && fieldAt (it.word 1).toNat 0 7 = n)
    || s.sow.claims.any fun p => match p.2 with
      | .hw (h :: w :: _) => p.1 = s.hng.f2lQ && fieldAt h.toNat 0 16 = 0xFF13 && fieldAt w.toNat 0 7 = n
      | _ => false

/-- The lock record is clear and durable. LC reads LOCK_EV, which reads 0 while the field is down (R429), and clears the
latch only where it is 0; after the clear it reads LOCK_EV and the SYS_LOCK bit again. Where a lock-out condition shows, LC
writes SYS_LOCK again and the record with the cause in FAULT, and the answer is PROOF-FAIL (R428); commands come one at a time,
so none falls between the clear and the second read (log 1). -/
def State.unlockRest (s : State) (n k : Nat) (tag : String) : State :=
  let b := s.bayAt n
  let answer : State → String → State := fun s t => s.emit k ("=" ++ tag ++ " BAY " ++ decText n ++ t)
  let met : State → Bool := fun s => s.sys.fieldUp && (s.bayAt n).lockEv
  let relock := answer ((s.writeLock n true).putLock n true b.lockCause (railNo b.lockRail)) " LOCKED PROOF-FAIL"
  let free := s.writeLock n false
  if met s || met free || free.locked n then relock else answer free " UNLOCKED"

/-- The lock record of bay `n` has been written, clear: the UNLOCK that asked for it goes on (R428). -/
def State.unlockGoesOn (s : State) (n : Nat) : State :=
  match s.bays.unlocking.find? fun u => u.1 = n with
  | none => s
  | some u =>
    let s := s.modBays fun b => { b with unlocking := dropOnce (fun x => x.1 = n) b.unlocking }
    (s.unlockRest n u.2.1 u.2.2).afterLine u.2.1

/-- A lock line's write has ended, with these bytes. -/
def State.lockLineEnds (s : State) (n : Nat) (b : List Byte) : State :=
  if unitAt b 1 1 = 1 then s.lockNoted n (unitAt b 2 1) else s.unlockGoesOn n

/-! ### Proofs -/

/-- A proof of the rail that begins now is the one demanded: main before aux (R423). -/
def Bay.demanded (b : Bay) (rail : Rail) : Bool :=
  match rail with
  | .main => b.main.wanted
  | .aux => b.aux.wanted && !b.main.wanted

/-- A proof of the rail cannot begin: one of it runs, or it is the one demanded and another proof of the bay runs (R423). -/
def Bay.proofWaits (b : Bay) (rail : Rail) : Bool :=
  (b.rail rail).frozen || b.demanded rail && (b.main.frozen || b.aux.frozen)

/-- PROOF-START: step 1 (R420, R421). -/
def State.proofBegins (s : State) (n : Nat) (rail : Rail) : State :=
  if (s.bayAt n).proofWaits rail then s
  else s.modBay n fun b => b.modRail rail fun r => { r with frozen := true, checked := false, proving := b.demanded rail }

/-- PROOF-CHECK: step 2, both comparators must read over (R420, R422). -/
def State.proofChecked (s : State) (n : Nat) (rail : Rail) (fast slow : Bool) : State :=
  if !((s.bayAt n).rail rail).frozen then s
  else
    let s := s.modBay n fun b => b.modRail rail fun r =>
      { r with pass := fast && slow, fastOver := fast, slowOver := slow, checked := true }
    if fast && slow then s else s.lockOut n 1 rail

/-- A rail's proof on demand is done; DONE is set with the second (PROOF DONE). A scheduled proof that was under way when
the demand came does not meet it (R423). -/
def Bay.proved (b : Bay) (rail : Rail) : Bay :=
  if (b.rail rail).proving then
    let b := b.modRail rail fun r => { r with wanted := false, proving := false }
    if b.main.wanted || b.aux.wanted then b else { b with proofDone := true }
  else b

/-- PROOF BUSY. -/
def Bay.proofBusy (b : Bay) : Bool := b.main.wanted || b.aux.wanted

/-- A write of 1 to PROOF RUN (R423). -/
def State.proofRun (s : State) (n : Nat) : State :=
  if (s.bayAt n).proofBusy then s
  else s.modBay n fun b => { b with main := { b.main with wanted := true }, aux := { b.aux with wanted := true } }

/-- At a field start firmware proves the rails of every row on demand, in ascending order: where bay `n` is done, the next bay
of a row that has not announced is demanded (R424). -/
def State.proveNext (s : State) (n : Nat) : State :=
  if n < 95 && !s.isUp (.baysRow ((n + 1) / 8)) && (s.bayAt n).proofDone && !(s.bayAt (n + 1)).proofDone then s.proofRun (n + 1) else s

/-- PROOF-END: step 3 (R420, R421). What the SLOW comparator reads over its restored reference is free (log 86). -/
def State.proofEnds (s : State) (n : Nat) (rail : Rail) (still : Bool) : State :=
  if !((s.bayAt n).rail rail).frozen || !((s.bayAt n).rail rail).checked then s
  else
    let c := s.freeCheck
    let s := c.2.modBay n fun b =>
      (b.modRail rail fun r => { r with frozen := false, checked := false, fastOver := still, slowOver := c.1 }).proved rail
    let s := s.proveNext n
    if still && !((s.bayAt n).rail rail).blankRun then s.trip n 1 rail else s

/-- A proof of the rail that runs goes on to its end; what its comparators read is free (R420, R423). -/
def State.proofFinished (s : State) (n : Nat) (rail : Rail) : State :=
  if !((s.bayAt n).rail rail).frozen then s
  else
    let f := s.freeCheck
    let w := f.2.freeCheck
    let s := if ((s.bayAt n).rail rail).checked then s else w.2.proofChecked n rail f.1 w.1
    let e := s.freeCheck
    e.2.proofEnds n rail e.1

/-! ### Keys and samples -/

/-- The keys of bay `n` act on its state, in the order of R416 (R412, R414). -/
def State.keysAct (s : State) (n : Nat) : State :=
  let st := (s.bayAt n).st
  if !s.present n && st.active then (s.bayDown n .stopping).notice ("^BAY " ++ decText n ++ " PULLED")
  else if !s.present n && (st = .presentOff || st = .tripped) then
    (s.modBay n fun b => { b with st := .empty }).showTag n
  else if s.present n && st = .empty then (s.modBay n fun b => { b with st := .presentOff }).showTag n
  else if !s.latched n && st.active then (s.bayDown n .stopping).notice ("^BAY " ++ decText n ++ " UNLATCHED")
  else s

/-- A published frame reaches the channels, in field state (R412). -/
def State.keysReach (s : State) : State :=
  if s.sys.fieldUp then ((List.range 96).foldl State.keysAct s).settle else s

/-- A main-rail sample joins the point of a start under measurement that holds tick `now` (R444). -/
def Bay.foldPoint (b : Bay) (now : Nat) (v : Int) : Bay :=
  match b.measure with
  | none => b
  | some t =>
    let k := (now - t) / 16
    if 64 ≤ k then b
    else
      let l := b.points ++ List.replicate (k + 1 - b.points.length) (0, 0)
      let p := l.getD k (0, 0)
      { b with points := l.set k (p.1 + v, p.2 + 1) }

/-- ISUM of bay `n`'s rail: the sum of its sense codes over the sample's 16 slots, and where not 16 slots have been given since
the sample before, the value that comes with the sample (R409, log 104). Entry 2n of `isum` is bay n's main rail, 2n + 1 its aux
rail. -/
def Bays.isumOf (x : Bays) (isum : List Int) (n : Nat) : Rail → Int
  | .main => if x.sumSlots = 16 then vget x.sumM n else isum.getD (2 * n) 0
  | .aux => if x.sumSlots = 16 then vget x.sumA n else isum.getD (2 * n + 1) 0

/-- All samples of every row complete (R409); entries of `vsum` as those of `isum`. -/
def State.samples (s : State) (isum : List Int) (vsum : List Nat) : State :=
  s.modBays fun x =>
    { x with
      sumM := Vector.replicate 96 0, sumA := Vector.replicate 96 0, sumSlots := 0
      bay := Vector.ofFn fun i =>
        let m := x.isumOf isum i.val .main
        let b := (vget x.bay i.val).foldPoint s.cal.tick m
        { b with
          seq := (b.seq + 1) % 256
          main := { b.main with isum := m, vsum := vsum.getD (2 * i.val) 0 }
          aux := { b.aux with isum := x.isumOf isum i.val .aux, vsum := vsum.getD (2 * i.val + 1) 0 } } }

/-! ### Channel ports (R429) -/

/-- STATE of bay `n`. -/
def State.readBayState (s : State) (n : Nat) : Nat :=
  let b := s.bayAt n
  bayCode b.st + 8 * bitNat (s.present n) + 16 * bitNat (s.latched n) + 32 * bitNat b.main.good + 64 * bitNat b.aux.good
    + 128 * bitNat b.main.blankRun + 256 * bitNat b.aux.blankRun + 512 * bitNat b.main.fastOver
    + 1024 * bitNat b.main.slowOver + 2048 * bitNat b.aux.fastOver + 4096 * bitNat b.aux.slowOver
    + 8192 * bitNat (s.locked n) + 16384 * bitNat (s.clamped n)

/-- FAULT of a bay. -/
def Bay.fault (b : Bay) : Nat :=
  b.tripCause + 8 * railNo b.tripRail + 16 * b.lockCause + 128 * railNo b.lockRail + 256 * b.cmdRej
    + 65536 * bitNat b.tripEv + 131072 * bitNat b.lockEv

/-- PROOF of a bay. -/
def Bay.proofPort (b : Bay) : Nat :=
  2 * bitNat b.proofBusy + 4 * bitNat b.main.pass + 8 * bitNat b.aux.pass + 16 * bitNat b.proofDone + 32 * bitNat b.agree

/-- A write of protected register `i`, which `f` makes, sets both its copies and both its parities (R418). -/
def RailSt.program (r : RailSt) (i : Nat) (f : Chan → Chan) : RailSt :=
  { r with work := f r.work, shadow := f r.shadow, parity := putBit (putBit r.parity (2 * i) true) (2 * i + 1) true }

def State.program (s : State) (n : Nat) (rail : Rail) (i : Nat) (f : Chan → Chan) : State :=
  s.modBay n fun b => b.modRail rail fun r => r.program i f

/-- Every protected register of a rail is written (R395). -/
def State.programAll (s : State) (n : Nat) (rail : Rail) (c : Chan) : State :=
  s.modBay n fun b => b.modRail rail fun r => { r with work := c, shadow := c, parity := BitVec.allOnes 10 }

/-- Firmware or LC looks at STATE of bay `n`: the comparators read what the sense voltages and their references make them, during
a proof too, and a gate may have fallen; no command tells either, so both are free (R397, R402, R403, R407, R420, R429, log 86).
A FAST output that is armed reads not over, since one that reads over makes a trip decision (R402). -/
def State.lookBay (s : State) (n : Nat) : State :=
  let d := s.draw
  let w := Config.freeWord d.1
  let look := fun (driven : Bool) (i : Nat) (r : RailSt) =>
    { r with fastOver := w.getLsbD i && (!driven || r.blankRun || r.frozen), slowOver := w.getLsbD (i + 1)
             good := r.good && w.getLsbD (i + 2) }
  d.2.modBay n fun b => { b with main := look b.st.driven 0 b.main, aux := look b.st.driven 3 b.aux }

/-- A read of offset `o` of bay `n`'s ports. FAST, SLOW, BLANK, TRIP_DLY and GATE_CFG read their working copy where the copies
disagree: DESIGN CHOICE (log 105), since no rule names the copy. -/
def State.readBayPort (s : State) (n o : Nat) : Nat :=
  let b := s.bayAt n
  match o with
  | 0x1 => s.readBayState n
  | 0x2 => b.main.work.isrc
  | 0x3 => b.aux.work.isrc
  | 0x4 => b.main.work.fast
  | 0x5 => b.main.work.slow
  | 0x6 => b.main.work.blank
  | 0x7 => b.main.work.dly
  | 0x8 => b.aux.work.fast
  | 0x9 => b.aux.work.slow
  | 0xA => b.aux.work.blank
  | 0xB => b.aux.work.dly
  | 0xC => patternOf 18 b.main.isum + b.seq * 2 ^ 24
  | 0xD => patternOf 18 b.aux.isum + b.seq * 2 ^ 24
  | 0xE => b.proofPort
  | 0xF => b.fault
  | _ => 0

/-- DLY as written: 0 stores 1. -/
def dlyOf (v : Nat) : Nat := if fieldAt v 0 10 = 0 then 1 else fieldAt v 0 10

/-- A write of offset `o` of bay `n`'s ports. -/
def State.writeBayPort (s : State) (n o v : Nat) : State :=
  match o with
  | 0x0 =>
    match fieldAt v 0 4 with
    | 1 => (s.bayStart n).settle
    | 2 => (s.bayStop n).settle
    | _ => s
  | 0x2 => s.program n .main 0 fun c => { c with isrc := fieldAt v 0 6 }
  | 0x3 => s.program n .aux 0 fun c => { c with isrc := fieldAt v 0 6 }
  | 0x4 => s.program n .main 1 fun c => { c with fast := fieldAt v 0 6 }
  | 0x5 => s.program n .main 2 fun c => { c with slow := fieldAt v 0 8 }
  | 0x6 => s.program n .main 3 fun c => { c with blank := fieldAt v 0 12 }
  | 0x7 => s.program n .main 4 fun c => { c with dly := dlyOf v }
  | 0x8 => s.program n .aux 1 fun c => { c with fast := fieldAt v 0 6 }
  | 0x9 => s.program n .aux 2 fun c => { c with slow := fieldAt v 0 8 }
  | 0xA => s.program n .aux 3 fun c => { c with blank := fieldAt v 0 12 }
  | 0xB => s.program n .aux 4 fun c => { c with dly := dlyOf v }
  | 0xE =>
    let s := if bitAt v 4 then s.modBay n fun b => { b with proofDone := false } else s
    if bitAt v 0 then s.proofRun n else s
  | 0xF =>
    s.modBay n fun b => { b with tripEv := b.tripEv && !bitAt v 16, lockEv := b.lockEv && !bitAt v 17 }
  | _ => s

/-- VMEAS port `k` of row `r`. -/
def State.readVmeas (s : State) (r k : Nat) : Nat :=
  let b := s.bayAt (8 * r + k / 2)
  (if k % 2 = 0 then b.main.vsum else b.aux.vsum) + b.seq * 2 ^ 24

/-- A write of ADC_SHUNT_r: 0 stores 1. -/
def State.writeShunt (s : State) (r v : Nat) : State :=
  let f := fun x => if x = 0 then 1 else x
  s.modBays fun b => { b with shuntM := vset b.shuntM r (f (fieldAt v 0 16)), shuntA := vset b.shuntA r (f (fieldAt v 16 16)) }

/-- Rail current in 10^-9 mA times the shunt code: |ISUM| × 152,587,890,625 (R411). -/
def isumScale : Nat := 152587890625

def State.shunt (s : State) (n : Nat) (rail : Rail) : Nat :=
  match rail with
  | .main => vget s.bays.shuntM (n / 8)
  | .aux => vget s.bays.shuntA (n / 8)

/-! ### The events as commands -/

/-- The channel runs: the field is up and the keeper is not in reset. -/
def onField (s : State) (f : State → State) : Res := goOn (if s.sys.fieldUp && !s.sys.inReset then f s else s)

/-- BAY-START: a write of START to CTL (R412, R413, R434). -/
def execBayStart (n : BayNo) (s : State) : Res := onField s fun s => (s.bayStart n.val).settle

/-- BAY-STOP: a write of STOP to CTL (R412, R413). -/
def execBayStop (n : BayNo) (s : State) : Res := onField s fun s => (s.bayStop n.val).settle

/-- GATE-GOOD. -/
def execGateGood (n : BayNo) (rail : Rail) (s : State) : Res := onField s fun s => s.gateGood n.val rail

/-- BLANK-WINDOW-END. -/
def execBlankWindowEnd (n : BayNo) (rail : Rail) (s : State) : Res := onField s fun s => s.blankEnd n.val rail

/-- FAST-OVER. -/
def execFastOver (n : BayNo) (rail : Rail) (s : State) : Res := onField s fun s => s.fastOver n.val rail

/-- SLOW-TRIP. -/
def execSlowTrip (n : BayNo) (rail : Rail) (s : State) : Res := onField s fun s => s.slowTrip n.val rail

/-- GATE-TIMEOUT. -/
def execGateTimeout (n : BayNo) (rail : Rail) (s : State) : Res := onField s fun s => s.gateTimeout n.val rail

/-- GATES-BELOW-1V. -/
def execGatesBelow1v (n : BayNo) (s : State) : Res := onField s fun s => s.gatesDown n.val

/-- GATE-OFF-LOCKOUT. -/
def execGateOffLockout (n : BayNo) (mainUp auxUp : Bool) (s : State) : Res :=
  onField s fun s => s.gateOff n.val mainUp auxUp

/-- SHADOW-MISMATCH. -/
def execShadowMismatch (n : BayNo) (rail : Rail) (parity : Bool) (s : State) : Res :=
  onField s fun s => s.shadowFails n.val rail parity

/-- LOCK-ITEM-SERVE. -/
def execLockItemServe (s : State) : Res := goOn (if s.sys.inReset then s else s.serveLock)

/-- PROOF-START. -/
def execProofStart (n : BayNo) (rail : Rail) (s : State) : Res := onField s fun s => s.proofBegins n.val rail

/-- PROOF-CHECK. -/
def execProofCheck (n : BayNo) (rail : Rail) (fastOver slowOver : Bool) (s : State) : Res :=
  onField s fun s => s.proofChecked n.val rail fastOver slowOver

/-- PROOF-RUN. -/
def execProofRun (n : BayNo) (s : State) : Res := onField s fun s => s.proofRun n.val

/-- ADC-SAMPLE-COMPLETE. -/
def execAdcSampleComplete (isum : List Int) (vsum : List Nat) (s : State) : Res :=
  onField s fun s => s.samples isum vsum

/-- SYS-LOCK-SET (R430). -/
def execSysLockSet (n : BayNo) (s : State) : Res := goOn (if s.sys.inReset then s else s.writeLock n.val true)

/-- SYS-LOCK-CLEAR (R428, R430). -/
def execSysLockClear (n : BayNo) (s : State) : Res := goOn (if s.sys.inReset then s else s.writeLock n.val false)

/-- BAY-ON-ITEM: the Sower dispatches the next item of the bay, which is one of BAY ON (R146). -/
def execBayOnItem (n : BayNo) (s : State) : Res :=
  goOn (s.dispatchWork n.val fun k => k = .on)

/-- BAY-OFF-ITEM (R149). -/
def execBayOffItem (n : BayNo) (s : State) : Res :=
  goOn (s.dispatchWork n.val fun k => k = .off)

/-- PROFILE-FORGET-ITEM (R163, R446). -/
def execProfileForgetItem (n : BayNo) (s : State) : Res :=
  goOn (s.dispatchWork n.val fun k => k = .forget)

end Sys2Proof.Machine
end

