-- ==== Sys2Proof/Machine/Env.lean ====
section
/-! DEFINITION. The envelope guard (R432 to R439), its ports (R455), and the start planner (R447 to R454). -/

namespace Sys2Proof.Machine

/-! ### The guard -/

/-- Sum of a row's eight codes, negative ones counted as 0. -/
def rowSum (codes : List Int) (r : Nat) : Nat :=
  ((codes.drop (8 * r)).take 8).foldl (fun n c => n + c.toNat) 0

/-- The total of a rail in 0.01 A: the exact sum over rows of codes × 244.140625 / shunt, truncated (R432). -/
def guardTotal (codes : List Int) (shunts : Vector Nat 12) : Nat :=
  let p := (List.range 12).foldl (fun (p : Nat × Nat) r =>
    (p.1 * vget shunts r + rowSum codes r * p.2, p.2 * vget shunts r)) (0, 1)
  min 65535 (p.1 * 244140625 / (p.2 * 1000000))

/-- The ms tick in which slot `k` of 1, 2, … ends: a slot is 24,576 SCLK, and 125 ms ticks are 1,024 slots (R401, R408). A slot
that ends with a ms tick ends within it (log 36). -/
def msTick (k : Nat) : Nat := (125 * k - 1) / 1024

/-- The slot that ended last is the last of its ms tick. -/
def Env.tickEnds (e : Env) : Bool := e.slotNo = 0 || msTick (e.slotNo + 1) ≠ msTick e.slotNo

/-- A slot ends with a flag set or not (R433): a ms tick is over where every slot in it was over, and clear where none was. -/
def Env.countSlot (e : Env) (f : Bool) : Env :=
  let e := if !e.tickEnds then { e with nowOver := e.nowOver && f, nowClear := e.nowClear && !f }
    else { e with msOver := if e.nowOver then min 255 (e.msOver + 1) else 0
                  msClear := if e.nowClear then min 250 (e.msClear + 1) else 0
                  nowOver := f, nowClear := !f }
  { e with slotNo := (e.slotNo + 1) % 1024 }

/-- GUARD-SLOT (R432, R433, R437); its codes join the sample under way (R409). -/
def State.guardSlot (s : State) (mainCodes auxCodes : List Int) : State :=
  let m := guardTotal mainCodes s.bays.shuntM
  let a := guardTotal auxCodes s.bays.shuntA
  let s := s.modBays fun b =>
    { b with sumM := Vector.ofFn fun i => vget b.sumM i.val + mainCodes.getD i.val 0
             sumA := Vector.ofFn fun i => vget b.sumA i.val + auxCodes.getD i.val 0, sumSlots := b.sumSlots + 1 }
  s.modEnv fun e =>
    let e := e.countSlot (decide (e.ceilM * 10 < m) || decide (e.ceilA * 10 < a))
    { e with
      totM := m, totA := a, overM := decide (e.ceilM * 10 < m), overA := decide (e.ceilA * 10 < a)
      sumM := e.sumM + m, sumA := e.sumA + a, slots := e.slots + 1
      peakM := max e.peakM m, peakA := max e.peakA a
      shedRun := if (e.ceilM + e.shed) * 10 < m then min 2 (e.shedRun + 1) else 0 }

/-- The flags that a HOLD notice names (R439). -/
def Env.flagText (e : Env) : String :=
  joinText "," ((if e.overM then ["MAIN"] else []) ++ if e.overA then ["AUX"] else [])

/-- HOLD asserts (R433, R439, R453). -/
def State.assertHold (s : State) : State :=
  if s.env.hold then s
  else
    let s := s.modEnv fun e => { e with hold := true, holdEv := true, holds := satInc 65535 e.holds, replanDue := true }
    s.notice ("^ENVELOPE HOLD " ++ s.env.flagText)

/-- The GUARD-th consecutive over ms tick ends now, or, with GUARD 0, a slot that sets either flag (R433). -/
def Env.holdDue (e : Env) : Bool :=
  if e.guard = 0 then e.overM || e.overA else e.tickEnds && e.nowOver && e.guard ≤ e.msOver + 1

/-- The 250th consecutive clear ms tick ends now (R433). -/
def Env.clearDue (e : Env) : Bool := e.tickEnds && e.nowClear && 250 ≤ e.msClear + 1

/-- GUARD-HOLD (R433). -/
def State.guardHold (s : State) : State := if s.env.holdDue then s.assertHold else s

/-- GUARD-HOLD-CLEAR (R433, R439). -/
def State.guardClear (s : State) : State :=
  if s.env.hold && s.env.clearDue then
    let s := s.modEnv fun e => { e with hold := false, replanDue := true }
    s.notice ("^ENVELOPE RELEASE HELD " ++ decText s.env.heldQ.length)
  else s

/-- 60 calendar ticks have passed since the most recent entry to STARTING (R435). -/
def State.paceMet (s : State) : Bool :=
  match s.env.lastStart with
  | none => true
  | some t => t + 60 ≤ s.cal.tick

/-- GUARD-RELEASE (R435): the bay leaves HELD, and the planner replans (R453). -/
def State.guardRelease (s : State) : State :=
  match s.env.heldQ with
  | n :: _ =>
    if !s.env.hold && s.paceMet then ((s.enterStarting n).modEnv fun e => { e with relEv := true, replanDue := true }).settle else s
  | [] => s

/-- GUARD-SHED: the second slot above MAIN + SHED; with an empty start order nothing is shed, and that slot may be the
first of the next two (R437). -/
def State.guardShed (s : State) : State :=
  if s.env.shedRun < 2 then s
  else
    match s.env.order with
    | [] => s.modEnv fun e => { e with shedRun := 1 }
    | n :: _ =>
      let s := s.modEnv fun e => { e with shedRun := 0, shedEv := true, sheds := satInc 255 e.sheds }
      (s.trip n 3 .main).assertHold

/-! ### Envelope ports (R455) -/

/-- A value clipped to a range. -/
def clip (lo hi v : Nat) : Nat := max lo (min hi v)

/-- ENV_STATUS. -/
def State.envStatus (s : State) : Nat :=
  bitNat s.env.overM + 2 * bitNat s.env.overA + 4 * bitNat s.env.hold + 8 * s.env.heldQ.length
    + 1024 * bitNat (!s.paceMet) + 2048 * s.env.order.headD 0 + 2 ^ 18 * bitNat (!s.env.order.isEmpty)

/-- A read of port 0x1700 + `o`, with what the read changes. -/
def State.readEnvPort (s : State) (o : Nat) : Nat × State :=
  let e := s.env
  match o with
  | 0 => (e.ceilM + e.ceilA * 65536, s)
  | 1 => (e.shed + e.guard * 65536, s)
  | 2 => (e.totM + e.totA * 65536, s)
  | 3 => (s.envStatus, s)
  | 4 =>
    (bitNat e.holdEv + 2 * bitNat e.shedEv + 4 * bitNat e.relEv + e.sheds * 256 + e.holds * 65536, s)
  | 5 => (e.peakM + e.peakA * 65536, s.modEnv fun e => { e with peakM := 0, peakA := 0 })
  | 7 => (e.avgM + e.avgA * 65536, s)
  | _ => (0, s)

/-- A write of port 0x1700 + `o`. -/
def State.writeEnvPort (s : State) (o v : Nat) : State :=
  match o with
  | 0 => s.modEnv fun e => { e with ceilM := clip 10 4000 (fieldAt v 0 12), ceilA := clip 10 2000 (fieldAt v 16 12) }
  | 1 => s.modEnv fun e => { e with shed := clip 1 1000 (fieldAt v 0 10), guard := fieldAt v 16 8 }
  | 4 =>
    s.modEnv fun e =>
      { e with holdEv := e.holdEv && !bitAt v 0, shedEv := e.shedEv && !bitAt v 1, relEv := e.relEv && !bitAt v 2 }
  | _ => s

/-! ### Prediction (R447) -/

/-- Latest measured main current of bay `n` in mA, to the nearest (R411, log 37). -/
def State.mainNow (s : State) (n : Nat) : Int := intHalfUp ((s.bayAt n).main.isum * isumScale) (s.shunt n .main * 1000000000)

/-- The earliest tick at which the release queue's place `i` could be released (R447). -/
def State.releaseTick (s : State) (i : Nat) : Nat :=
  let clear := s.cal.tick + (if s.env.hold then 16 else 1)
  let pace := match s.env.lastStart with
    | some t => t + 60
    | none => 0
  max clear pace + 60 * i

/-- The tenancy as whose bay the envelope counts bay `n`: T0 where it is assigned to none (R331). -/
def State.envTen (s : State) (n : Nat) : Nat := (vget s.sdb.assignNow n).getD 0

/-- The draw of bay `n` in STARTING, ON or HELD. -/
def State.drawOf (s : State) (n : Nat) : Draw :=
  let ten := s.envTen n
  match s.env.heldQ.findIdx? fun x => x = n with
  | some i => { start := s.releaseTick i, curve := s.curve n, ten := ten, flat := none }
  | none =>
    match (s.bayAt n).startTick with
    | some t => { start := t, curve := s.curve n, ten := ten, flat := if t + 1024 ≤ s.cal.tick then some (s.mainNow n) else none }
    | none => { start := 0, curve := s.curve n, ten := ten, flat := some (s.mainNow n) }

/-- The draws of every bay in STARTING, ON or HELD. -/
def State.draws (s : State) : List Draw :=
  ((List.range 96).filter fun n => (s.bayAt n).st.active).map s.drawOf

/-- A start placed at tick `t`. -/
def State.placedDraw (s : State) (n t : Nat) : Draw :=
  { start := t, curve := s.curve n, ten := s.envTen n, flat := none }

/-- The part of a term inside its 1,024-tick window. -/
def Draw.inWindow (d : Draw) (tau : Nat) : Nat :=
  if d.flat.isNone && d.start ≤ tau && tau < d.start + 1024 then d.curve.getD ((tau - d.start) / 16) 0 else 0

/-- The term of R447 at tick τ. -/
def Draw.at (d : Draw) (tau : Nat) : Int :=
  match d.flat with
  | some c => c
  | none => if tau < d.start + 1024 then d.inWindow tau else d.curve.getD 63 0

/-- P(τ) in mA. -/
def predicted (l : List Draw) (tau : Nat) : Int := l.foldl (fun n d => n + d.at tau) 0

/-! ### Placement (R448 to R450) -/

/-- R(τ) in 0.1 mA, for a start of tenancy `u`: `open_` holds the tenancies with starts not yet placed (R449). -/
def State.reserved (s : State) (l : List Draw) (u : Nat) (open_ : List Nat) (tau : Nat) : Nat :=
  (List.range 16).foldl (fun n v =>
    if u ≠ v && open_.contains v then
      let d := (l.filter fun x => x.ten = v).foldl (fun n x => n + x.inWindow tau) 0
      n + (vget s.sdb.shareNow v * s.sdb.envMain - d * 10)
    else n) 0

/-- A start of bay `b` fits at tick `t` (R449), in 0.1 mA. -/
def State.fits (s : State) (l : List Draw) (u : Nat) (open_ : List Nat) (curve : List Nat) (t : Nat) : Bool :=
  (List.range 64).all fun k =>
    let tau := t + 16 * k
    decide ((predicted l tau + (curve.getD k 0 : Nat)) * 10 + ((s.sdb.envMargin * 1000 + s.reserved l u open_ tau : Nat) : Int)
      ≤ ((s.sdb.envMain * 1000 : Nat) : Int))

/-- The first tick from `t` on at which the start fits, up to 3,840 ticks after now (R450). -/
def State.findTick (s : State) (l : List Draw) (u : Nat) (open_ : List Nat) (curve : List Nat) :
    Nat → Nat → Option Nat
  | 0, _ => none
  | f + 1, t =>
    if s.fits l u open_ curve t then some t
    else if s.cal.tick + 3840 < t then none
    else s.findTick l u open_ curve f (t + 1)

/-- Place the pending bays in order (R450): the starts placed, and how many are left; `left` holds the bays left so
far. -/
def State.placeAll (s : State) (l : List Draw) (last : Option Nat) (left : List Nat) : List Nat → List (Nat × Nat) × Nat
  | [] => ([], left.length)
  | b :: rest =>
    let t0 := match last with
      | some t => max (s.cal.tick + 1) (t + 60)
      | none => s.cal.tick + 1
    let u := s.envTen b
    let open_ := (left ++ rest).map s.envTen
    match s.findTick l u open_ (s.curve b) 4096 t0 with
    | some t =>
      let r := s.placeAll (l ++ [s.placedDraw b t]) (some t) left rest
      ((b, t) :: r.1, r.2)
    | none => s.placeAll l last (left ++ [b]) rest

/-- The planner may place starts (R86, R370). -/
def State.plannerUp (s : State) : Bool := s.isUp .envelope && s.led.served.isSome && s.sys.fieldUp

/-- REPLAN (R450, R451, R453): every unwritten start is discarded and placement runs again. -/
def State.replan (s : State) : State :=
  if !s.env.replanDue || !s.plannerUp then s
  else
    let r := s.placeAll s.draws s.env.lastWritten [] s.env.waiting
    let plan := s.draws ++ r.1.map fun p => s.placedDraw p.1 p.2
    let s := s.modEnv fun e => { e with placed := r.1, unplaced := r.2, replanDue := false, plan := plan }
    if r.2 = 0 then s else s.notice ("^ENVELOPE FULL " ++ decText r.2)

/-- Bay `n`'s start no longer waits in the planner. -/
def State.unplan (s : State) (n : Nat) : State :=
  s.modEnv fun e => { e with waiting := e.waiting.filter (· ≠ n), placed := e.placed.filter fun p => p.1 ≠ n }

/-- The BAY ON item whose start the planner was to make. -/
def State.starter (s : State) (n : Nat) : Option Work :=
  s.bays.work.find? fun w => w.bay = n && w.kind = .on && !w.fin && w.acted

/-! ### The planner's tick items (R452, R641) -/

/-- The tick number of a tick item, which carries its low 32 bits (R365). -/
def State.tickOf (s : State) (it : Item) : Nat :=
  s.cal.tick - (s.cal.tick + pow32 - (it.word 1).toNat % pow32) % pow32

/-- The oldest tick item of queue `q`. -/
def State.tickItem (s : State) (q : Nat) : Option Item := s.sow.store.find? fun it => it.q = q && it.typ = 0xFF20

/-- The next tick item of queue `q` that keeper firmware serves, by its number, and the state with the item taken up: one that
the Sower has dispatched to a keeper thread that the model follows, newer than the tick served last, otherwise the oldest of the
queue (R620, R633, R645). -/
def State.takeTick (s : State) (q : Nat) (last : Option Nat) : Option (Nat × State) :=
  match s.heldItems.find? fun p => p.1.q = q && p.1.typ = 0xFF20 && p.2 < 24 && (s.th p.2).st = .running
      && last.all fun k => decide (k < s.tickOf p.1) with
  | some p => some (s.tickOf p.1, s)
  | none => match s.tickItem q with
    | some it => if s.sow.dispatch && s.sys.fieldUp then some (s.tickOf it, s.serveItem it) else none
    | none => none

/-- The planner's thread serves its next tick item. -/
def State.planTick (s : State) : State :=
  match s.takeTick 3 s.env.served with
  | some p => p.2.modEnv fun e => { e with served := some (max p.1 (e.served.getD 0)) }
  | none => s

/-- The planner serves the tick items that wait for it as long as `go` says. -/
def State.planTicks (s : State) (go : State → Bool) : State :=
  (List.range ((s.sow.store.filter fun it => it.q = 3 && it.typ = 0xFF20).length + 1)).foldl (fun s _ => if go s then s.planTick else s) s

/-- The next tick item of the planner reaches no placed start: to serve it changes nothing else. -/
def State.planQuiet (s : State) : Bool :=
  (s.tickItem 3).all fun it => s.env.placed.all fun p => decide (s.tickOf it < p.2)

/-- The planner has served a tick item at or after `t`. -/
def State.planReached (s : State) (t : Nat) : Bool := s.env.served.any fun k => decide (t ≤ k)

/-- PLANNER-START (R452): at the first tick item served at or after the placed tick the planner writes START; a refused one
ends the item as a trip would. -/
def State.plannerStart (s : State) (n : Nat) : State :=
  match s.env.placed.find? fun p => p.1 = n with
  | none => s
  | some p =>
    let s := s.planTicks fun s => !s.planReached p.2
    if !s.planReached p.2 || !s.plannerUp then s
    else
      let ok := s.startLegal n
      let s := (s.unplan n).bayStart n
      let s := s.modEnv fun e => { e with lastWritten := some s.cal.tick, replanDue := e.replanDue || !ok }
      if ok then s.settle
      else match s.starter n with
        | some w => (s.endWork w id).settle
        | none => s

/-- P(τ) summed over the 16 ticks of the point that ends now, as the last plan predicted it (R447, R453, log 103). -/
def State.pointPredicted (s : State) : Int :=
  (List.range 16).foldl (fun n i => n + predicted s.env.plan (s.cal.tick - 16 + i)) 0

/-- At a tick whose count is a multiple of 16 a point ends: ENV_AVG takes its value, a mean in whole units with its fraction
dropped (DESIGN CHOICE, log 112: no rule rounds it), and the planner compares the mean with its prediction (R453, R455). -/
def State.pointEnds (s : State) : State :=
  let e := s.env
  let p := s.pointPredicted
  let a : Int := (e.sumM * 160 : Nat)
  let b := p * (e.slots : Int)
  let off := decide (0 < e.slots ∧ 0 < p ∧ b * 15 < ((a - b).natAbs : Int) * 100)
  s.modEnv fun e =>
    { e with avgM := e.sumM / e.slots, avgA := e.sumA / e.slots, sumM := 0, sumA := 0, slots := 0
             replanDue := e.replanDue || off }

/-- PROFILE-UPDATE: the window of a measured start has ended (R444, R445). Every sample of it is converted with ADC_SHUNT as it
stands now: DESIGN CHOICE (log 106), since no rule says which value holds where the port has been written during the start. -/
def State.profileUpdate (s : State) (n : Nat) : State :=
  match (s.bayAt n).measure with
  | none => s
  | some t =>
    if s.cal.tick < t + 1024 || !(s.bayAt n).st.driven then s
    else
      let s := s.updateProfile n (s.shunt n .main) (s.bayAt n).points
      (s.modBay n fun b => { b with measure := none, points := [] }).settle

/-! ### The events as commands -/

/-- GUARD-SLOT. -/
def execGuardSlot (mainCodes auxCodes : List Int) (s : State) : Res := onField s fun s => s.guardSlot mainCodes auxCodes

/-- GUARD-HOLD. -/
def execGuardHold (s : State) : Res := onField s State.guardHold

/-- GUARD-HOLD-CLEAR. -/
def execGuardHoldClear (s : State) : Res := onField s State.guardClear

/-- GUARD-RELEASE. -/
def execGuardRelease (s : State) : Res := onField s State.guardRelease

/-- GUARD-SHED. -/
def execGuardShed (s : State) : Res := onField s State.guardShed

/-- REPLAN. -/
def execReplan (s : State) : Res := onField s State.replan

/-- PROFILE-UPDATE. -/
def execProfileUpdate (n : BayNo) (s : State) : Res := onField s fun s => s.profileUpdate n.val

/-- ENV-PEAK-READ: the peaks return to 0 (R455). -/
def execEnvPeakRead (s : State) : Res := onField s fun s => (s.readEnvPort 5).2

end Sys2Proof.Machine
end

