-- ==== Sys2Proof/Machine/Keys.lean ====
section
/-! DEFINITION. The key scanner (R456 to R470), its ports (R490), the keyswitch (R343, R344), and the service of key
events (R471, R472, R474). -/

namespace Sys2Proof.Machine

def State.modKeys (s : State) (f : Keys → Keys) : State := { s with keys := f s.keys }

/-! ### The scan program (R463 to R466) -/


/-- The active bank. -/
def Keys.program (x : Keys) : Vector (BitVec 11) 64 := if x.active then x.bank1 else x.bank0

/-- The inactive bank, which KSC_STEP reads and writes. -/
def Keys.spare (x : Keys) : Vector (BitVec 11) 64 := if x.active then x.bank0 else x.bank1

/-- Steps in the active program (R464). -/
def Keys.steps (x : Keys) : Nat :=
  match (List.range 64).find? fun i => (vget x.program i).getLsbD 10 with
  | some i => i + 1
  | none => 64

/-- A write of KSC_STEP (R465). -/
def Keys.writeStep (x : Keys) (i : Nat) (w : BitVec 11) : Keys :=
  if x.swapPend then { x with rej := satInc 255 x.rej }
  else if x.active then { x with bank0 := vset x.bank0 i w } else { x with bank1 := vset x.bank1 i w }

/-! ### A frame (R459 to R467) -/

/-- Consecutive differing samples of position `p`. -/
def Keys.count (x : Keys) (p : Nat) : Nat := ((x.counts.find? fun c => c.1 = p).map Prod.snd).getD 0

def Keys.setCount (x : Keys) (p n : Nat) : Keys :=
  let l := x.counts.filter fun c => c.1 ≠ p
  { x with counts := if n = 0 then l else (p, n) :: l }

/-- One sample (R461); the second component is the key change it makes. -/
def Keys.sample (x : Keys) (row col : Nat) (b : Bool) : Keys × List (Nat × Bool) :=
  let p := 32 * row + col
  let x := { x with raw := vmod x.raw row fun w => putBit w col b }
  if (vget x.deb row).getLsbD col = b then (x.setCount p 0, [])
  else if x.count p = 3 then ({ x.setCount p 0 with deb := vmod x.deb row fun w => putBit w col b }, [(p, b)])
  else (x.setCount p (x.count p + 1), [])

/-- The columns of a step (R463). -/
def stepCols (w : BitVec 11) : List Nat :=
  (if w.getLsbD 8 then List.range 16 else []) ++ if w.getLsbD 9 then (List.range 16).map (· + 16) else []

/-- The samples of a step, in ascending column order, with its key changes. -/
def Keys.sampleRow (x : Keys) (row : Nat) (contacts : BitVec 32) : List Nat → Keys × List (Nat × Bool)
  | [] => (x, [])
  | c :: l =>
    let a := x.sample row c (contacts.getLsbD c)
    let r := a.1.sampleRow row contacts l
    (r.1, a.2 ++ r.2)

/-- Run one step: drive, sample, and begin the shift. -/
def Keys.runStep (x : Keys) (r : ScanRun) : Keys × ScanRun :=
  let w := vget x.program r.step
  let row := fieldAt w.toNat 0 4
  let a := x.sampleRow row (vget r.contacts r.step) (stepCols w)
  (a.1, { r with step := r.step + 1, events := if x.armed then a.2 else [], finished := w.getLsbD 10 || r.step = 63 })

/-- Type of a key item (R469). -/
def keyType (e : Nat × Bool) : Nat := 0xC000 + 0x200 * bitNat e.2 + e.1

/-- The event queue takes the scanner's next item: it has room, and no other claimant waits before the scanner. -/
def State.scanRoom (s : State) : Bool :=
  s.hasRoom s.keys.evq && (match s.waiter s.keys.evq with
    | none => true
    | some c => c = .scan)

/-- Run the frame on, to a stall or to its end (R460, R464, R467). -/
def State.runFrame : Nat → State → ScanRun → State
  | 0, s, r => s.modKeys fun x => { x with run := some r }
  | f + 1, s, r =>
    match r.events with
    | e :: l =>
      if s.scanRoom then
        let s := if s.waiter s.keys.evq = some .scan then s.served s.keys.evq else s
        let s := s.visible s.keys.evq [header 0 0 0 (keyType e)]
        State.runFrame f (s.modKeys fun x => { x with events := inc32 x.events }) { r with events := l, stalled := false }
      else if r.stalled then s.modKeys fun x => { x with run := some r }
      else
        (s.await s.keys.evq .scan).modKeys fun x =>
          { x with run := some { r with stalled := true }, stalls := satInc 65535 x.stalls }
    | [] =>
      if r.finished then s.modKeys fun x => { x with run := some r }
      else
        let a := s.keys.runStep r
        State.runFrame f (s.modKeys fun _ => a.1) a.2

/-- Steps and events that suffice for a frame. -/
def frameFuel : Nat := 64 * 33 + 64

/-- The scheduled starts are those of the rate that SCLK has at a scheduled start (R459). -/
def State.scanRate (s : State) : State := s.modKeys fun x => { x with fast := s.sys.fastClk }

/-- The contacts that the steps of a frame sample: the first step of a row those of the command, and another of that row, which
samples in its own cycle, free ones (R460, log 93). -/
def Keys.stepContacts (x : Keys) (contacts : Vector (BitVec 32) 16) (d : Nat) : Vector (BitVec 32) 64 :=
  let row := fun i => fieldAt (vget x.program i).toNat 0 4
  Vector.ofFn fun i =>
    if (List.range i.val).any fun j => row j = row i.val then Config.laterContacts d i.val else vget contacts (row i.val)

/-- SCAN-FRAME-START (R459, R465, R467, R470). -/
def State.frameStart (s : State) (contacts : Vector (BitVec 32) 16) : State :=
  let s := s.scanRate
  if s.keys.run.isSome then s.modKeys fun x => { x with missed := satInc 65535 x.missed }
  else
    let s := s.modKeys fun x => if x.swapPend then { x with active := !x.active, swapPend := false } else x
    let s := s.modKeys fun x => if x.post && !x.armed then { x with armed := true, base := x.deb } else x
    let d := s.draw
    d.2.runFrame frameFuel { contacts := s.keys.stepContacts contacts d.1, step := 0, events := [], stalled := false, finished := false }

/-- A frame goes on after a stall: the steps still to come sample the contacts of their own time, which are free (R460, log 93). -/
def State.runLater (s : State) (r : ScanRun) : State :=
  let d := s.draw
  d.2.runFrame frameFuel { r with contacts := Vector.ofFn fun i => Config.laterContacts d.1 i.val }

/-- SHIFT-STALL-RESUME (R467). -/
def State.stallResume (s : State) : State :=
  match s.keys.run with
  | some r => if r.stalled && s.scanRoom then s.runLater r else s
  | none => s

/-- Disarming: posts that wait in a stalled shift are dropped, and the frame goes on (R470). -/
def State.disarm (s : State) : State :=
  let s := s.modKeys fun x => { x with post := false, armed := false }
  match s.keys.run with
  | some r =>
    if r.stalled then
      (s.modSow fun w => { w with claims := w.claims.filter fun c => c.2 ≠ .scan }).runLater { r with events := [], stalled := false }
    else s
  | none => s

/-! ### The keyswitch (R343, R344) -/

/-- The published combination of the contacts is valid: exactly one closed. -/
def State.switchValid (s : State) : Bool := s.keyClosed (12 * 32 + 21) != s.keyClosed (12 * 32 + 22)

/-- A published frame reaches the keyswitch rules. -/
def State.switchSeen (s : State) : State :=
  if !s.switchValid then s
  else
    let s' := s.modKeys fun x => { x with ksTicks := 0, ksFault := false }
    if s.keys.ksFault then s'.notice "^KEYSWITCH OK" else s'

/-- A calendar tick reaches the keyswitch rules: the count runs from READY KEYS on (R344). -/
def State.switchTick (s : State) : State :=
  if s.isUp .keys && !s.switchValid then s.modKeys fun x => { x with ksTicks := min 64 (x.ksTicks + 1) } else s

/-- KEYSWITCH-FAULT (R344). -/
def State.switchFault (s : State) : State :=
  if !s.switchValid && !s.keys.ksFault && 64 ≤ s.keys.ksTicks then
    (s.modKeys fun x => { x with ksFault := true }).notice "^KEYSWITCH FAULT"
  else s

/-- SCAN-FRAME-COMPLETE: the frame is published (R462), and the channels, the keyswitch and the LEVER tags follow. -/
def State.frameDone (s : State) : State :=
  match s.keys.run with
  | some r =>
    if r.finished && r.events.isEmpty then
      let s := s.modKeys fun x => { x with pubDeb := x.deb, pubRaw := x.raw, frame := inc32 x.frame, run := none }
      s.keysReach.switchSeen.showTags
    else s
  | none => s

/-! ### Key events (R471, R472) -/

/-- Names of a bay's four keys (R457). -/
def keyName (i : Nat) : String :=
  match i with
  | 0 => "PRESENT"
  | 1 => "LATCHED"
  | 2 => "LEVER"
  | _ => "LOCATE"

/-- Names of row 12 (R457). -/
def panelNames : List String :=
  ["0", "1", "2", "3", "4", "5", "6", "7", "8", "9", "DOT", "ENTER", "CLEAR", "BAY", "TENANCY", "WAKE", "REST", "LOCATE",
   "VIEW", "UP", "DOWN", "KEYSW-A", "KEYSW-B", "SPARE23", "SPARE24", "SPARE25", "SPARE26", "SPARE27", "SPARE28", "SPARE29",
   "SPARE30", "SPARE31"]

/-- Bay of position `p` of rows 0..11. -/
def keyBay (p : Nat) : Nat := 8 * (p / 32) + p % 32 / 4

/-- A position as `*` lines name it (R471). -/
def positionText (p : Nat) : String :=
  if p < 384 then "BAY " ++ decText (keyBay p) ++ " " ++ keyName (p % 4)
  else if p < 416 then "PANEL " ++ panelNames.getD (p % 32) ""
  else "GEN " ++ decText (p / 32) ++ "." ++ decText (p % 32)

/-- The oldest key item that waits for LC. -/
def State.keyItem (s : State) : Option Item :=
  s.sow.store.find? fun it => it.q = s.keys.evq && 0xC000 ≤ it.typ && it.typ < 0xC400

/-- LC serves the oldest key item: its notice, from `^READY KEYS` on (R83), and for a bay's key its copy and its tag. The copy of a bay's key change keeps the item's TYPE, goes to Q5
(R641) and takes the bay's flow. -/
def State.serveKey (s : State) : State :=
  match s.keyItem with
  | none => s
  | some it =>
    let p := fieldAt it.typ 0 9
    let s := s.serveItem it
    let s := if s.isUp .keys then s.notice ("*KEY " ++ positionText p ++ (if bitAt it.typ 9 then " CLOSED" else " OPEN")) else s
    if p < 384 then
      let s := if s.sys.kst = .field then s.lcPost 5 [header 1 (1 + keyBay p) 0 it.typ, wordOf it.typ] else s
      s.showTag (keyBay p)
    else s

/-- KEY-LEVER: a LEVER closing (R474, R481). -/
def State.leverClosed (s : State) (n : Nat) : State :=
  let s := if s.sys.kst = .field then
      s.notice ("^BAY " ++ decText n ++ " LEVER " ++
        (if (s.bayAt n).st.active || (s.bayAt n).st = .stopping then "POWERED" else "SAFE"))
    else s
  s.showTag n

/-! ### Ports (R490) -/

/-- KSC_STATUS. -/
def State.kscStatus (s : State) : Nat :=
  let x := s.keys
  bitNat x.active + 2 * bitNat x.swapPend + 4 * bitNat (x.run.any fun r => r.stalled) + 8 * bitNat x.fast
    + 16 * bitNat x.armed + 32 * x.steps + 65536 * x.rej

/-- A read of port 0x0C00 + `o`. -/
def State.readKeyPort (s : State) (o : Nat) : Nat :=
  let x := s.keys
  if o = 0 then s.kscStatus
  else if o = 1 then x.evq + 256 * bitNat x.post
  else if o = 2 then x.events
  else if o = 3 then x.stalls + 65536 * x.missed
  else if o = 4 then x.frame
  else if o < 0x10 then 0
  else if o < 0x20 then (vget x.pubDeb (o - 0x10)).toNat
  else if o < 0x30 then (vget x.pubRaw (o - 0x20)).toNat
  else if o < 0x40 then (vget x.base (o - 0x30)).toNat
  else if o < 0x80 then (vget x.spare (o - 0x40)).toNat
  else 0

/-- A write of port 0x0C00 + `o`. -/
def State.writeKeyPort (s : State) (o v : Nat) : State :=
  if o = 1 then
    let s := s.modKeys fun x => { x with evq := fieldAt v 0 6, swapPend := x.swapPend || bitAt v 9 }
    if bitAt v 8 then s.modKeys fun x => { x with post := true } else s.disarm
  else if 0x40 ≤ o ∧ o < 0x80 then s.modKeys fun x => x.writeStep (o - 0x40) (BitVec.ofNat 11 v)
  else s

/-! ### The events as commands -/

/-- The latch domain runs: the keeper is not in reset. -/
def onLatch (s : State) (f : State → State) : Res := goOn (if s.sys.inReset then s else f s)

/-- SCAN-FRAME-START. -/
def execScanFrameStart (contacts : Vector (BitVec 32) 16) (s : State) : Res := onLatch s fun s => s.frameStart contacts

/-- SHIFT-STALL-RESUME. -/
def execShiftStallResume (s : State) : Res := onLatch s State.stallResume

/-- SCAN-FRAME-COMPLETE. -/
def execScanFrameComplete (s : State) : Res := onLatch s State.frameDone

/-- SCAN-SWAP (R465, R466). -/
def execScanSwap (s : State) : Res := onLatch s fun s => s.modKeys fun x => { x with swapPend := true }

/-- SCAN-STEP-WRITE (R465). -/
def execScanStepWrite (i : Fin 64) (w : Word) (s : State) : Res :=
  onLatch s fun s => s.modKeys fun x => x.writeStep i.val (w.setWidth 11)

/-- SCAN-ARM (R470). -/
def execScanArm (s : State) : Res := onLatch s fun s => s.modKeys fun x => { x with post := true }

/-- SCAN-DISARM (R470). -/
def execScanDisarm (s : State) : Res := onLatch s State.disarm

/-- KEY-LEVER. -/
def execKeyLever (n : BayNo) (s : State) : Res := onLatch s fun s => s.leverClosed n.val

/-- KEYSWITCH-FAULT. -/
def execKeyswitchFault (s : State) : Res := onLatch s State.switchFault

end Sys2Proof.Machine
end

