-- ==== Sys2Proof/Machine/Seedbank.lean ====
section
/-! DEFINITION. The seedbank (R355 to R361, R743): pages, roles and their copies, payloads, settings in force, writes
asked for by verbs, spares and retirement, and the seedbank ports. -/

namespace Sys2Proof.Machine

def State.modSdb (s : State) (f : Seedbank → Seedbank) : State := { s with sdb := f s.sdb }

/-! ### Pages (R356) -/

/-- The 256 bytes of page `p`. -/
def State.page (s : State) (p : Nat) : List Byte := Mem.gets zeroByte s.sdb.mem (256 * p) 256

def pageMagic (l : List Byte) : Bool := unitAt l 0 1 = 0x5B
def pageOk (l : List Byte) : Bool := pageMagic l && crc32c (l.take 252) = unitAt l 252 4
def pageRole (l : List Byte) : Nat := unitAt l 1 1
def pageGen (l : List Byte) : Nat := unitAt l 4 4

/-- WRITES of a page; 0 where it holds no record. -/
def pageWrites (l : List Byte) : Nat := if pageMagic l then unitAt l 8 4 else 0

/-- A page's bytes. -/
def pageBytes (role gen writes : Nat) (payload : List Byte) : List Byte :=
  let b := [0x5B#8, byteOf role, 0#8, 0#8] ++ leBytes 4 gen ++ leBytes 4 writes ++ padBytes 240 payload
  b ++ leBytes 4 (crc32c b)

def State.pageRetired (s : State) (p : Nat) : Bool := s.sdb.retired.getLsbD p

/-- The page holds a copy of role `r` that counts: role 0 whatever its mark, any other role unmarked (R357). -/
def State.copyOf (s : State) (r p : Nat) : Bool :=
  pageOk (s.page p) && pageRole (s.page p) = r && (r = 0 || !s.pageRetired p)

/-- The newest of pages, by GEN (R357). -/
def State.newestPage (s : State) : List Nat → Option Nat
  | [] => none
  | p :: l =>
    match s.newestPage l with
    | none => some p
    | some q => if serialNewer (pageGen (s.page q)) (pageGen (s.page p)) then some q else some p

/-- The page that holds role `r`'s copy in force. -/
def State.inForce (s : State) (r : Nat) : Option Nat := s.newestPage ((List.range 256).filter (s.copyOf r))

/-- Pages 100..255 that are not marked and hold no valid record: the lowest (R359). -/
def State.freeSpare (s : State) : Option Nat :=
  (List.range 256).find? fun p => 100 ≤ p && !s.pageRetired p && !pageOk (s.page p)

/-- A free spare other than page `p` (R359). -/
def State.spareBut (s : State) (p : Nat) : Option Nat :=
  (List.range 256).find? fun q => 100 ≤ q && !s.pageRetired q && !pageOk (s.page q) && q ≠ p

/-- Role `r`'s pages: its home pages that are not marked, and the spares that hold a copy of it (R358). -/
def State.rolePages (s : State) (r : Nat) : List Nat :=
  ([2 * r, 2 * r + 1].filter fun p => !s.pageRetired p)
    ++ (List.range 256).filter fun p => 100 ≤ p && s.copyOf r p && !s.pageRetired p

/-- The page due for the next write of role `r`, wear aside (R358, R359). -/
def State.dueRaw (s : State) (r : Nat) : Nat :=
  let l := match s.inForce r with
    | some p => (s.rolePages r).filter (· ≠ p)
    | none => s.rolePages r
  match l with
  | p :: _ => p
  | [] => s.freeSpare.getD (if s.inForce r = some (2 * r) then 2 * r + 1 else 2 * r)

/-- GEN of the next copy of role `r` (R356, R358). -/
def State.nextGen (s : State) (r : Nat) : Nat :=
  match s.inForce r with
  | some p => (pageGen (s.page p) + 1) % pow32
  | none => 1

/-! ### Payloads (R743) -/

/-- The 8 packed BCD bytes of a 16-digit count. -/
def bcd8 (n : Nat) : List Byte :=
  (List.range 8).map fun i => byteOf (n / 100 ^ i % 10 + 16 * (n / 100 ^ i / 10 % 10))

/-- The count of packed BCD bytes. -/
def bcdNat : List Byte → Nat
  | [] => 0
  | b :: l => b.toNat % 16 + 10 * (b.toNat / 16) + 100 * bcdNat l

/-- Payload of role 0. -/
def Seedbank.payload0 (d : Seedbank) : List Byte :=
  leBytes 2 d.envMain ++ leBytes 2 d.envAux ++ leBytes 2 d.envMargin ++ leBytes 2 d.envShed
    ++ [byteOf d.envGuard, byteOf (bitNat d.term), byteOf (bitNat d.granSized), 0#8]
    ++ d.weights.toList.map byteOf ++ leBytes 32 d.retired.toNat

/-- Payload of role 1. -/
def Seedbank.payload1 (d : Seedbank) : List Byte := d.assign.toList.map fun a => byteOf (a.getD 255)

/-- Payload of role 2 + t. -/
def Seedbank.payloadKey (d : Seedbank) (t : Nat) : List Byte :=
  match (vget d.ten t).key with
  | some k => 1#8 :: keyBytes k
  | none => [0#8]

/-- Payload of role 18 + t. -/
def Seedbank.payloadTen (d : Seedbank) (t : Nat) : List Byte :=
  let x := vget d.ten t
  [byteOf x.group, 0#8] ++ leBytes 2 x.share ++ bcd8 x.allot ++ x.quotas.toList.flatMap fun q => leBytes 2 q

/-- Payload of role 34 + t. -/
def plotPayload (p : Plot) : List Byte :=
  leBytes 4 (p.addr.getD max32) ++ leBytes 4 p.size ++ [byteOf p.verbs.length, 0#8] ++ leBytes 2 p.replayable.toNat
    ++ (List.range 16).flatMap fun i => padBytes 12 (asciiOf (p.verbs.getD i ""))

/-- Payload of a role, from the settings held. -/
def State.payload (s : State) (r : Nat) : List Byte :=
  if r = 0 then s.sdb.payload0
  else if r = 1 then s.sdb.payload1
  else if r < 18 then s.sdb.payloadKey (r - 2)
  else if r < 34 then s.sdb.payloadTen (r - 18)
  else plotPayload (vget s.plots (r - 34))

/-! ### Settings -/

/-- The role that holds a setting. -/
def Setting.role : Setting → Nat
  | .env _ _ => 0
  | .term _ => 0
  | .granMode _ => 0
  | .weight _ _ => 0
  | .retire _ => 0
  | .assign _ _ => 1
  | .key t _ => 2 + t
  | .group t _ => 18 + t
  | .share t _ => 18 + t
  | .allot t _ => 18 + t
  | .quota t _ _ => 18 + t
  | .plotRec t _ _ _ _ _ => 34 + t

/-- The settings held with an ENVELOPE value. -/
def Seedbank.setEnv (d : Seedbank) (w : EnvWord) (v : Nat) : Seedbank :=
  match w with
  | .main => { d with envMain := v }
  | .aux => { d with envAux := v }
  | .margin => { d with envMargin := v }
  | .shed => { d with envShed := v }
  | .guard => { d with envGuard := v }

def Seedbank.modTen (d : Seedbank) (t : Nat) (f : TenSet → TenSet) : Seedbank := { d with ten := vmod d.ten t f }

/-- The settings held once a value is stored (R191, R193, R197, R212, R216). -/
def State.applySetting (s : State) : Setting → State
  | .env w v => s.modSdb fun d => d.setEnv w v
  | .term on => (s.modSdb fun d => { d with term := on }).modRing fun r => { r with term := on }
  | .granMode z => s.modSdb fun d => { d with granSized := z }
  | .weight g w => s.modSdb fun d => { d with weights := vset d.weights g w, applyDue := true, groupDue := true }
  | .retire p => s.modSdb fun d => { d with retired := putBit d.retired p true }
  | .assign b t =>
    s.modSdb fun d => { d with assign := Vector.ofFn fun i => if b.getLsbD i.val then t else vget d.assign i.val
                               applyDue := true, planDue := true }
  | .key t k => s.modSdb fun d => d.modTen t fun x => { x with key := k }
  | .group t g => s.modSdb fun d => { (d.modTen t fun x => { x with group := g }) with applyDue := true, groupDue := true }
  | .share t v => s.modSdb fun d => { (d.modTen t fun x => { x with share := v }) with applyDue := true, planDue := true }
  | .allot t v => s.modSdb fun d => { (d.modTen t fun x => { x with allot := v }) with applyDue := true }
  | .quota t p k =>
    let s := s.modSdb fun d => d.modTen t fun x => { x with quotas := vset x.quotas p k }
    if p = 0 && !s.gran.sized then { s with gran := { s.gran with quota := vmod s.gran.quota t fun q => vset q 0 k } }
    else if 1 ≤ p && s.gran.sized then
      { s with gran := { s.gran with quota := vmod s.gran.quota t fun q => vset q (p - 1) k } }
    else s
  | .plotRec t a size count rep names =>
    { s with plots := vmod s.plots t fun p =>
        { p with addr := if a = max32 then none else some a, size := size, verbs := names.take count, replayable := rep } }

/-! ### Jobs (R358 to R360) -/

/-- The page that a job's write goes to: where its write has retired the page due and the role has no valid copy, the spare
(R358, R359). -/
def State.dueFor (s : State) (j : SdbJob) : Nat :=
  let r := j.setting.role
  if j.spare && (s.inForce r).isNone then s.freeSpare.getD (s.dueRaw r) else s.dueRaw r

/-- Seedbank writes may start (R360). -/
def State.sdbFree (s : State) : Bool := s.sdb.op.isNone && !s.sys.vstbyLow && !s.sys.inReset

/-- Page `p` is marked in the retired bitmap, and the mark is to be stored by a write of role 0 after the job in hand
(R359). -/
def State.retirePage (s : State) (p : Nat) : State :=
  s.modSdb fun d =>
    { d with retired := putBit d.retired p true
             jobs := match d.jobs with
               | j :: l => { j with spare := true } :: { setting := .retire p, reply := none, handle := none, ord := j.ord } :: l
               | [] => [{ setting := .retire p, reply := none, handle := none }] }

/-- No spare is free (R359). -/
def State.worn (s : State) : State :=
  if s.sdb.worn then s else (s.modSdb fun d => { d with worn := true }).notice "^SEEDBANK WORN"

/-- A page whose next write would be its 100,000th gives way to a spare (R359). DESIGN CHOICE (log 92): where no spare but itself is
free it is not marked, and goes on being written. -/
def State.wearCheck (s : State) (j : SdbJob) : State :=
  let p := s.dueFor j
  if pageWrites (s.page p) + 1 < 100000 then s
  else if (s.spareBut p).isSome then s.retirePage p else s.worn

/-- A handle whose line passed its checks before the job's has its write still to come (R360), whatever it waits for. -/
def State.writesBefore (s : State) (j : SdbJob) : Bool :=
  s.hnd.opens.any fun h => h.ord ≠ 0 && h.ord < j.ord && h.compl.isNone && j.handle ≠ some (h.kk, h.seq)

/-- The next job's write starts (R360). -/
def State.sdbKick (s : State) : State :=
  match s.sdb.jobs with
  | [] => s
  | j :: _ =>
    if s.sdbFree && !s.writesBefore j then (s.wearCheck j).modSdb fun d => { d with op := some .write, jobBusy := true } else s

/-- Put a job in its place, behind those whose lines passed their checks before its own (R360). -/
def insertJob (j : SdbJob) : List SdbJob → List SdbJob
  | [] => [j]
  | x :: l => if j.ord < x.ord then j :: x :: l else x :: insertJob j l

/-- A setting is to be stored. -/
def State.sdbAsk (s : State) (j : SdbJob) : State :=
  (s.modSdb fun d =>
    { d with jobs := d.jobs.take (bitNat d.jobBusy) ++ insertJob j (d.jobs.drop (bitNat d.jobBusy)) }).sdbKick

/-- A page whose write failed or was cut short: any mixture of bytes (R736). -/
def State.pageDamage (s : State) (p : Nat) : State :=
  let d := s.draw
  d.2.modSdb fun x => { x with mem := Mem.puts zeroByte x.mem (256 * p) ((List.range 256).map (Config.damagedByte d.1)) }

/-- The job's write has been verified, and the value counts as stored (R358); the job is handed to the caller. -/
def State.jobStored (s : State) (j : SdbJob) : State :=
  let r := j.setting.role
  let p := s.dueFor j
  let gen := s.nextGen r
  let w := pageWrites (s.page p) + 1
  let s := s.applySetting j.setting
  s.modSdb fun d =>
    { d with mem := Mem.puts zeroByte d.mem (256 * p) (pageBytes r gen w (s.payload r))
             op := none, jobBusy := false, jobs := d.jobs.drop 1 }

/-- The job's write failed its verify: its page is retired and the write is made again, to the spare, or to the same
page where no spare but itself is free, which then is not marked (R359, log 92). -/
def State.jobFailed (s : State) (j : SdbJob) : State :=
  let p := s.dueFor j
  let s := (s.pageDamage p).modSdb fun d => { d with op := none, jobBusy := false, verifyFail := true }
  let s := if (s.spareBut p).isSome then s.retirePage p else s.worn
  s.sdbKick

/-! ### Ports (R361) -/

/-- SDB_STATUS. -/
def State.sdbStatus (s : State) : Nat := bitNat s.sdb.op.isSome + 2 * bitNat s.sdb.verifyFail

/-- A write of SDB_CMD (R361). -/
def State.sdbCmd (s : State) (v : Nat) : State :=
  if !s.sdbFree then s
  else if bitAt v 0 then s.modSdb fun d => { d with op := some .read, opPage := d.page }
  else if bitAt v 1 then s.modSdb fun d => { d with op := some .write, opPage := d.page }
  else s

/-- A command of the port completes. -/
def State.sdbPortDone (s : State) (verified : Bool) : State :=
  let s' := s.modSdb fun d => { d with op := none }
  match s.sdb.op with
  | some .read =>
    s'.modSdb fun d =>
      { d with buf := Vector.ofFn fun i => wordOf (Mem.unit zeroByte d.mem (256 * d.opPage + 4 * i.val) 4) }
  | some .write =>
    if verified then
      s'.modSdb fun d => { d with mem := Mem.puts zeroByte d.mem (256 * d.opPage) (bytesOf d.buf.toList) }
    else (s'.pageDamage s.sdb.opPage).modSdb fun d => { d with verifyFail := true }
  | none => s

/-! ### Cold start (R357) -/

/-- Pages that carry MAGIC and fail their CRC. -/
def State.badPages (s : State) : BitVec 256 :=
  mapOf 256 ((List.range 256).filter fun p => pageMagic (s.page p) && !pageOk (s.page p))

/-- Pages that count as BAD (R218, R357). -/
def State.badCount (s : State) : Nat := (onesOf (s.sdb.bad ||| s.sdb.retired)).length

/-- Text up to the first byte 0 or the end. -/
def nameAt (l : List Byte) (i : Nat) : String := textTo0 ((l.drop i).take 12)

/-- The payload of role `r`'s copy in force. -/
def State.stored (s : State) (r : Nat) : Option (List Byte) := (s.inForce r).map fun p => ((s.page p).drop 12).take 240

/-- A tenancy's settings as stored; blank-seedbank values where a role has no valid copy (R191, R197, R357). -/
def State.loadTen (s : State) (t : Nat) : TenSet :=
  let x : TenSet := { group := if t = 0 then 0 else 1 }
  let x := match s.stored (2 + t) with
    | some l => { x with key := if unitAt l 0 1 = 1 then some (BitVec.ofNat 256 (leNat ((l.drop 1).take 32).reverse)) else none }
    | none => x
  match s.stored (18 + t) with
  | some l =>
    { x with group := unitAt l 0 1, share := unitAt l 2 2, allot := bcdNat ((l.drop 4).take 8)
             quotas := Vector.ofFn fun i => unitAt l (12 + 2 * i.val) 2 }
  | none => x

/-- A plot's record as stored. -/
def State.loadPlot (s : State) (t : Nat) (p : Plot) : Plot :=
  match s.stored (34 + t) with
  | some l =>
    { p with addr := if unitAt l 0 4 = max32 then none else some (unitAt l 0 4), size := unitAt l 4 4
             replayable := BitVec.ofNat 16 (unitAt l 10 2)
             verbs := (List.range (min 16 (unitAt l 8 1))).map fun i => nameAt l (12 + 12 * i) }
  | none => { p with addr := none, size := 0, verbs := [], replayable := 0#16 }

/-- Role 0 as stored. -/
def Seedbank.load0 (d : Seedbank) (l : Option (List Byte)) : Seedbank :=
  match l with
  | some l =>
    { d with envMain := unitAt l 0 2, envAux := unitAt l 2 2, envMargin := unitAt l 4 2, envShed := unitAt l 6 2
             envGuard := unitAt l 8 1, term := unitAt l 9 1 = 1, granSized := unitAt l 10 1 = 1
             weights := Vector.ofFn fun i => unitAt l (12 + i.val) 1, retired := BitVec.ofNat 256 (unitAt l 20 32) }
  | none =>
    { d with envMain := 1000, envAux := 500, envMargin := 50, envShed := 100, envGuard := 20, term := true
             granSized := false, weights := Vector.replicate 8 16, retired := 0#256 }

/-- The bay assignment as stored. -/
def loadAssign (l : Option (List Byte)) : Vector (Option Nat) 96 :=
  match l with
  | some l => Vector.ofFn fun i => if unitAt l i.val 1 < 16 then some (unitAt l i.val 1) else none
  | none => Vector.replicate 96 none

/-- LC reads every page before READY SEEDBANK (R357). -/
def State.loadSeedbank (s : State) : State :=
  let s := s.modSdb fun d => d.load0 (s.stored 0)
  let s := s.modSdb fun d => { d with assign := loadAssign (s.stored 1), assignNow := loadAssign (s.stored 1) }
  let ten : Vector TenSet 16 := Vector.ofFn fun i => s.loadTen i.val
  let plots : Vector Plot 16 := Vector.ofFn fun i => s.loadPlot i.val (vget s.plots i.val)
  { s with
    sdb := { s.sdb with ten := ten, bad := s.badPages, worn := false
                        shareNow := ten.map TenSet.share, shareSet := ten.map TenSet.share, weightSet := s.sdb.weights
                        groupSet := ten.map TenSet.group, allotNow := ten.map TenSet.allot }
    plots := plots }

/-- No role has a valid copy. -/
def State.blank (s : State) : Bool := (List.range 50).all fun r => (s.inForce r).isNone

end Sys2Proof.Machine
end

