-- ==== Sys2Proof/Machine/Thermal.lean ====
section
/-! DEFINITION. Fans and thermistors (R174 to R178, R677, R720 to R722). -/

namespace Sys2Proof.Machine

def State.modFans (s : State) (f : Fans → Fans) : State := { s with fans := f s.fans }
def State.fanAt (s : State) (n : Nat) : Fan := vget s.fans.fan n
def State.modFan (s : State) (n : Nat) (f : Fan → Fan) : State := s.modFans fun x => { x with fan := vmod x.fan n f }

/-! ### Readings -/

/-- The model's scale for fractions: 10^24. -/
def fracScale : Int := 1000000000000000000000000

/-- Terms `k`, `k + 1`, … of the series of atanh at y, scaled: `t` is y^(2k+1) and `y2` is y². -/
def atanhTerms (y2 : Int) : Nat → Nat → Int → Int
  | 0, _, _ => 0
  | f + 1, k, t => t / (2 * (k : Int) + 1) + atanhTerms y2 f (k + 1) (t * y2 / fracScale)

/-- ln(CODE / (4,096 − CODE)), scaled: twice atanh((CODE − 2,048) / 2,048). -/
def codeLn (code : Nat) : Int :=
  let y := ((code : Int) - 2048) * fracScale / 2048
  2 * atanhTerms (y * y / fracScale) 400 0 y

/-- The temperature of a thermistor code in 0.1 °C, rounded halves up (R720). -/
def thermTenths (code : Nat) : Int :=
  let d := fracScale * 20 / 5963 + codeLn code / 3435
  (fracScale * fracScale / d * 10 - 2731 * fracScale) / fracScale

/-- A thermistor's reading (R720). -/
inductive Reading where
  | open_ | short | temp (tenths : Int)
  deriving DecidableEq, Repr, Inhabited

def reading (code : Nat) : Reading :=
  if 3937 < code then .open_ else if code < 215 then .short else .temp (thermTenths code)

/-- The die temperature in 0.1 °C (R721). DESIGN CHOICE (log 76): halves round up, as R720 has it for thermistors; R721
gives no rule for a tie. -/
def dieTenths (code : Nat) : Int := ((code * 10 / 8 : Nat) : Int) - 2731

/-- A temperature in tenths as text (R137). -/
def tenthsText (t : Int) : String := (if t < 0 then "-" else "") ++ fracText 1 t.natAbs

def Reading.text : Reading → String
  | .open_ => "OPEN"
  | .short => "SHORT"
  | .temp t => tenthsText t

/-- A thermistor converted in this field start reads OPEN or SHORT (R486). -/
def State.thermFault (s : State) : Bool :=
  (List.range 16).any fun i => s.fans.thSeen.getLsbD i && (match reading (vget s.fans.th i) with
    | .temp _ => false
    | _ => true)

/-! ### Fans -/

/-- The hottest usable reading. -/
def State.hottest (s : State) : Option Int :=
  (List.range 16).foldl (fun m i =>
    match reading (vget s.fans.th i), m with
    | .temp t, some u => some (max t u)
    | .temp t, none => some t
    | _, _ => m) none

/-- The duty of an AUTO fan (R176). -/
def autoDuty : Option Int → Nat
  | none => 100
  | some t => if t ≤ 300 then 30 else if 500 ≤ t then 100 else 30 + ((t - 300) * 70 / 200).toNat

/-- Every AUTO fan takes its duty (R176). -/
def State.fansAuto (s : State) : State :=
  let d := autoDuty s.hottest
  s.modFans fun x => { x with fan := x.fan.map fun f => if f.manual then f else { f with duty := d } }

/-- Revolutions per minute (R677). -/
def Fan.rpm (f : Fan) : Nat := f.pulses * 30

/-- FAN-TACH-SECOND for one fan (R174, R177, R677). -/
def State.tach (s : State) (n pulses : Nat) : State :=
  let s := s.modFan n fun f =>
    { f with pulses := pulses, seen := f.seen || decide (0 < pulses), absent := f.absent && pulses = 0 }
  if (s.fanAt n).stall && 300 ≤ pulses * 30 then
    (s.modFan n fun f => { f with stall := false }).notice ("^FAN " ++ decText n ++ " RUNNING")
  else s

/-- The fan is not ABSENT, has a duty of at least 30 % and reports below 300 RPM (R177). -/
def Fan.slow (f : Fan) : Bool := !f.absent && 30 ≤ f.duty && f.rpm < 300

/-- A calendar tick reaches the fans: each counts its consecutive slow ticks (R177), and a calendar second ends at a count that is a
multiple of 64 (R677). -/
def State.fanTick (s : State) : State :=
  if s.sys.fieldUp then
    s.modFans fun x =>
      { x with fan := x.fan.map fun f => { f with low := if f.slow then min 128 (f.low + 1) else 0 }
               secondDue := x.secondDue || s.cal.tick % 64 = 0 }
  else s

/-- FAN-STALL: slow for 128 consecutive ticks (R177). -/
def State.fanStalls (s : State) (n : Nat) : State :=
  let f := s.fanAt n
  if !f.stall && f.slow && 128 ≤ f.low then
    (s.modFan n fun f => { f with stall := true }).notice ("^FAN " ++ decText n ++ " STALL")
  else s

/-- TH_DIE gives at least `t` tenths of a degree, without rounding (R721). -/
def dieReaches (code t : Nat) : Bool := decide (8 * (27315 + 10 * t) ≤ 100 * code)

/-- The die alarm (R722). -/
def State.dieAlarm (s : State) : State :=
  let c := vget s.fans.th 16
  if !s.fans.dieHigh && dieReaches c 1150 then (s.modFans fun x => { x with dieHigh := true }).notice "^TEMP DIE HIGH"
  else if s.fans.dieHigh && !dieReaches c 1100 then (s.modFans fun x => { x with dieHigh := false }).notice "^TEMP DIE OK"
  else s

/-- THERMISTOR-CONVERSION (R176, R720, R722). -/
def State.converted (s : State) (i code : Nat) : State :=
  let s := s.modFans fun x => { x with th := vset x.th i code, thSeen := putBit x.thSeen i true }
  if i = 16 then s.dieAlarm else s.fansAuto

/-! ### Ports (R677) -/

/-- A read of port 0x0F00 + `o`. -/
def State.readFanPort (s : State) (o : Nat) : Nat :=
  if o < 8 then (s.fanAt o).duty
  else if o < 16 then (s.fanAt (o - 8)).pulses
  else if o < 33 then vget s.fans.th (o - 16)
  else 0

/-- A write of port 0x0F00 + `o`. -/
def State.writeFanPort (s : State) (o v : Nat) : State :=
  if o < 8 then s.modFan o fun f => { f with duty := fieldAt v 0 7 } else s

/-! ### The events as commands -/

/-- 128 ticks have passed since `^READY FIELD` (R174). -/
def State.fansTimed (s : State) : Bool := s.fans.readyTick.any fun t => t + 128 ≤ s.cal.tick

/-- FAN-ABSENT-TIMEOUT: the fan has given no pulse since `^READY FIELD` (R174). -/
def execFanAbsentTimeout (n : Fin 8) (s : State) : Res :=
  onField s fun s =>
    if !s.fansTimed || (s.fanAt n.val).seen then s else s.modFan n.val fun f => { f with absent := true }

/-- FAN-TACH-SECOND: once a calendar second has ended, its counts are latched (R677). -/
def execFanTachSecond (pulses : Vector (BitVec 16) 8) (s : State) : Res :=
  onField s fun s =>
    if s.fans.secondDue then
      (List.range 8).foldl (fun s n => s.tach n (vget pulses n).toNat) (s.modFans fun x => { x with secondDue := false })
    else s

/-- FAN-STALL. -/
def execFanStall (n : Fin 8) (s : State) : Res := onField s fun s => s.fanStalls n.val

/-- THERMISTOR-CONVERSION; input 16 is the die's. -/
def execThermistorConversion (i : Fin 17) (code : BitVec 12) (s : State) : Res :=
  onField s fun s => s.converted i.val code.toNat

end Sys2Proof.Machine
end

