-- ==== Sys2Proof/Machine/Face.lean ====
section
/-! DEFINITION. The face (R482 to R490): character shapes, displays, annunciators, rendering; the keypad and panel
keys (R172, R473 to R476); and the ALERT output (R692). -/

namespace Sys2Proof.Machine

def State.modFace (s : State) (f : Face → Face) : State := { s with face := f s.face }

/-! ### Cells and the image (R483, R485) -/

/-- A digit of the face: its character and its decimal point. -/
structure Cell where
  ch : Char
  dp : Bool
  deriving DecidableEq, Repr, Inhabited

def blankCell : Cell := { ch := ' ', dp := false }

/-- Shapes of the character set, in capitals (R485). -/
def shapes : List (Char × Nat) :=
  [('0', 0x3F), ('1', 0x06), ('2', 0x5B), ('3', 0x4F), ('4', 0x66), ('5', 0x6D), ('6', 0x7D), ('7', 0x07), ('8', 0x7F),
   ('9', 0x6F), ('A', 0x77), ('B', 0x7C), ('C', 0x39), ('D', 0x5E), ('E', 0x79), ('F', 0x71), ('G', 0x3D), ('H', 0x76),
   ('I', 0x30), ('J', 0x1E)]
  ++ [('L', 0x38), ('N', 0x54), ('O', 0x5C), ('P', 0x73), ('Q', 0x67), ('R', 0x50), ('S', 0x6D), ('T', 0x78), ('U', 0x3E),
   ('Y', 0x6E), ('-', 0x40), ('_', 0x08), (' ', 0x00)]

/-- The shape of a character, in either case. -/
def shapeOf (c : Char) : Option Nat := (shapes.find? fun p => p.1 = capOf c).map Prod.snd

/-- The eight image bits of a digit, in the order a, f, e, d, b, g, c, dp. -/
def cellBits (x : Cell) : Nat :=
  let v := (shapeOf x.ch).getD 0
  let b := fun i => v / 2 ^ i % 2
  b 0 + 2 * b 5 + 4 * b 4 + 8 * b 3 + 16 * b 1 + 32 * b 6 + 64 * b 2 + 128 * bitNat x.dp

/-- Word `i` of the image, from the digits and the annunciators. -/
def imageWord (cells : List Cell) (ann : Nat) (i : Nat) : Word :=
  if i = 4 then wordOf ann
  else wordOf ((List.range 4).foldl (fun n j => n + cellBits (cells.getD (4 * i + j) blankCell) * 256 ^ j) 0)

/-- The cells of a text: a `.` lights the point of the character before it (R171). -/
def cellsOf : List Char → List Cell
  | [] => []
  | c :: '.' :: l => { ch := c, dp := true } :: cellsOf l
  | c :: l => { ch := c, dp := false } :: cellsOf l

/-- A text that FACE TEXT can show (R171, R485). -/
def textShows (t : String) : Bool :=
  let l := cellsOf t.toList
  l.length ≤ 16 && l.all fun x => (shapeOf x.ch).isSome

/-- A field of `w` digits: right-aligned, or dashes where the text is too long for it (R487). -/
def fieldCells (w : Nat) (t : String) : List Cell :=
  let l := cellsOf t.toList
  if w < l.length then List.replicate w { ch := '-', dp := false }
  else List.replicate (w - l.length) blankCell ++ l

/-- A field of dashes. -/
def dashes (w : Nat) : List Cell := List.replicate w { ch := '-', dp := false }

/-- Left-aligned characters in a field of `w` digits. -/
def leftCells (w : Nat) (t : String) : List Cell := (cellsOf t.toList ++ List.replicate w blankCell).take w

/-! ### What displays show (R487) -/

/-- A bay's state without its channel: by the lock latch and the PRESENT key (R142). -/
def State.bayDark (s : State) (n : Nat) : BState := if s.locked n then .locked else if s.present n then .presentOff else .empty

/-- A bay's state as displays show it: the channel's in field state. -/
def State.bayShown (s : State) (n : Nat) : BState := if s.sys.fieldUp then (s.bayAt n).st else s.bayDark n

/-- Bays in a state, as STATE counts them: without their channels until `^READY BAYS ROW 0` (R141, R142). -/
def State.countBays (s : State) (st : BState) : Nat :=
  ((List.range 96).filter fun n => (if s.isUp (.baysRow 0) then s.bayShown n else s.bayDark n) = st).length

def stateWord : KState → String
  | .latch => "LAtCH"
  | .waking => "StArt"
  | .field => "FIELd"
  | .resting => "rESt"

def bayWord : BState → String
  | .empty => "nonE"
  | .presentOff => "OFF"
  | .starting => "StArt"
  | .on => "On"
  | .stopping => "StOP"
  | .tripped => "triP"
  | .locked => "LOCd"
  | .held => "HELd"

/-- Civil date of a day count from 1970-01-01: year, month, day. -/
def civil (days : Nat) : Nat × Nat × Nat :=
  let z := days + 719468
  let era := z / 146097
  let doe := z % 146097
  let yoe := (doe - doe / 1460 + doe / 36524 - doe / 146096) / 365
  let doy := doe - (365 * yoe + yoe / 4 - yoe / 100)
  let mp := (5 * doy + 2) / 153
  let d := doy - (153 * mp + 2) / 5 + 1
  let m := if mp < 10 then mp + 3 else mp - 9
  (yoe + era * 400 + bitNat (m ≤ 2), m, d)

def State.timeCells (s : State) : List Cell :=
  if s.cal.utcSet then
    let u := s.cal.utc
    let c := civil (u / 86400)
    let r := u % 86400
    leftCells 9 (padText 4 c.1 ++ "." ++ padText 2 c.2.1 ++ "." ++ padText 2 c.2.2)
      ++ leftCells 6 (padText 2 (r / 3600) ++ "." ++ padText 2 (r / 60 % 60) ++ "." ++ padText 2 (r % 60))
  else leftCells 1 "t" ++ fieldCells 15 (decText s.cal.tick)

/-- The break position that a keeper reports: the head's, or a member's under R326; none where unknown. -/
def State.breakPos (s : State) : Option Nat :=
  if s.sys.head then (if s.ring.known then some s.ring.after else none)
  else s.ring.number.map fun n => n - 1

/-- The ring reads BROKEN (R324, R326). -/
def State.ringBroken (s : State) : Bool :=
  s.isUp .ring && (if s.sys.head then s.ring.st = .broken else s.ring.upDead)

def State.ringWord (s : State) : String :=
  if s.ringBroken then "CUt"
  else if !s.isUp .ring then "PEnd"
  else match s.ring.st with
    | .pending => "PEnd"
    | .ok => "Good"
    | .broken => "CUt"
    | .alone => "ALonE"
    | .overflow => "FULL"

def State.ringCells (s : State) : List Cell :=
  let num := match s.ring.number with
    | some n => fieldCells 3 (decText n)
    | none => dashes 3
  let tail :=
    if s.ringBroken then
      leftCells 1 "A" ++ (match s.breakPos with
        | some n => fieldCells 3 (decText n)
        | none => dashes 3)
    else if s.sys.head then leftCells 1 "C" ++ fieldCells 3 (decText s.ring.count)
    else []
  leftCells 1 "r" ++ num ++ [blankCell] ++ leftCells 6 s.ringWord ++ tail

/-- Main current of a bay in 0.1 A, to the nearest (R411). -/
def State.mainTenths (s : State) (n : Nat) : Nat :=
  divHalfUp ((s.bayAt n).main.isum.toNat * isumScale) (s.shunt n .main * 100000000000)

def State.bayCells (s : State) (n : Nat) : List Cell :=
  leftCells 1 "b" ++ fieldCells 2 (decText n) ++ [blankCell] ++ leftCells 6 (bayWord (s.bayShown n)) ++ leftCells 1 "t"
    ++ (match vget s.sdb.assign n with
      | some t => fieldCells 2 (decText t)
      | none => leftCells 2 "--")
    ++ (if !s.sys.fieldUp || 99 < s.mainTenths n then dashes 3 else fieldCells 3 (fracText 1 (s.mainTenths n)))

/-- Bays assigned to tenancy `t`. -/
def State.baysOf (s : State) (t : Nat) : List Nat := (List.range 96).filter fun n => vget s.sdb.assign n = some t

def State.tenancyCells (s : State) (t : Nat) : List Cell :=
  let l := s.baysOf t
  leftCells 1 "t" ++ fieldCells 2 (decText t) ++ [blankCell] ++ leftCells 1 "b" ++ fieldCells 2 (decText l.length)
    ++ [blankCell] ++ leftCells 1 "o" ++ fieldCells 2 (decText (l.filter fun n => s.bayShown n = .on).length)

def State.powerCells (s : State) : List Cell :=
  let f := fun v => if s.sys.fieldUp then fieldCells 5 (fracText 1 (v / 10)) else dashes 5
  leftCells 1 "P" ++ f s.env.totM ++ [blankCell] ++ leftCells 1 "A" ++ f s.env.totA

def State.stateCells (s : State) : List Cell :=
  leftCells 6 (stateWord s.sys.kst) ++ leftCells 1 "o" ++ fieldCells 2 (decText (s.countBays .on)) ++ [blankCell]
    ++ leftCells 1 "t" ++ fieldCells 2 (decText (s.countBays .tripped)) ++ leftCells 1 "L"
    ++ fieldCells 2 (decText (s.countBays .locked))

def State.viewCells (s : State) : View → List Cell
  | .state => s.stateCells
  | .power => s.powerCells
  | .time => s.timeCells
  | .ring => s.ringCells
  | .auto => s.stateCells

def State.displayCells (s : State) : Display → List Cell
  | .view v => s.viewCells v
  | .bay n => s.bayCells n
  | .tenancy t => s.tenancyCells t
  | .err => leftCells 3 "Err"
  | .text t => cellsOf t.toList

/-! ### Which display is shown (R172, R488) -/

/-- The displays of a round of AUTO (R488). -/
def State.autoRound (s : State) : List Display :=
  [.view .state, .view .time, .view .ring] ++ (if s.sys.kst = .field then [.view .power] else [])
    ++ (((List.range 96).filter fun n => (s.bayAt n).locate.isSome).take 4).map .bay

def State.autoShown (s : State) : Display := s.autoRound.getD (s.face.auto % s.autoRound.length) (.view .state)

/-- The host's text or view. DESIGN CHOICE (log 77): FACE TEXT OFF returns to the AUTO round, whatever view was set before the text;
R171 says only that it returns the face to LC's views. -/
def State.hostShown (s : State) : Display :=
  match s.face.host with
  | .text t => .text t
  | .off => s.autoShown
  | .view .auto => s.autoShown
  | .view v => .view v

/-- The display shown. -/
def State.shownNow (s : State) : Display := s.face.keypad.getD s.hostShown

/-! ### Annunciators (R486) -/

/-- Handles that wait for replay. -/
def State.replayWaiting (s : State) : Nat := (s.hnd.opens.filter fun h => h.waiting).length

def State.annunciators (s : State) : List Bool :=
  let d := s.shownNow
  ([s.sys.kst = .latch, s.sys.kst = .waking, s.sys.kst = .field, s.sys.kst = .resting, s.sys.head,
   s.isUp .ring && s.ring.st = .ok && !s.ringBroken, s.ringBroken,
   s.isUp .ring && !s.ringBroken && (s.ring.st = .alone || s.ring.st = .overflow), s.turned, s.cal.utcSet,
   0 < s.replayWaiting, s.hnd.opens.any Handle.isOpen, s.hnd.kept.any Kept.orphaned, 0 < s.countBays .tripped,
   0 < s.countBays .locked, (List.range 96).any fun n => (s.bayAt n).locate.isSome] : List Bool)
  ++ ([s.guardHolding, 0 < s.env.unplaced, (List.range 8).any fun n => (s.fanAt n).stall, s.thermFault,
   s.sdb.worn || s.badCount ≠ 0, s.jrn.bad ≠ 0 || s.jrn.failed, s.led.overflowed || s.led.wasReset,
   s.face.keypad.isSome,
   (match d with
    | .bay _ => true
    | _ => false),
   (match d with
    | .tenancy _ => true
    | _ => false),
   (match d with
    | .bay _ => true
    | .view .power => true
    | _ => false),
   false] : List Bool)

/-- The annunciators as an image word. -/
def annWord (l : List Bool) : Nat := l.zipIdx.foldl (fun n p => n + bitNat p.1 * 2 ^ p.2) 0

/-- The annunciators that assert ALERT_N (R692). -/
def alertOf (l : List Bool) : Bool := [6, 13, 14, 18, 19, 20, 21, 22].any fun j => l.getD j false

/-- FACE-RENDER: LC writes the image and commits it; SYS_ALERT follows (R489, R692). -/
def State.render (s : State) : State :=
  let ann := s.annunciators
  let cells := s.displayCells s.shownNow
  let img : Vector Word 5 := Vector.ofFn fun i => if s.face.dot then 0xFFFFFFFF#32 else imageWord cells (annWord ann) i.val
  (s.modFace fun f => { f with img := img, pend := true }).modSys fun y => { y with alert := alertOf ann }

/-- FACE-FRAME-START (R484). -/
def State.faceFrame (s : State) : State :=
  s.modFace fun f =>
    if f.pend then { f with shown := f.img, pend := false, inverted := !f.inverted } else { f with inverted := !f.inverted }

/-! ### What the face and the tags show (R477 to R480, R482, R483) -/

/-- VLCD in hundredths of a volt (R482): discharged in reset (R687). -/
def State.vlcdVolts (s : State) : Nat := if s.face.en && !s.sys.inReset then 240 + 2 * min 30 s.face.vlcd else 0

/-- The segment of line `seg` under common `com` is lit (R482, R483): none is while EN is 0, and none in reset (R687). -/
def State.segLit (s : State) (seg com : Nat) : Bool :=
  s.face.en && !s.sys.inReset && (vget s.face.shown ((4 * seg + com) / 32)).getLsbD ((4 * seg + com) % 32)

/-- The part of each slot, in 63rds from its start, for which a pattern code is lit at calendar tick `t` (R479). -/
def patternPart (code t : Nat) : Nat :=
  match code with
  | 1 => 63
  | 2 => if t % 64 < 32 then 63 else 0
  | 3 => if t % 16 < 8 then 63 else 0
  | 4 => if t % 128 < 64 then t % 128 else 127 - t % 128
  | _ => 0

/-- The bay and the colour of the LED at a row and a column of the matrix (R477). -/
def ledAt (row col : Nat) : Nat × Nat := (8 * row + col / 3, col % 3)

/-- The current of a current code, in milliamperes (R478). -/
def tagCurrent (code : Nat) : Nat := 2 + 2 * min 11 code

/-- The current that column `col` sources `x` SCLK into the slot of row `row`, in milliamperes (R477 to R480). -/
def State.tagDrive (s : State) (row col x : Nat) : Nat :=
  let l := ledAt row col
  if s.sys.fieldUp && s.tags.en && 256 ≤ x && 63 * x < patternPart (vget (vget s.tags.pat l.1) l.2) s.cal.tick * 2 ^ 14 then
    tagCurrent (vget s.tags.cur l.2)
  else 0

/-! ### The keypad (R172, R473, R475, R476) -/

/-- A key of row 12 takes the face for the keypad (R172). DESIGN CHOICE (log 77): where the press names no display of its
own (a digit, WAKE, REST, a spare), the keypad shows the display that stood there, a host's text or a view of the AUTO round
included. -/
def State.press (s : State) : State := s.modFace fun f => { f with keypad := some s.shownNow, keyTick := s.cal.tick }

/-- The keypad shows a display. -/
def State.keypadShow (s : State) (d : Display) : State :=
  s.modFace fun f => { f with keypad := some d, keyTick := s.cal.tick }

/-- ERR, over the display shown before it (R476). -/
def State.showErr (s : State) : State :=
  let prev := match s.face.keypad, s.face.errPrev with
    | some .err, some p => p
    | _, _ => some s.shownNow
  (s.keypadShow .err).modFace fun f => { f with errPrev := some prev, errTick := s.cal.tick }

/-- The number of an entry: its last two digits (R475). -/
def entryOf (digits : List (Fin 10)) : Nat :=
  (digits.drop (digits.length - 2)).foldl (fun n d => 10 * n + d.val) 0

/-- BAY, digits, ENTER. -/
def State.keypadBay (s : State) (digits : List (Fin 10)) : State :=
  if digits.isEmpty || 95 < entryOf digits then s.press.showErr else s.keypadShow (.bay (entryOf digits))

/-- TENANCY, digits, ENTER. -/
def State.keypadTenancy (s : State) (digits : List (Fin 10)) : State :=
  if digits.isEmpty || 15 < entryOf digits then s.press.showErr else s.keypadShow (.tenancy (entryOf digits))

/-- UP and DOWN. -/
def State.keypadStep (s : State) (up : Bool) : State :=
  match s.shownNow with
  | .bay n => s.keypadShow (.bay ((if up then n + 1 else n + 95) % 96))
  | .tenancy t => s.keypadShow (.tenancy ((if up then t + 1 else t + 15) % 16))
  | _ => s.press

/-- Set or clear bay `n`'s locate mark (R155). -/
def State.setLocate (s : State) (n : Nat) (on : Bool) : State :=
  (s.modBay n fun b => { b with locate := if on then some s.cal.tick else none }).showTag n

/-- LOCATE of the keypad. -/
def State.keypadLocate (s : State) : State :=
  match s.shownNow with
  | .bay n =>
    if s.sys.kst = .field then s.press.setLocate n (s.bayAt n).locate.isNone else s.press.showErr
  | _ => s.press.showErr

/-- The view after the one shown (R475). -/
def nextView : Display → View
  | .view .state => .power
  | .view .power => .time
  | .view .time => .ring
  | _ => .state

/-- KEY-LOCATE: a LOCATE key closing (R473). -/
def State.locateKey (s : State) (n : Nat) : State :=
  if (s.bayAt n).locate.isSome then s.setLocate n false else s.keypadShow (.bay n)

/-- Ask for a WAKE: the cause joins those that stand already (R35, R242). -/
def State.askWake (s : State) (c : WakeCause) : State :=
  s.modSys fun y => { y with wakePend := if y.wakePend.contains c then y.wakePend else y.wakePend ++ [c] }

/-- A front-panel WAKE (R209 names the same states for a plot's request; R476). -/
def State.panelWake (s : State) : State :=
  let s := s.press
  if s.sys.kst = .latch || s.sys.kst = .resting then
    (s.askWake .panel).notice "^PANEL WAKE"
  else s

/-- A front-panel REST (R475). -/
def State.panelRest (s : State) : State :=
  let s := s.press
  if !s.turned then s.showErr
  else if s.canAccept 0 then s.accept 0 { ses := 0, tag := panelTag } "REST" .rest
  else s

/-- DOT pressed or released (R475). -/
def State.setDot (s : State) (held : Bool) : State :=
  ((if held then s.press else s).modFace fun f => { f with dot := held }).showTags

/-- A key item whose key takes the face: a closing key of row 12, but for the keyswitch contacts, and for CLEAR, which
ends the hold at once (R475). -/
def takesFace (it : Item) : Bool :=
  let p := fieldAt it.typ 0 9
  bitAt it.typ 9 && 384 ≤ p && p < 416 && !([12, 21, 22].contains (p - 384))

/-- LC serves a key item (R471, R472), and from READY KEYS on a front-panel key takes the face (R83, R172, R475). -/
def State.serveKeyEvent (s : State) : State :=
  match s.keyItem with
  | none => s
  | some it => if s.isUp .keys && takesFace it then s.serveKey.press else s.serveKey

/-! ### Ports (R490) -/

/-- A read of port 0x0E00 + `o`. -/
def State.readFacePort (s : State) (o : Nat) : Nat :=
  if o = 0 then s.face.vlcd + 256 * bitNat s.face.en + 1024 * bitNat s.face.pend
  else if 8 ≤ o ∧ o < 13 then (vget s.face.img (o - 8)).toNat
  else if 16 ≤ o ∧ o < 21 then (vget s.face.shown (o - 16)).toNat
  else 0

/-- A write of port 0x0E00 + `o`. -/
def State.writeFacePort (s : State) (o v : Nat) : State :=
  if o = 0 then s.modFace fun f => { f with vlcd := fieldAt v 0 5, en := bitAt v 8, pend := f.pend || bitAt v 9 }
  else if 8 ≤ o ∧ o < 13 then s.modFace fun f => { f with img := vset f.img (o - 8) (wordOf v) }
  else s

/-- A read of port 0x0D00 + `o`. -/
def State.readTagPort (s : State) (o : Nat) : Nat :=
  if o = 0 then bitNat s.tags.en
  else if o = 1 then vget s.tags.cur 0 + 16 * vget s.tags.cur 1 + 256 * vget s.tags.cur 2
  else if 16 ≤ o ∧ o < 112 then
    let p := vget s.tags.pat (o - 16)
    vget p 0 + 16 * vget p 1 + 256 * vget p 2
  else 0

/-- A write of port 0x0D00 + `o`. -/
def State.writeTagPort (s : State) (o v : Nat) : State :=
  if o = 0 then s.modTags fun t => { t with en := bitAt v 0 }
  else if o = 1 then s.modTags fun t => { t with cur := #v[fieldAt v 0 4, fieldAt v 4 4, fieldAt v 8 4] }
  else if 16 ≤ o ∧ o < 112 then
    s.modTags fun t => { t with pat := vset t.pat (o - 16) #v[fieldAt v 0 3, fieldAt v 4 3, fieldAt v 8 3] }
  else s

/-! ### The events as commands -/

/-- Front-panel actions are usable from READY KEYS (R83). -/
def onPanel (s : State) (f : State → State) : Res := onLatch s fun s => if s.isUp .keys then f s else s

/-- KEY-EVENT-SERVE. -/
def execKeyEventServe (s : State) : Res := onLatch s State.serveKeyEvent

/-- KEY-LOCATE. -/
def execKeyLocate (n : BayNo) (s : State) : Res := onPanel s fun s => s.locateKey n.val

/-- KEYPAD-BAY. -/
def execKeypadBay (digits : List (Fin 10)) (s : State) : Res := onPanel s fun s => s.keypadBay digits

/-- KEYPAD-TENANCY. -/
def execKeypadTenancy (digits : List (Fin 10)) (s : State) : Res := onPanel s fun s => s.keypadTenancy digits

/-- KEYPAD-UP-DOWN. -/
def execKeypadUpDown (up : Bool) (s : State) : Res := onPanel s fun s => s.keypadStep up

/-- KEYPAD-LOCATE. -/
def execKeypadLocate (s : State) : Res := onPanel s State.keypadLocate

/-- KEYPAD-VIEW. -/
def execKeypadView (s : State) : Res := onPanel s fun s => s.keypadShow (.view (nextView s.shownNow))

/-- KEYPAD-CLEAR. -/
def execKeypadClear (s : State) : Res := onPanel s fun s => s.modFace fun f => { f with keypad := none }

/-- KEYPAD-HOLD-TIMEOUT (R172). -/
def execKeypadHoldTimeout (s : State) : Res :=
  onLatch s fun s => if s.face.keyTick + 3840 ≤ s.cal.tick then s.modFace fun f => { f with keypad := none } else s

/-- PANEL-WAKE. -/
def execPanelWake (s : State) : Res := onPanel s State.panelWake

/-- PANEL-REST. -/
def execPanelRest (s : State) : Res := onPanel s State.panelRest

/-- PANEL-DOT. -/
def execPanelDot (held : Bool) (s : State) : Res := onPanel s fun s => s.setDot held

/-- ERR-TIMEOUT (R476). -/
def execErrTimeout (s : State) : Res :=
  onLatch s fun s =>
    if s.face.keypad = some .err && s.face.errTick + 64 ≤ s.cal.tick then
      s.modFace fun f => { f with keypad := f.errPrev.getD none, errPrev := none }
    else s

/-- FACE-COMMIT: a write of COMMIT (R484). -/
def execFaceCommit (s : State) : Res := onLatch s fun s => s.modFace fun f => { f with pend := true }

/-- FACE-FRAME-START. -/
def execFaceFrameStart (s : State) : Res := onLatch s State.faceFrame

/-- FACE-RENDER: from READY FACE on the face leaves its start view (R83). -/
def execFaceRender (s : State) : Res := onLatch s fun s => if s.face.started then s.render else s

/-- FACE-VIEW-ROTATE (R488). -/
def execFaceViewRotate (s : State) : Res :=
  onLatch s fun s =>
    if s.face.autoTick + 320 ≤ s.cal.tick then
      s.modFace fun f => { f with auto := (f.auto + 1) % s.autoRound.length, autoTick := s.cal.tick }
    else s

/-- LOCATE-MARK-TIMEOUT (R155). -/
def execLocateMarkTimeout (n : BayNo) (s : State) : Res :=
  onLatch s fun s =>
    match (s.bayAt n.val).locate with
    | some t => if t + 57600 ≤ s.cal.tick then s.setLocate n.val false else s
    | none => s

end Sys2Proof.Machine
end

