-- ==== Sys2Proof/Machine/Forms.lean ====
section
/-! DEFINITION. What each verb form needs: readiness, rights and legal state (R83 to R86, R126, R131 to R135, R138, R179,
R181, R246), and running a line of a session. -/

namespace Sys2Proof.Machine

/-- WAKING or FIELD: the states in which an immediate field form is legal (R134). -/
def State.inField (s : State) : Bool := s.sys.kst = .waking || s.sys.kst = .field

/-- Functions that a handle form must find announced in WAKING and FIELD (R86, R181). -/
def State.gate (s : State) : Form → List Fn
  | .wake => []
  | .rest => []
  | .face _ => []
  | .keySet _ _ => []
  | .keyClear _ => []
  | .epoch _ _ => [.ledger]
  | f => s.needsOf f

/-- A handle form is usable now (R83, R85, R86, R135). -/
def State.usable (s : State) (f : Form) : Bool := s.isUp .replay && (!s.inField || s.allUp (s.gate f))

/-- Numbers of a list of bays, ascending and without repeats (R133). -/
def bayList (l : List BayNo) : List Nat := (List.range 96).filter fun n => l.any fun b => b.val = n

/-- A map of bays. -/
def bayMap (l : List Nat) : BitVec 96 := mapOf 96 l

/-- The named bays whose row has announced; all of them in LATCH and RESTING (R86). -/
def State.actedBays (s : State) (l : List Nat) : List Nat :=
  if s.inField then l.filter fun n => s.isUp (.baysRow (n / 8)) else l

/-- Some named row has announced, or the line comes in LATCH or RESTING. -/
def State.bayReady (s : State) (l : List Nat) : Bool := s.isUp .replay && !(s.actedBays l).isEmpty

/-- The row of bay `n` has announced, in WAKING or FIELD. -/
def State.rowReady (s : State) (n : Nat) : Bool := s.inField && s.isUp (.baysRow (n / 8))

/-- A value in units of its word: tenths of an ampere, or milliseconds. -/
def envValue (w : EnvWord) (v : DecVal) : Nat := if w = .guard then v.whole else scaledOf v 1

/-- The range and the digits of R159. -/
def State.envOk (s : State) (w : EnvWord) (v : DecVal) : Bool :=
  let x := envValue w v
  match w with
  | .main => v.digits ≤ 1 && 10 ≤ x && x ≤ 4000
  | .aux => v.digits ≤ 1 && 10 ≤ x && x ≤ 2000
  | .margin => v.digits ≤ 1 && x ≤ 500 && x < s.sdb.envMain
  | .shed => v.digits ≤ 1 && 1 ≤ x && x ≤ 1000
  | .guard => v.digits = 0 && x ≤ 255

/-- The code of a rate. -/
def baudCode (r : Nat) : Option Nat :=
  if r = 9600 then some 0 else if r = 115200 then some 1 else if r = 460800 then some 2 else none

def State.keySet (s : State) (t : Nat) : Bool := (vget s.sdb.ten t).key.isSome

/-- The message of R339: challenge bytes, then serial bytes. -/
def proofMessage (c : BitVec 64) : List Byte := beBytes 8 c.toNat ++ beBytes 8 Config.serial.toNat

/-- The four groups of the proof (R339). -/
def proofGroups (key : BitVec 256) (c : BitVec 64) : List (BitVec 16) :=
  let m := hmac (keyBytes key) (proofMessage c)
  (List.range 4).map fun i => BitVec.ofNat 16 (beNat ((m.drop (2 * i)).take 2))

/-- Session `k`'s challenge has lapsed: 3,840 ticks have passed since its OPEN was answered, and its answer is not still held
(R337). -/
def State.lapsed (s : State) (k : Nat) : Bool :=
  decide ((s.sesAt k).openTick + 3840 ≤ s.cal.tick) && !s.sys.due.contains (k, .opened)

/-- The challenge pending in session `k` (R337). -/
def State.pendingChallenge (s : State) (k : Nat) : Option (Nat × BitVec 64) :=
  if s.lapsed k then none else (s.sesAt k).challenge

/-- The tenancy that a PROVE line proves. -/
def State.proves (s : State) (k : Nat) (groups : List (BitVec 16)) : Option Nat :=
  match s.pendingChallenge k with
  | some (t, c) =>
    match (vget s.sdb.ten t).key with
    | some key => if groups = proofGroups key c then some t else none
    | none => none
  | none => none

/-- The TENANCY verbs are legal here. -/
def State.tenReady (s : State) : Bool := s.inField && s.isUp .tenancy

/-- The share of tenancy `t` once every write asked for is stored. -/
def Seedbank.shareAsked (d : Seedbank) (t : Nat) : Nat :=
  d.jobs.foldl (fun v j => match j.setting with
    | .share u w => if u = t then w else v
    | _ => v) (vget d.ten t).share

/-- The sum of the shares with tenancy `t`'s at `v` (R191). -/
def Seedbank.shareSum (d : Seedbank) (t v : Nat) : Nat :=
  (List.range 16).foldl (fun n u => n + (if u = t then v else d.shareAsked u)) 0

/-- Pools of the present mode. -/
def State.pools (s : State) : List Nat := if s.gran.sized then [0, 1, 2, 3] else [0]

def State.plotAt (s : State) (t : Nat) : Plot := vget s.plots t
def State.modPlot (s : State) (t : Nat) (f : Plot → Plot) : State := { s with plots := vmod s.plots t f }

/-- The index of an X verb that plot `t` declares, or declared at its last load (R205). -/
def Plot.verbIndex (p : Plot) (name : String) : Option Nat := p.verbs.findIdx? fun v => v = name

/-- A PLOT LOAD of plot `t` is past the begin of its step 1 and its completion is not out, one that waits for its replay too
(R203). -/
def State.loadOpen (s : State) (t : Nat) : Bool :=
  s.hnd.opens.any fun h => (h.running || 0 < h.step || 0 < h.stepReq) && (match h.form with
    | .plotLoad u _ => u = t
    | _ => false)

/-- Plot `t`'s X verbs are usable: recorded in LATCH, announced and running in WAKING and FIELD (R83, R203, R205). -/
def State.xReady (s : State) (t : Nat) : Bool :=
  s.isUp .replay && !s.loadOpen t && (!s.inField || (s.isUp (.plot t) && (s.plotAt t).st = .running))

/-- The X verb of a line: its tenancy, index and replayable bit (R205, R350). -/
def State.xVerb (s : State) (k : Nat) (name text : String) : Option (Nat × Nat × Bool) :=
  match s.holds k with
  | none => none
  | some t =>
    match (s.plotAt t).verbIndex name with
    | none => none
    | some i =>
      let r := (s.plotAt t).replayable.getLsbD i
      if s.xReady t && !(r && 40 < text.length) then some (t, i, r) else none

/-- TRACE forms are legal here. -/
def State.traceReady (s : State) (k : Nat) : Bool := s.inField && s.isUp .field && s.steward k

/-- STATS forms are legal here. -/
def State.statsReady (s : State) (k : Nat) : Bool := s.inField && s.isUp .sower && s.steward k

/-- GRANARY forms are legal here. -/
def State.granReady (s : State) (k : Nat) : Bool := s.inField && s.isUp .granary && s.steward k

/-- LEDGER and LEDGER GAPS are legal and usable (R181). -/
def State.ledgerReady (s : State) : Bool :=
  match s.sys.kst with
  | .latch => s.isUp .replay
  | .resting => false
  | _ => s.isUp .ledger

/-! ### The checks of R126 before resources -/

/-- The ring's setting forms need the steward (R181); RING ENUM is a host error on a member (R212). -/
def State.ringSteward (s : State) (k : Nat) : Bool := s.isUp .ring && s.steward k

/-- What a verb line of session `k` must find: what it needs announced, its rights, its legal state, and its values in
range (R84, R126, R138, R181, R246). -/
def State.formOk (s : State) (k : Nat) : Instr → Bool
  | .state _ => true
  | .wake _ => s.usable .wake && (s.holds k).isSome
  | .rest _ => s.usable .rest && s.steward k
  | .bayOn _ l => s.bayReady (bayList l) && s.bayRights k (bayList l)
  | .bayOff _ l => s.bayReady (bayList l) && s.bayRights k (bayList l)
  | .bayLocateOn _ n => s.rowReady n.val && s.bayRights k [n.val]
  | .bayLocateOff _ n => s.rowReady n.val && s.bayRights k [n.val]
  | .bayUnlock _ n _ _ =>
    s.isUp (.baysRow (n.val / 8)) && s.steward k && s.sys.kst = .field && (s.bayAt n.val).st = .locked
  | .bayInfo _ l => s.inField && !(s.actedBays (bayList l)).isEmpty && s.bayRights k (bayList l)
  | .envelope _ => s.inField && s.isUp .envelope
  | .envelopeSet _ w v => s.envOk w v && s.usable (.envSet w (envValue w v)) && s.steward k
  | .profile _ n => s.inField && s.isUp .envelope && s.bayRights k [n.val]
  | .profileForget _ l => s.usable (.forget (bayMap (bayList l)) 0#96) && s.steward k
  | .scan _ => s.isUp .keys && s.steward k
  | .scanRow _ _ => s.isUp .keys && s.steward k
  | .keys _ l => s.isUp .keys && !(bayList l).isEmpty && s.bayRights k (bayList l)
  | .keysPanel _ => s.isUp .keys && s.steward k
  | .keysGeneral _ => s.isUp .keys && s.steward k
  | .tag _ l c p => s.usable (.tag (bayMap (bayList l)) c p) && s.bayRights k (bayList l)
  | .tagAuto _ l => s.usable (.tagAuto (bayMap (bayList l))) && s.bayRights k (bayList l)
  | .face _ => s.isUp .face
  | .faceText _ t => textShows t && s.usable (.face (.text t)) && s.steward k
  | .faceTextOff _ => s.usable (.face .off) && s.steward k
  | .faceView _ v => s.usable (.face (.view v)) && s.steward k
  | .fan _ => s.inField && s.isUp .field
  | .fanDuty _ _ _ => s.inField && s.isUp .field && s.steward k
  | .fanAuto _ _ => s.inField && s.isUp .field && s.steward k
  | .temp _ => s.inField && s.isUp .field
  | .line _ => true
  | .lineBaud _ b => (baudCode b).isSome && k = 0
  | .lineXonOn _ => k = 0
  | .lineXonOff _ => k = 0
  | .echo _ => true
  | .echoOn _ => true
  | .echoOff _ => true
  | .who _ => true
  | .whoAll _ => s.steward k
  | .openT _ t => s.isUp .seedbank && s.keySet t.val
  | .prove _ g => s.isUp .seedbank && (s.proves k g).isSome
  | .close _ => s.isUp .seedbank
  | .key _ _ => s.isUp .seedbank && s.steward k
  | .keySet _ t v => s.usable (.keySet t.val v) && s.steward k
  | .keyClear _ t => s.usable (.keyClear t.val) && s.steward k
  | .tenancy _ t => s.tenReady && s.tenant k t.val
  | .tenancyGroup _ _ g => g ≤ 7 && s.tenReady && s.steward k
  | .tenancyShare _ t v =>
    v.digits ≤ 1 && scaledOf v 1 ≤ 1000 && s.sdb.shareSum t.val (scaledOf v 1) ≤ 1000 && s.tenReady && s.steward k
  | .tenancyAllot _ _ v => v.digits ≤ 4 && scaledOf v 4 ≤ 99999999 && s.tenReady && s.steward k
  | .tenancyWeight _ g w => g ≤ 7 && 1 ≤ w && w ≤ 255 && s.tenReady && s.steward k
  | .assign _ _ _ => s.tenReady && s.steward k
  | .assignNone _ _ => s.tenReady && s.steward k
  | .quota _ t => s.tenReady && s.tenant k t.val
  | .quotaPool _ _ p n => s.pools.contains p && n ≤ poolBuffers p && s.tenReady && s.steward k
  | .ledger _ t => s.ledgerReady && s.tenant k t.val
  | .ledgerGaps _ t => s.ledgerReady && s.tenant k t.val
  | .ledgerEpoch _ t => s.steward k && s.usable (.epoch t.val 0)
  | .time _ => s.isUp .calendar
  | .timeSet _ _ => s.isUp .calendar && s.steward k
  | .plot _ => s.tenReady && s.steward k
  | .plotTenancy _ t => s.tenReady && s.tenant k t.val
  | .plotLoad _ t a => a % 4096 = 0 && a < pow32 && s.usable (.plotLoad t.val a) && s.steward k
  | .plotUnload _ t => s.usable (.plotUnload t.val) && s.steward k
  | .xVerb _ n t => (s.xVerb k n t).isSome
  | .ring _ => s.isUp .ring
  | .ringEnum _ => s.ringSteward k && s.sys.head
  | .ringTermOn _ => s.ringSteward k
  | .ringTermOff _ => s.ringSteward k
  | .trace _ => s.traceReady k
  | .traceCoresOn _ _ => s.traceReady k
  | .traceCoresOff _ _ => s.traceReady k
  | .traceModeStop _ => s.traceReady k
  | .traceModeWrap _ => s.traceReady k
  | .traceClear _ => s.traceReady k
  | .traceDump _ n => 1 ≤ n && n ≤ 4096 && s.traceReady k
  | .statsQ _ _ => s.statsReady k
  | .statsCore _ _ => s.statsReady k
  | .statsClear _ => s.statsReady k
  | .granary _ => s.granReady k
  | .granaryUse _ _ => s.granReady k
  | .granaryModeSingle _ => s.granReady k
  | .granaryModeSized _ => s.granReady k
  | .furrow _ => s.isUp .furrow && s.steward k
  | .seedbank _ => s.isUp .seedbank && s.steward k
  | .selftest _ => s.usable (.selftest 0) && s.steward k
  | .resetField _ => s.sys.kst = .field && s.isUp .field && s.steward k
  | .handle _ _ => s.isUp .replay
  | .handles _ => s.isUp .replay
  | .handlesOrphan _ => s.isUp .replay
  | .cancel _ _ => s.isUp .replay
  | _ => false

/-- A verb as a command's meaning: the line that says command `c` passes its checks, and `body` runs. -/
def verb (s : State) (q : Src) (c : Instr) (body : State → State) : Res :=
  goOn (s.runLine q c (fun s => s.formOk q.ses.val c) body)

end Sys2Proof.Machine
end

