-- ==== Sys2Proof/Machine/ShelfVerbs.lean ====
section
/-! DEFINITION. Shelf verbs (R131 to R178): the checks of R126 for each form, the answers of immediate forms, and the
acceptance of handle forms. -/

namespace Sys2Proof.Machine

/-! ### Common checks -/

/-- The tenancy that a handle of session `k` records (R225). -/
def State.recorded (s : State) (k : Nat) : Nat := (s.holds k).getD 0

/-- The resources of a handle form of session `q`: those of R129 and those that the form claims at acceptance. -/
def State.resources (s : State) (q : Src) (form : Form) : Bool := s.canAccept (s.recorded q.ses.val) && s.formRoom form

/-- Accept a handle form, or answer BUSY where a resource is lacking (R129, R224). -/
def State.open_ (s : State) (q : Src) (name : String) (form : Form) : State :=
  if s.resources q form then s.accept (s.recorded q.ses.val) q name form else s.busy q

/-- Lines of a result: the last is its `=` line (R121). -/
def State.lines (s : State) (q : Src) (l : List String) : State :=
  (s.mores q l.dropLast).reply q (l.getLastD "")

def onOff (b : Bool) : String := if b then "ON" else "OFF"

/-! ### STATE, WAKE, REST -/

/-- Names of the keeper states. -/
def KState.name : KState → String
  | .latch => "LATCH"
  | .waking => "WAKING"
  | .field => "FIELD"
  | .resting => "RESTING"

/-- The STATE line (R141, R142). -/
def State.stateLine (s : State) : String :=
  "STATE " ++ s.sys.kst.name ++ " ON " ++ decText (s.countBays .on) ++ " STARTING " ++ decText (s.countBays .starting)
    ++ " PRESENT " ++ decText ((List.range 96).filter s.present).length ++ " TRIPPED " ++ decText (s.countBays .tripped)
    ++ " LOCKED " ++ decText (s.countBays .locked) ++ " HANDLES " ++ decText (s.hnd.opens.filter Handle.isOpen).length ++ " REPLAY "
    ++ decText s.replayWaiting

def execState (q : Src) (s : State) : Res := verb s q (.state q) fun s => s.reply q s.stateLine

/-- WAKE needs a tenancy proof (R138). -/
def execWake (q : Src) (s : State) : Res :=
  verb s q (.wake q) fun s => s.open_ q "WAKE" .wake

def execRest (q : Src) (s : State) : Res :=
  verb s q (.rest q) fun s => s.open_ q "REST" .rest

/-! ### BAY -/

/-- A BAY line that leaves out bays counts once as ignored (R86). -/
def State.countLeft (s : State) (k : Nat) (l : List Nat) : State :=
  if (s.actedBays l).length < l.length then s.ignore k else s

/-- Accept a BAY form that names bays `l`; a line that is answered BUSY counts as no ignored one (R86, R129). -/
def State.openBays (s : State) (q : Src) (form : Form) (l : List Nat) : State :=
  if s.resources q form then (s.open_ q "BAY" form).countLeft q.ses.val l else s.busy q

def execBayOn (q : Src) (bays : List BayNo) (s : State) : Res :=
  let l := bayList bays
  verb s q (.bayOn q bays) fun s =>
    s.openBays q (.bayOn (bayMap (s.actedBays l)) 0#96) l

def execBayOff (q : Src) (bays : List BayNo) (s : State) : Res :=
  let l := bayList bays
  verb s q (.bayOff q bays) fun s =>
    s.openBays q (.bayOff (bayMap (s.actedBays l))) l

/-- BAY n LOCATE ON (R155). -/
def execBayLocateOn (q : Src) (n : BayNo) (s : State) : Res :=
  verb s q (.bayLocateOn q n) fun s =>
    (s.setLocate n.val true).reply q ("LOCATE " ++ decText n.val ++ " ON")

/-- BAY n LOCATE OFF (R155). -/
def execBayLocateOff (q : Src) (n : BayNo) (s : State) : Res :=
  verb s q (.bayLocateOff q n) fun s =>
    (s.setLocate n.val false).reply q ("LOCATE " ++ decText n.val ++ " OFF")

/-- A rail's proof from step 1 to step 3, with its result; the FAST comparator reads not over once its reference is restored
(R420, R422). -/
def State.proveRail (s : State) (n : Nat) (rail : Rail) (ok : Bool) : State :=
  ((s.proofBegins n rail).proofChecked n rail ok ok).proofEnds n rail false

/-- The proofs of an UNLOCK, with their results: LOCK_EV is cleared first, then PROOF RUN is written and, after a proof of the bay
that runs, proves main and then aux; a failed proof locks out (R156, R422, R423, R428). -/
def State.unlockProofs (s : State) (n : Nat) (proofM proofA : Bool) : State :=
  let s := (s.modBay n fun b => { b with lockEv := false }).proofRun n
  let s := (s.proofFinished n .main).proofFinished n .aux
  (s.proveRail n .main proofM).proveRail n .aux proofA

/-- BAY n UNLOCK (R156, R428): where the proofs and the shadow compare pass, the lock record is cleared first, and the rest
follows once that is durable. -/
def execBayUnlock (q : Src) (n : BayNo) (proofM proofA : Bool) (s : State) : Res :=
  verb s q (.bayUnlock q n proofM proofA) fun s =>
    let s := s.unlockProofs n.val proofM proofA
    if proofM && proofA && (s.bayAt n.val).agree then
      (s.putLock n.val false 0 0).modBays fun b => { b with unlocking := b.unlocking ++ [(n.val, q.ses.val, q.tag)] }
    else s.reply q ("BAY " ++ decText n.val ++ " LOCKED PROOF-FAIL")

/-- Closed key names of bay `n` (R157). -/
def State.keyNames (s : State) (n : Nat) : String :=
  let l := (List.range 4).filter fun i => s.keyClosed (bayKey n i)
  if l.isEmpty then "NONE" else joinText "," (l.map keyName)

/-- A tenancy, or `-` where there is none. -/
def tenText : Option Nat → String
  | some t => "T" ++ decText t
  | none => "T-"

/-- A rail's current in 0.01 A (R137, R411). -/
def State.centiAmps (s : State) (n : Nat) (r : Rail) : Int :=
  intHalfUp (((s.bayAt n).rail r).isum * isumScale) (s.shunt n r * 10000000000)

/-- Hundredths as text. -/
def centiText (i : Int) : String := (if i < 0 then "-" else "") ++ fracText 2 i.natAbs

/-- A line of BAY INFO (R157). -/
def State.infoLine (s : State) (n : Nat) : String :=
  "BAY " ++ decText n ++ " " ++ bayName (s.bayAt n).st ++ " " ++ tenText (vget s.sdb.assign n) ++ " KEYS " ++ s.keyNames n
    ++ " MAIN " ++ centiText (s.centiAmps n .main) ++ " AUX " ++ centiText (s.centiAmps n .aux) ++ " TRIPS "
    ++ decText (s.bayAt n).trips ++ " LOCATE " ++ onOff (s.bayAt n).locate.isSome

def execBayInfo (q : Src) (bays : List BayNo) (s : State) : Res :=
  let l := bayList bays
  verb s q (.bayInfo q bays) fun s =>
    (s.lines q ((s.actedBays l).map s.infoLine)).countLeft q.ses.val l

/-! ### ENVELOPE and PROFILE -/

/-- The ENVELOPE line (R158). -/
def State.envelopeLine (s : State) : String :=
  let d := s.sdb
  "ENVELOPE MAIN " ++ fracText 2 (d.envMain * 10) ++ " AUX " ++ fracText 2 (d.envAux * 10) ++ " MARGIN "
    ++ fracText 2 (d.envMargin * 10) ++ " SHED " ++ fracText 2 (d.envShed * 10) ++ " GUARD " ++ decText d.envGuard
    ++ " NOW-M " ++ fracText 2 s.env.totM ++ " NOW-A " ++ fracText 2 s.env.totA ++ " HELD " ++ decText s.env.heldQ.length

def execEnvelope (q : Src) (s : State) : Res :=
  verb s q (.envelope q) fun s => s.reply q s.envelopeLine

def execEnvelopeSet (q : Src) (word : EnvWord) (v : DecVal) (s : State) : Res :=
  let f := Form.envSet word (envValue word v)
  verb s q (.envelopeSet q word v) fun s => s.open_ q "ENVELOPE" f

/-- One of the four point lines (R162). -/
def State.pointsLine (s : State) (n k : Nat) : String :=
  "P" ++ decText k ++ " " ++ joinText " " ((((s.curve n).drop k).take 16).map fun v => fracText 2 (divHalfUp v 10))

/-- PROFILE n (R162). -/
def State.profileLines (s : State) (n : Nat) : List String :=
  let first := "PROFILE " ++ decText n ++ (if learnedBytes (s.profileBytes n) then
    " LEARNED STARTS " ++ decText (s.profileStarts n) else " DEFAULT")
  first :: [0, 16, 32, 48].map (s.pointsLine n)

def execProfile (q : Src) (n : BayNo) (s : State) : Res :=
  verb s q (.profile q n) fun s =>
    s.lines q (s.profileLines n.val)

def execProfileForget (q : Src) (bays : List BayNo) (s : State) : Res :=
  let l := bayList bays
  let f := Form.forget (bayMap l) 0#96
  verb s q (.profileForget q bays) fun s => s.open_ q "PROFILE" f

/-! ### SCAN and KEYS -/

/-- A word in hexadecimal. -/
def wordText (w : Nat) : String := "0x" ++ hexText 8 w

def execScan (q : Src) (s : State) : Res :=
  verb s q (.scan q) fun s =>
    s.reply q ("SCAN FRAME " ++ (if s.keys.fast then "256" else "16") ++ " BANK " ++ decText (bitNat s.keys.active)
      ++ " STEPS " ++ decText s.keys.steps ++ " EVENTS " ++ decText s.keys.events ++ " STALLS " ++ decText s.keys.stalls)

def execScanRow (q : Src) (r : Fin 16) (s : State) : Res :=
  verb s q (.scanRow q r) fun s =>
    s.reply q ("SCAN ROW " ++ decText r.val ++ " DEB " ++ wordText (vget s.keys.pubDeb r.val).toNat ++ " RAW "
      ++ wordText (vget s.keys.pubRaw r.val).toNat)

def execKeys (q : Src) (bays : List BayNo) (s : State) : Res :=
  let l := bayList bays
  verb s q (.keys q bays) fun s =>
    s.lines q (l.map fun n => "KEYS " ++ decText n ++ " " ++ s.keyNames n)

/-- Names of the closed positions of row 12 (R166, R457). DESIGN CHOICE (log 78): the names stand in ascending position
order, joined by commas as the key names of R157 are, and the digit keys are named 0 to 9. -/
def State.panelClosed (s : State) : String :=
  let l := (List.range 32).filter fun c => s.keyClosed (384 + c)
  if l.isEmpty then "NONE" else joinText "," (l.map fun c => panelNames.getD c "")

def execKeysPanel (q : Src) (s : State) : Res :=
  verb s q (.keysPanel q) fun s => s.reply q ("KEYS PANEL " ++ s.panelClosed)

def execKeysGeneral (q : Src) (s : State) : Res :=
  verb s q (.keysGeneral q) fun s =>
    s.reply q ("KEYS GENERAL " ++ joinText " " ([13, 14, 15].map fun r => wordText (vget s.keys.pubDeb r).toNat))

/-! ### TAG and FACE -/

def execTag (q : Src) (bays : List BayNo) (colour : Colour) (pattern : Pattern) (s : State) : Res :=
  let l := bayList bays
  let f := Form.tag (bayMap l) colour pattern
  verb s q (.tag q bays colour pattern) fun s => s.open_ q "TAG" f

def execTagAuto (q : Src) (bays : List BayNo) (s : State) : Res :=
  let l := bayList bays
  let f := Form.tagAuto (bayMap l)
  verb s q (.tagAuto q bays) fun s => s.open_ q "TAG" f

/-- The answer to FACE (R170, R488). -/
def State.faceText (s : State) : String :=
  match s.face.host with
  | .text t => "FACE TEXT \"" ++ t ++ "\""
  | .off => "FACE VIEW AUTO"
  | .view v => "FACE VIEW " ++ v.name

def execFace (q : Src) (s : State) : Res := verb s q (.face q) fun s => s.reply q s.faceText

def execFaceText (q : Src) (text : String) (s : State) : Res :=
  verb s q (.faceText q text) fun s =>
    s.open_ q "FACE" (.face (.text text))

def execFaceTextOff (q : Src) (s : State) : Res :=
  verb s q (.faceTextOff q) fun s => s.open_ q "FACE" (.face .off)

def execFaceView (q : Src) (view : View) (s : State) : Res :=
  verb s q (.faceView q view) fun s =>
    s.open_ q "FACE" (.face (.view view))

/-! ### FAN and TEMP -/

/-- A line of FAN (R174). -/
def State.fanLine (s : State) (n : Nat) : String :=
  let f := s.fanAt n
  "FAN " ++ decText n ++ " DUTY " ++ decText (min 100 f.duty) ++ " RPM " ++ (if f.absent then "-" else decText f.rpm) ++ " "
    ++ (if f.absent then "ABSENT" else if f.manual then "MANUAL" else "AUTO")

def execFan (q : Src) (s : State) : Res :=
  verb s q (.fan q) fun s => s.lines q ((List.range 8).map s.fanLine)

/-- Numbers of a list of fans. -/
def fanList (l : List (Fin 8)) : List Nat := (List.range 8).filter fun n => l.any fun b => b.val = n

def execFanDuty (q : Src) (fans : List (Fin 8)) (p : Fin 101) (s : State) : Res :=
  let l := fanList fans
  verb s q (.fanDuty q fans p) fun s =>
    (l.foldl (fun s n => s.modFan n fun f => { f with duty := p.val, manual := true }) s).reply q
      ("FAN " ++ decText l.length ++ " SET")

def execFanAuto (q : Src) (fans : List (Fin 8)) (s : State) : Res :=
  let l := fanList fans
  verb s q (.fanAuto q fans) fun s =>
    ((l.foldl (fun s n => s.modFan n fun f => { f with manual := false }) s).fansAuto).reply q
      ("FAN " ++ decText l.length ++ " SET")

/-- The lines of TEMP (R178). -/
def State.tempLines (s : State) : List String :=
  (List.range 16).map (fun n => "TEMP " ++ decText n ++ " " ++ (reading (vget s.fans.th n)).text)
    ++ ["TEMP DIE " ++ tenthsText (dieTenths (vget s.fans.th 16))]

def execTemp (q : Src) (s : State) : Res :=
  verb s q (.temp q) fun s => s.lines q s.tempLines

end Sys2Proof.Machine
end

