-- ==== Sys2Proof/Machine/AccountVerbs.lean ====
section
/-! DEFINITION. Account and service verbs of R183 to R218 that need neither the ledger, the calendar nor the ring. -/

namespace Sys2Proof.Machine

/-! ### LINE, ECHO, WHO -/

/-- Rates of CON_CTL BAUD (R94, R674); code 3 acts as 1. -/
def baudRate (b : Nat) : Nat :=
  match b with
  | 0 => 9600
  | 2 => 460800
  | _ => 115200

/-- The answer to LINE (R183). -/
def State.lineLine (s : State) (k : Nat) : String :=
  let c := s.con
  "LINE SESSION " ++ decText k ++ " IGNORED " ++ decText (s.sesAt k).ignored ++
    (if k = 0 then " BAUD " ++ decText (baudRate c.baud) ++ " XON " ++ onOff c.xon ++ " FRAMING " ++ decText c.framing
      ++ " OVERRUN " ++ decText c.overrun ++ " LOST " ++ decText c.lost else "")

def execLine (q : Src) (s : State) : Res := verb s q (.line q) fun s => s.reply q (s.lineLine q.ses.val)

/-- LINE BAUD (R94, R184): the rate changes once the answer has been sent. -/
def execLineBaud (q : Src) (b : Nat) (s : State) : Res :=
  verb s q (.lineBaud q b) fun s =>
    (s.modCon fun c => { c with baud := (baudCode b).getD 1 }).replyRate q ("LINE BAUD " ++ decText b)

def execLineXonOn (q : Src) (s : State) : Res :=
  verb s q (.lineXonOn q) fun s => (s.modCon fun c => { c with xon := true }).reply q "LINE XON ON"

def execLineXonOff (q : Src) (s : State) : Res :=
  verb s q (.lineXonOff q) fun s => (s.modCon fun c => { c with xon := false, stopped := false, flowDue := none }).reply q "LINE XON OFF"

/-- The answer to ECHO (R185). -/
def State.echoLine (s : State) (k : Nat) : String := "ECHO " ++ onOff (s.sesAt k).echo

def execEcho (q : Src) (s : State) : Res := verb s q (.echo q) fun s => s.reply q (s.echoLine q.ses.val)

def execEchoOn (q : Src) (s : State) : Res :=
  verb s q (.echoOn q) fun s => (s.modSes q.ses.val fun x => { x with echo := true }).reply q "ECHO ON"

def execEchoOff (q : Src) (s : State) : Res :=
  verb s q (.echoOff q) fun s => (s.modSes q.ses.val fun x => { x with echo := false }).reply q "ECHO OFF"

/-- The answer to WHO (R186). -/
def State.whoLine (s : State) (k : Nat) : String :=
  "WHO KEEPER " ++ decText s.keeperNo ++ " SESSION " ++ decText k ++ " " ++ tenText (s.holds k) ++
    (if s.switchT0 k then " KEYSWITCH" ++ (match (s.sesAt k).proved with
      | some t => " PROVED T" ++ decText t
      | none => "") else "")

def execWho (q : Src) (s : State) : Res := verb s q (.who q) fun s => s.reply q (s.whoLine q.ses.val)

/-- A line of WHO ALL. -/
def State.sessionLine (s : State) (k : Nat) : String :=
  "SESSION " ++ decText k ++ " FROM " ++ (if k = 0 then "CONSOLE" else
    decText (s.sesAt k).src ++ "." ++ decText (s.sesAt k).byte) ++ " " ++ tenText (s.holds k) ++ " IGNORED "
    ++ decText (s.sesAt k).ignored

def execWhoAll (q : Src) (s : State) : Res :=
  verb s q (.whoAll q) fun s =>
    s.lines q (((List.range 16).filter fun k => (s.sesAt k).isOpen).map s.sessionLine)

/-! ### OPEN, PROVE, CLOSE (R187 to R189, R334 to R341) -/

/-- What follows session `k`'s result waits for it where the result is held, not queued (R189, R214, R220, R337). -/
def State.later (s : State) (k : Nat) (d : Due) : State :=
  if s.linesHeld k then s.modSys fun y => { y with due := y.due ++ [(k, d)] } else s

/-- OPEN (R187, R337): the 3,840 ticks of the challenge count from the tick at which its answer is queued. -/
def execOpenT (q : Src) (t : Ten) (s : State) : Res :=
  verb s q (.openT q t) fun s =>
    let d := s.draw
    let c := Config.challenge d.1
    ((d.2.modSes q.ses.val fun x => { x with challenge := some (t.val, c), openTick := s.cal.tick }).reply q
      ("CHALLENGE " ++ groupText 4 c.toNat)).later q.ses.val .opened

/-- Session `k` may hold tenancy `t` by proof (R335). -/
def State.placeFree (s : State) (k t : Nat) : Bool :=
  (s.sesAt k).proved = some t
    || ((List.range 16).filter fun j => (s.sesAt j).isOpen && (s.sesAt j).proved = some t).length < 4

/-- PROVE: a matching line takes its tenancy, or BUSY; the challenge is consumed whatever the outcome (R188). -/
def execProve (q : Src) (groups : List (BitVec 16)) (s : State) : Res :=
  let k := q.ses.val
  let c := Instr.prove q groups
  let run := s.runLine q c (fun s => s.formOk k c) fun s =>
    match s.proves k groups with
    | some t =>
      if s.placeFree k t then (s.modSes k fun x => { x with proved := some t }).reply q ("PROVED T" ++ decText t)
      else s.busy q
    | none => s
  goOn (if s.sends q c && !s.longFirst k then run.modSes k fun x => { x with challenge := none } else run)

/-- CHALLENGE-LAPSE (R337). -/
def execChallengeLapse (ses : Fin 16) (s : State) : Res :=
  onLatch s fun s =>
    if s.lapsed ses.val then s.modSes ses.val fun x => { x with challenge := none } else s

/-- The handle was opened by ring session `k`, which has not ended (R109). -/
def Handle.openedBy (h : Handle) (k : Nat) : Bool := decide (h.origin ≠ .console) && !h.ended && h.ses = k

/-- The completion of a handle whose session has ended no longer waits for that session: it becomes an orphan (R109,
R236). -/
def State.unhold (s : State) (kk seq : Nat) : State :=
  if !s.finishing kk seq then s
  else
    let s := s.modHnd fun x => { x with heldOut := x.heldOut.filter fun y => !(y.1 = kk && y.2.1 = seq) }
    let s := s.modRing fun r => { r with wait := r.wait.filter fun w => decide (w.done ≠ some (kk, seq)) }
    match s.openAt kk seq with
    | some h => match h.compl with
      | some c => s.orphan h c
      | none => s
    | none => s

/-- Lines that a session which has ended had still to run are those of a new session of its pair, at the lowest free
number: each of them gets its answer (R108, R121, log 58). -/
def State.reopen (s : State) (k : Nat) (x : Session) : State :=
  if !(s.ring.linesIn.any fun l => l.1 = k) then s
  else
    let j := ((List.range 16).find? fun j => j ≠ 0 && !(s.sesAt j).isOpen).getD k
    (s.modSes j fun _ => { isOpen := true, src := x.src, byte := x.byte, lastTick := s.cal.tick }).modRing fun r =>
      { r with linesIn := r.linesIn.map fun l => if l.1 = k then (j, l.2) else l }

/-- A ring session ends (R109): its handles stay open and their completions become orphans. The `=` lines that are still due in
it go to its pair (R121). -/
def State.endSession (s : State) (k : Nat) : State :=
  let x := s.sesAt k
  let e := endedNo x.src x.byte
  let moved := fun j : Nat => if j = k then e else j
  let mine := s.hnd.opens.filter fun h => h.openedBy k
  let s := s.modSes k fun _ => {}
  let s := s.modHnd fun y =>
    { y with opens := y.opens.map fun h => if h.openedBy k then { h with ended := true, ses := e } else h }
  let s := s.modSdb fun d => { d with jobs := d.jobs.map fun j => { j with reply := j.reply.map fun r => (moved r.1, r.2) } }
  let s := s.modBays fun b => { b with unlocking := b.unlocking.map fun u => (u.1, moved u.2.1, u.2.2) }
  let s := s.modSys fun y => { y with due := y.due.map fun d => (moved d.1, d.2) }
  (mine.foldl (fun s h => s.unhold h.kk h.seq) s).reopen k x

/-- CLOSE (R189): a ring session ends once its answer is queued. -/
def execClose (q : Src) (s : State) : Res :=
  let k := q.ses.val
  verb s q (.close q) fun s =>
    let s := (s.modSes k fun x => { x with proved := none, challenge := none }).reply q "CLOSED"
    if k = 0 then s else if s.linesHeld k then s.later k .close else s.endSession k

/-! ### KEY, TENANCY, ASSIGN, QUOTA (R190 to R197) -/

def setText (b : Bool) : String := if b then "SET" else "UNSET"

def execKey (q : Src) (t : Ten) (s : State) : Res :=
  verb s q (.key q t) fun s =>
    s.reply q ("KEY T" ++ decText t.val ++ " " ++ setText (s.keySet t.val))

def execKeySet (q : Src) (t : Ten) (key : BitVec 256) (s : State) : Res :=
  verb s q (.keySet q t key) fun s => s.open_ q "KEY" (.keySet t.val key)

def execKeyClear (q : Src) (t : Ten) (s : State) : Res :=
  verb s q (.keyClear q t) fun s => s.open_ q "KEY" (.keyClear t.val)

/-- A plot's state as PLOT prints it (R201). -/
def plotWord : PState → String
  | .none => "NONE"
  | .loading => "LOADING"
  | .running => "RUNNING"
  | .stopped => "STOPPED"
  | .down r => "DOWN " ++ r

/-- The TENANCY line (R190). DESIGN CHOICE (log 75): SHARE is printed in tenths, as R191 stores it, where R137 gives
percentages as whole numbers. -/
def State.tenancyLine (s : State) (t : Nat) : String :=
  let x := vget s.sdb.ten t
  "TENANCY T" ++ decText t ++ " KEY " ++ setText x.key.isSome ++ " BAYS " ++ decText (s.baysOf t).length ++ " GROUP "
    ++ decText x.group ++ " WEIGHT " ++ decText (vget s.sdb.weights x.group) ++ " SHARE " ++ fracText 1 x.share ++ " ALLOT "
    ++ decText x.allot ++ " PLOT " ++ plotWord (vget s.plots t).st

def execTenancy (q : Src) (t : Ten) (s : State) : Res :=
  verb s q (.tenancy q t) fun s => s.reply q (s.tenancyLine t.val)

/-- Store a setting; its answer comes once it is stored (R191, R360). -/
def State.store (s : State) (q : Src) (x : Setting) (answer : String) : State :=
  let r := s.nextCheck
  r.2.sdbAsk { setting := x, reply := some (q.ses.val, q.tag, answer), handle := none, ord := r.1 }

def execTenancyGroup (q : Src) (t : Ten) (g : Nat) (s : State) : Res :=
  verb s q (.tenancyGroup q t g) fun s =>
    s.store q (.group t.val g) ("TENANCY T" ++ decText t.val ++ " GROUP " ++ decText g)

def execTenancyShare (q : Src) (t : Ten) (v : DecVal) (s : State) : Res :=
  let x := scaledOf v 1
  verb s q (.tenancyShare q t v) fun s =>
    s.store q (.share t.val x) ("TENANCY T" ++ decText t.val ++ " SHARE " ++ valText v)

def execTenancyAllot (q : Src) (t : Ten) (v : DecVal) (s : State) : Res :=
  let x := scaledOf v 4
  verb s q (.tenancyAllot q t v) fun s =>
    s.store q (.allot t.val (x * 100000000)) ("TENANCY T" ++ decText t.val ++ " ALLOT " ++ valText v)

def execTenancyWeight (q : Src) (g w : Nat) (s : State) : Res :=
  verb s q (.tenancyWeight q g w) fun s =>
    s.store q (.weight g w) ("TENANCY WEIGHT " ++ decText g ++ " " ++ decText w)

def execAssign (q : Src) (bays : List BayNo) (t : Ten) (s : State) : Res :=
  let l := bayList bays
  verb s q (.assign q bays t) fun s =>
    s.store q (.assign (bayMap l) (some t.val)) ("ASSIGN " ++ decText l.length ++ " T" ++ decText t.val)

def execAssignNone (q : Src) (bays : List BayNo) (s : State) : Res :=
  let l := bayList bays
  verb s q (.assignNone q bays) fun s =>
    s.store q (.assign (bayMap l) none) ("ASSIGN " ++ decText l.length ++ " NONE")

def modeText (sized : Bool) : String := if sized then "SIZED" else "SINGLE"

/-- Place of a pool's quota among the stored ones: single, then sized 0..3. -/
def State.quotaAt (s : State) (p : Nat) : Nat := if s.gran.sized then p + 1 else 0

/-- The QUOTA line (R196): the quotas in force, which GRN_RQUOTA holds (R670). -/
def State.quotaLine (s : State) (t : Nat) : String :=
  "QUOTA T" ++ decText t ++ " MODE " ++ modeText s.gran.sized ++ String.join (s.pools.map fun p =>
    " POOL " ++ decText p ++ " QUOTA " ++ decText (s.gran.quotaOf t p) ++ " INUSE "
      ++ decText (s.gran.inuseOf t p))

def execQuota (q : Src) (t : Ten) (s : State) : Res :=
  verb s q (.quota q t) fun s => s.reply q (s.quotaLine t.val)

def execQuotaPool (q : Src) (t : Ten) (p k : Nat) (s : State) : Res :=
  verb s q (.quotaPool q t p k) fun s =>
    s.store q (.quota t.val (s.quotaAt p) k) ("QUOTA T" ++ decText t.val ++ " POOL " ++ decText p ++ " " ++ decText k)

/-! ### PLOT and X verbs (R201 to R206) -/

def State.plotLine (s : State) (t : Nat) : String :=
  let p := s.plotAt t
  "PLOT T" ++ decText t ++ " " ++ plotWord p.st ++ " ADDR " ++ wordText (p.addr.getD max32) ++ " SIZE " ++ decText p.size
    ++ " VERBS " ++ decText p.verbs.length ++ " XBAD " ++ decText p.xbad

def execPlot (q : Src) (s : State) : Res :=
  verb s q (.plot q) fun s =>
    let l := (List.range 16).filter fun t => (s.plotAt t).st ≠ .none
    s.lines q (if l.isEmpty then ["PLOT NONE"] else l.map s.plotLine)

def execPlotTenancy (q : Src) (t : Ten) (s : State) : Res :=
  verb s q (.plotTenancy q t) fun s => s.reply q (s.plotLine t.val)

def execPlotLoad (q : Src) (t : Ten) (a : Nat) (s : State) : Res :=
  verb s q (.plotLoad q t a) fun s =>
    s.open_ q "PLOT" (.plotLoad t.val a)

def execPlotUnload (q : Src) (t : Ten) (s : State) : Res :=
  verb s q (.plotUnload q t) fun s => s.open_ q "PLOT" (.plotUnload t.val)

def execXVerb (q : Src) (name text : String) (s : State) : Res :=
  verb s q (.xVerb q name text) fun s =>
    match s.xVerb q.ses.val name text with
    | some (t, i, r) => s.open_ q name (.x t i text r)
    | none => s

/-! ### TRACE, STATS, GRANARY, SEEDBANK, SELFTEST (R213 to R219) -/

/-- The TRACE line (R213). DESIGN CHOICE (log 78): the cores stand as single numbers in ascending order, joined by commas. -/
def State.traceLine (s : State) : String :=
  let l := onesOf s.sow.trCores
  "TRACE CORES " ++ (if l.isEmpty then "NONE" else joinText "," (l.map decText)) ++ " MODE "
    ++ (if s.sow.trWrap then "WRAP" else "STOP") ++ " ENTRIES " ++ decText s.sow.trace.length ++ " MISSED "
    ++ decText s.sow.trMissed

def execTrace (q : Src) (s : State) : Res :=
  verb s q (.trace q) fun s => s.reply q s.traceLine

/-- Set the cores traced. -/
def State.setTraced (s : State) (cores : List CoreId) (on : Bool) : State :=
  s.modSow fun w => { w with trCores := cores.foldl (fun m c => putBit m c.val on) w.trCores }

def execTraceCoresOn (q : Src) (cores : List CoreId) (s : State) : Res :=
  verb s q (.traceCoresOn q cores) fun s => (fun x => x.reply q x.traceLine) (s.setTraced cores true)

def execTraceCoresOff (q : Src) (cores : List CoreId) (s : State) : Res :=
  verb s q (.traceCoresOff q cores) fun s => (fun x => x.reply q x.traceLine) (s.setTraced cores false)

def execTraceModeStop (q : Src) (s : State) : Res :=
  verb s q (.traceModeStop q) fun s =>
    (fun x => x.reply q x.traceLine) (s.modSow fun w => { w with trWrap := false })

def execTraceModeWrap (q : Src) (s : State) : Res :=
  verb s q (.traceModeWrap q) fun s =>
    (fun x => x.reply q x.traceLine) (s.modSow fun w => { w with trWrap := true })

def execTraceClear (q : Src) (s : State) : Res :=
  verb s q (.traceClear q) fun s =>
    (fun x => x.reply q x.traceLine) (s.modSow fun w => { w with trace := [], trMissed := 0 })

/-- TRACE DUMP k: the k newest entries, oldest first; recording pauses until the `=` line is queued (R214). -/
def execTraceDump (q : Src) (k : Nat) (s : State) : Res :=
  verb s q (.traceDump q k) fun s =>
    let l := s.sow.trace.drop (s.sow.trace.length - k)
    let s := s.lines q ((l.map fun e => "0x" ++ hexText 16 e.toNat) ++ [s.traceLine])
    s.later q.ses.val .dump

def execStatsQ (q : Src) (n : Fin 64) (s : State) : Res :=
  verb s q (.statsQ q n) fun s =>
    let s := s.timed n.val
    let x := s.que n.val
    s.reply q ("STATS Q " ++ decText n.val ++ " DEPTH " ++ decText (s.depth n.val) ++ " HIGH " ++ decText x.high
      ++ " DISPATCH " ++ decText x.dispatch ++ " WAITSUM " ++ decText x.waitSum ++ " WAITMAX " ++ decText x.waitMax)

def execStatsCore (q : Src) (n : CoreId) (s : State) : Res :=
  verb s q (.statsCore q n) fun s =>
    let s := s.timed (64 + n.val)
    let c := s.core n.val
    s.reply q ("STATS CORE " ++ decText n.val ++ " BUSY " ++ decText c.busy ++ " IDLE " ++ decText c.idle ++ " SWITCHES "
      ++ decText c.switches ++ " PREFETCH " ++ decText c.prefetches ++ " UNPREFETCH " ++ decText c.unprefetches
      ++ " PREEMPT " ++ decText c.preempts)

def execStatsClear (q : Src) (s : State) : Res :=
  verb s q (.statsClear q) fun s => (s.zeroStats fun _ => 0).reply q "STATS CLEARED"

/-- The GRANARY line, with the mode stored for the next field start (R216). -/
def State.granaryLine (s : State) (next : Bool) : String :=
  "GRANARY MODE " ++ modeText s.gran.sized ++ " FREE " ++ joinText "," (s.pools.map fun p => decText (s.gran.free p))
    ++ " NEXT " ++ modeText next

def execGranary (q : Src) (s : State) : Res :=
  verb s q (.granary q) fun s => s.reply q (s.granaryLine s.sdb.granSized)

def execGranaryUse (q : Src) (r : Fin 32) (s : State) : Res :=
  verb s q (.granaryUse q r) fun s =>
    s.reply q ("GRANARY USE " ++ decText r.val ++ " INUSE "
      ++ joinText "," (s.pools.map fun p => decText (s.gran.inuseOf r.val p)))

def execGranaryModeSingle (q : Src) (s : State) : Res :=
  verb s q (.granaryModeSingle q) fun s => s.store q (.granMode false) (s.granaryLine false)

def execGranaryModeSized (q : Src) (s : State) : Res :=
  verb s q (.granaryModeSized q) fun s => s.store q (.granMode true) (s.granaryLine true)

/-- The SEEDBANK line (R218). -/
def State.seedbankLine (s : State) : String :=
  let used := (List.range 256).filter fun p => pageOk (s.page p) && !s.pageRetired p
  "SEEDBANK PAGES 256 USED " ++ decText used.length ++ " BAD " ++ decText s.badCount ++ " MAXWRITES "
    ++ decText ((List.range 256).foldl (fun m p => max m (pageWrites (s.page p))) 0)

def execSeedbank (q : Src) (s : State) : Res :=
  verb s q (.seedbank q) fun s => s.reply q s.seedbankLine

def execSelftest (q : Src) (s : State) : Res :=
  verb s q (.selftest q) fun s => s.open_ q "SELFTEST" (.selftest 0)

/-! ### HANDLE and HANDLES (R246 to R248) -/

/-- The handle is visible to session `k` (R225). -/
def State.sees (s : State) (k ten : Nat) : Bool := s.steward k || s.holds k = some ten

/-- The phase of an open handle as HANDLE prints it (R247). DESIGN CHOICE (log 90): while its RETIRED record is durable and its
completion is not yet queued, the phase before it, since R247 lists no RETIRED. -/
def Handle.phaseText (h : Handle) : String :=
  match h.phase with
  | .accepted => "ACCEPTED"
  | .step => "STEP " ++ decText h.step
  | .committed => "COMMITTED"
  | .retired => if h.committing then "COMMITTED" else if h.step = 0 then "ACCEPTED" else "STEP " ++ decText h.step

/-- The open handle of this name that session `k` sees. -/
def State.seenOpen (s : State) (k : Nat) (h : HRef) : Option Handle :=
  s.hnd.opens.find? fun x => x.is h.kk.toNat h.seq.toNat && x.isOpen && s.sees k x.ten

/-- The kept handle of this name that session `k` sees. -/
def State.seenKept (s : State) (k : Nat) (h : HRef) : Option Kept :=
  s.hnd.kept.find? fun x => x.is h.kk.toNat h.seq.toNat && s.sees k x.ten

/-- HANDLE returns an orphan's completion: it is marked DELIVERED (R237). -/
def State.deliver (s : State) (k : Kept) : State :=
  if k.orphaned then
    let k' := { k with delivered := true }
    (s.modHnd fun x => { x with kept := x.kept.map fun y => if y.is k.kk k.seq then k' else y }).writeKept k'
  else s

/-- HANDLE (R237, R247). DESIGN CHOICE (log 90): the answer that delivers an orphan's completion prints ORPHAN, the state in which it
finds the handle, and the handle reads DELIVERED from then on. -/
def execHandle (q : Src) (h : HRef) (s : State) : Res :=
  verb s q (.handle q h) fun s =>
    let n := handleText h.kk.toNat h.seq.toNat
    match s.seenOpen q.ses.val h with
    | some x =>
      s.reply q ("HANDLE " ++ n ++ " OPEN " ++ x.phaseText ++ " T" ++ decText x.ten ++ " " ++ x.name ++ " REPLAYS "
        ++ decText x.replays)
    | none =>
      match s.seenKept q.ses.val h with
      | some x =>
        let s := s.more q ("HANDLE " ++ n ++ " CLOSED T" ++ decText x.ten ++ " " ++ x.name ++ " REPLAYS " ++ decText x.replays
          ++ (if x.orphaned then " ORPHAN" else " DELIVERED"))
        (s.reply q (complText x.form x.compl)).deliver x
      | none => s.reply q ("HANDLE " ++ n ++ " UNKNOWN")

/-- The last line of HANDLES (R248). -/
def State.handlesEnd (s : State) (k : Nat) : String :=
  let kept := s.hnd.kept.filter fun x => s.sees k x.ten
  "HANDLES OPEN " ++ decText (s.hnd.opens.filter fun x => x.isOpen && s.sees k x.ten).length ++ " KEPT "
    ++ decText kept.length ++ " ORPHAN " ++ decText (kept.filter Kept.orphaned).length

def execHandles (q : Src) (s : State) : Res :=
  let k := q.ses.val
  verb s q (.handles q) fun s =>
    s.lines q (((s.hnd.opens.filter fun x => x.isOpen && s.sees k x.ten).map fun x =>
      handleText x.kk x.seq ++ " " ++ x.phaseText ++ " T" ++ decText x.ten ++ " " ++ x.name) ++ [s.handlesEnd k])

def execHandlesOrphan (q : Src) (s : State) : Res :=
  let k := q.ses.val
  verb s q (.handlesOrphan q) fun s =>
    s.lines q (((s.hnd.kept.filter fun x => x.orphaned && s.sees k x.ten).map fun x =>
      handleText x.kk x.seq ++ " T" ++ decText x.ten ++ " " ++ x.name) ++ [s.handlesEnd k])

end Sys2Proof.Machine
end

