-- ==== Sys2Proof/Machine/Ledger.lean ====
section
/-! DEFINITION. The ledger (R366 to R387): accumulators, intervals, checkpoints, GAP entries, closed-epoch records,
the bytes of the ledger area (R382), and what a cold start takes from it (R374, R376, R380). -/

namespace Sys2Proof.Machine

def State.modLed (s : State) (f : Ledger → Ledger) : State := { s with led := f s.led }
def State.modCal (s : State) (f : Calendar → Calendar) : State := { s with cal := f s.cal }

/-! ### Accumulators (R366, R371) -/

/-- The largest value of an accumulator: 32 nines (R371). -/
def accTop : Nat := 10 ^ 32 - 1

/-- Accumulator `i` of four: BAYSEC, ENERGY, CAPACITY, WAKES (R366). -/
def Acc.at (a : Acc) (i : Nat) : Nat :=
  match i with
  | 0 => a.baysec
  | 1 => a.energy
  | 2 => a.capacity
  | _ => a.wakes

def Acc.put (a : Acc) (i v : Nat) : Acc :=
  match i with
  | 0 => { a with baysec := v }
  | 1 => { a with energy := v }
  | 2 => { a with capacity := v }
  | _ => { a with wakes := v }

/-- Sum of accumulators. -/
def Acc.plus (a b : Acc) : Acc :=
  { baysec := a.baysec + b.baysec, energy := a.energy + b.energy, capacity := a.capacity + b.capacity, wakes := a.wakes + b.wakes }

/-- The value of Tt's accumulators: the newest checkpoint and every accrual since. -/
def Ledger.value (d : Ledger) (t : Nat) : Acc :=
  ((d.ends.map Prod.snd) ++ [d.run]).foldl (fun a v => a.plus (vget v t)) (vget d.base t)

/-- Add to the sums of the interval that holds tick `k`: the first that ended at `k` or after it, otherwise the open one
(R372). -/
def Ledger.addAt (d : Ledger) (k : Nat) (f : Vector Acc 16 → Vector Acc 16) : Ledger :=
  if d.ends.any fun p => decide (k ≤ p.1) then
    { d with ends := (d.ends.takeWhile fun p => decide (p.1 < k)) ++ (match d.ends.dropWhile fun p => decide (p.1 < k) with
        | p :: l => (p.1, f p.2) :: l
        | [] => []) }
  else { d with run := f d.run }

/-- Add to accumulator `i` of Tt at tick `k`, in the interval that holds it; at 32 nines it holds, with one notice
(R371). -/
def State.accrue (s : State) (k t i x : Nat) : State :=
  let held := (s.led.value t).at i
  let fits := decide (held + x ≤ accTop)
  let y := if fits then x else accTop - held
  let s := s.modLed fun d => d.addAt k fun v => vmod v t fun a => a.put i (a.at i + y)
  if fits || s.led.overflow.getLsbD (4 * t + i) then s
  else (s.modLed fun d => { d with overflow := putBit d.overflow (4 * t + i) true, overflowed := true }).notice ("^LEDGER OVERFLOW T" ++ decText t)

/-- Voltage of a rail in whole millivolts (R367, R411). -/
def RailSt.milliVolts (r : RailSt) : Nat := (r.vsum + 2) / 4

/-- The tenancy that bay `n` counts toward: as assigned, otherwise T0 (R331, R367). -/
def State.meterTen (s : State) (n : Nat) : Nat := (vget s.sdb.assignNow n).getD 0

/-- Current of a rail in whole milliamperes; a negative one counts as 0 (R367, R411). -/
def State.milliAmps (s : State) (n : Nat) (r : Rail) : Nat :=
  let code := match r with
    | .main => vget s.bays.shuntM (n / 8)
    | .aux => vget s.bays.shuntA (n / 8)
  (intHalfUp (((s.bayAt n).rail r).isum * 152587890625) (code * 1000000000)).toNat

/-- The bay is powered (R367). -/
def Bay.powered (b : Bay) : Bool :=
  match b.st with
  | .starting => true
  | .on => true
  | .stopping => true
  | _ => false

/-- What bay `n`, if powered, adds at the present tick, as it stands now (R367). -/
def State.bayAdds (s : State) (v : Vector Acc 16) (n : Nat) : Vector Acc 16 :=
  let b := s.bayAt n
  if b.powered then
    vmod v (s.meterTen n) fun a =>
      { a with baysec := a.baysec + 15625
               energy := a.energy + b.main.milliVolts * s.milliAmps n .main * 15625
                           + b.aux.milliVolts * s.milliAmps n .aux * 15625 }
  else v

/-- What each tick adds to Tt's CAPACITY (R368). -/
def State.capacityTick (s : State) (t : Nat) : Nat := vget s.sdb.allotNow t / 64

/-- What every tenancy accrues at the present tick (R367, R368). -/
def State.tickAdds (s : State) : Vector Acc 16 :=
  (List.range 96).foldl s.bayAdds (Vector.ofFn fun t => { capacity := s.capacityTick t.val })

/-- Every tenancy's CAPACITY for `n` ticks up to `k` (R368). -/
def State.accrueCapacity (s : State) (k n : Nat) : State :=
  (List.range 16).foldl (fun s t => s.accrue k t 2 (n * s.capacityTick t)) s

/-! ### The ledger area (R382) -/

/-- The 16 packed BCD bytes of an accumulator. -/
def bcd16 (n : Nat) : List Byte :=
  (List.range 16).map fun i => byteOf (n / 100 ^ i % 10 + 16 * (n / 100 ^ i / 10 % 10))

def Acc.bytes (a : Acc) : List Byte := bcd16 a.baysec ++ bcd16 a.energy ++ bcd16 a.capacity ++ bcd16 a.wakes

def accOf (l : List Byte) : Acc :=
  { baysec := bcdNat (l.take 16), energy := bcdNat ((l.drop 16).take 16), capacity := bcdNat ((l.drop 32).take 16)
    wakes := bcdNat ((l.drop 48).take 16) }

/-- First line of a checkpoint copy. -/
def copyLine (b : Bool) : Nat := if b then 2976 else 2944

/-- UTC as ledger lines hold it: all ones while UNSET. -/
def State.utcWord (s : State) : Nat := if s.cal.utcSet then s.cal.utc else max32

/-- UTC at tick `k`, counted from the value that it took last at or before that tick; none while it was UNSET (R77, R364). -/
def State.utcAt (s : State) (k : Nat) : Option Nat :=
  (s.cal.utcWas.find? fun p => decide (p.1 ≤ k)).map fun p => (p.2.1 + (p.2.2 + (k - p.1)) / 64) % pow32

/-- UTC at tick `k` as ledger lines hold it. -/
def State.utcWordAt (s : State) (k : Nat) : Nat := (s.utcAt k).getD max32

/-- Lines +1..+21 of a checkpoint. -/
def checkpointBody (accs : Vector Acc 16) (epochs : Vector Epoch 16) : List (List Byte) :=
  accs.toList.map Acc.bytes ++ [epochs.toList.flatMap fun e => leBytes 4 e.number]
    ++ (List.range 4).map fun i =>
      (List.range 4).flatMap fun j =>
        let e := vget epochs (4 * i + j)
        leBytes 6 e.openTick ++ [0#8, 0#8] ++ leBytes 4 e.gapCount ++ leBytes 4 e.gapTicks

/-- The header line of a checkpoint. -/
def checkpointHeader (seq tick utc : Nat) (body : List (List Byte)) : List Byte :=
  let b := padBytes 60 ([0x4C#8, 0x01#8] ++ leBytes 4 seq ++ leBytes 6 tick ++ leBytes 4 utc)
  b ++ leBytes 4 (crc32c (b ++ body.flatten))

/-- A checkpoint is queued: to the copy other than the last one chosen, tenancy lines, epoch line, detail lines, then
the header (R373). The first one of a blank ledger carries SEQ 1: DESIGN CHOICE (log 108), since no rule gives its SEQ. -/
def State.checkpoint (s : State) (tick : Nat) : State :=
  let d := s.led
  let b := !d.cpB
  let seq := (d.cpSeq + 1) % pow32
  let body := checkpointBody d.base d.epochs
  let s := body.zipIdx.foldl (fun s p => s.furPut (copyLine b + 1 + p.2) p.1) s
  (s.furPut (copyLine b) (checkpointHeader seq tick s.utcWord body)).modLed fun d =>
    { d with cpSeq := seq, cpB := b, cpTick := tick }

/-- Sums of two intervals. -/
def addSums (u v : Vector Acc 16) : Vector Acc 16 := Vector.ofFn fun i => (vget u i.val).plus (vget v i.val)

/-- The open interval ends at tick `k`: its checkpoint is due, and the next one opens (R372). Where an interval has already
ended at `k`, one end serves both. -/
def Ledger.close (d : Ledger) (k : Nat) : Ledger :=
  if d.ends.any fun p => p.1 = k then { d.addAt k (addSums d.run) with run := Vector.replicate 16 {} }
  else { d with ends := d.ends ++ [(k, d.run)], run := Vector.replicate 16 {} }

/-- The sums of the interval that ended first go into the values, and its checkpoint is queued (R373); bays left unplaced make
the planner plan again (R451). -/
def State.endInterval (s : State) : State :=
  match s.led.ends with
  | [] => s
  | p :: l =>
    ((s.modLed fun d => { d with base := addSums d.base p.2, ends := l, from_ := p.1 + 1 }).modEnv fun e =>
      { e with replanDue := e.replanDue || decide (0 < e.unplaced) }).checkpoint p.1

/-- Every ended interval's checkpoint is queued, in order (R373). -/
def State.endIntervals (s : State) : State := s.led.ends.foldl (fun s _ => s.endInterval) s

/-- The interval ends early, at the present tick (R372). -/
def State.endEarly (s : State) : State := (s.modLed fun d => d.close s.cal.tick).endIntervals

/-! ### GAP entries (R376 to R378, R383) -/

/-- The tenancies that FIELD, RESTART and TICK entries cover (R376). -/
def State.gapTens (s : State) : Nat :=
  (List.range 16).foldl (fun m t => if t = 0 || s.sdb.assignNow.toList.any (· = some t) then m + 2 ^ t else m) 0

def Gap.bytes (g : Gap) : List Byte :=
  let b := padBytes 60 ([0x47#8, byteOf g.cause, byteOf g.accMask, 0#8] ++ leBytes 2 g.tenMask ++ leBytes 6 g.fromTick
    ++ leBytes 4 g.ticks ++ leBytes 4 g.prevSeq ++ leBytes 4 g.number ++ leBytes 4 g.utc)
  b ++ leBytes 4 (crc32c b)

def readGap (l : List Byte) : Option Gap :=
  if unitAt l 0 1 = 0x47 ∧ crc32c (l.take 60) = unitAt l 60 4 then
    some { cause := unitAt l 1 1, accMask := unitAt l 2 1, tenMask := unitAt l 4 2, fromTick := unitAt l 6 6
           ticks := unitAt l 12 4, prevSeq := unitAt l 16 4, number := unitAt l 20 4, utc := unitAt l 24 4 }
  else none

/-- The GAP entries held, with their slots. -/
def State.gaps (s : State) : List (Nat × Gap) :=
  (List.range 448).filterMap fun i => (readGap (s.furLine (3520 + i))).map fun g => (i, g)

/-- TICKS of an unknown span. -/
def unknownTicks : Nat := max32

/-- The open epochs with one more GAP entry that covers the tenancies of `mask`; an unknown span adds no ticks (R383,
R384). -/
def countGap (mask ticks : Nat) (v : Vector Epoch 16) : Vector Epoch 16 :=
  Vector.ofFn fun i =>
    let e := vget v i.val
    if bitAt mask i.val then
      { e with gapCount := satInc max32 e.gapCount
               gapTicks := if ticks = unknownTicks then e.gapTicks else satAdd max32 e.gapTicks ticks }
    else e

/-- Write a GAP entry, unless one of its cause with its PREV_SEQ and FROM is held (R376, R378, R383). -/
def State.gap (s : State) (cause accMask tenMask fromTick ticks prevSeq : Nat) (utc : Nat) : State :=
  if s.gaps.any fun p => p.2.cause = cause && p.2.prevSeq = prevSeq && p.2.fromTick = fromTick then s
  else
    let g : Gap := { cause := cause, accMask := accMask, tenMask := tenMask, fromTick := fromTick, ticks := ticks
                     prevSeq := prevSeq, number := s.led.gapNext, utc := utc }
    (s.furPut (3520 + s.led.gapSlot) g.bytes).modLed fun d =>
      { d with gapNext := (d.gapNext + 1) % pow32, gapSlot := (d.gapSlot + 1) % 448
               epochs := countGap tenMask ticks d.epochs }

/-- The sums of BAYSEC and ENERGY that the field held are lost. -/
def dropField (v : Vector Acc 16) : Vector Acc 16 := v.map fun a => { a with baysec := 0, energy := 0 }

/-- The ledger thread is gone with its sums. -/
def Ledger.dropThread (d : Ledger) : Ledger :=
  { d with run := dropField d.run, ends := d.ends.map fun p => (p.1, dropField p.2), marks := []
           served := none }

/-- The ledger thread has handed over the sums of the interval that ended at `k`: it has served that tick, or has no bay to
count since its field start (R370, R373). -/
def State.handedOver (s : State) (k : Nat) : Bool :=
  match s.led.served with
  | some j => decide (k ≤ j)
  | none => true

/-- The checkpoints of the ended intervals whose sums have been handed over. -/
def State.endHanded (s : State) : State :=
  (s.led.ends.filter fun p => s.handedOver p.1).foldl (fun s _ => s.endInterval) s

/-- A field loss (cause 2) or a field restart (cause 3): a GAP entry over the interval whose sums are lost, then its early
end with no field sums (R376, R378). -/
def State.loseField (s : State) (cause : Nat) : State :=
  if !s.led.loaded then s.modLed Ledger.dropThread
  else
    let s := s.endHanded.modLed Ledger.dropThread
    if s.cal.tick < s.led.from_ then s
    else
      (s.gap cause 3 s.gapTens s.led.from_ (s.cal.tick + 1 - s.led.from_) s.led.cpSeq (s.utcWordAt s.led.from_)).endEarly

/-! ### Tick items and the ledger thread (R365, R367, R376) -/

/-- The ledger thread runs (R370). -/
def State.ledgerRuns (s : State) : Bool := s.sys.fieldUp && s.isUp .sower

/-- What powered bays added at tick `k` goes into the accumulators (R367). -/
def State.accrueMark (s : State) (k : Nat) (v : Vector Acc 16) : State :=
  (List.range 16).foldl (fun s t => (s.accrue k t 0 (vget v t).baysec).accrue k t 1 (vget v t).energy) s

/-- Ticks after the last one served and before `k` were never served: a TICK entry (R376). -/
def State.missedTicks (s : State) (k : Nat) : State :=
  match s.led.served with
  | some j => if j + 1 < k then s.gap 4 3 s.gapTens (j + 1) (k - j - 1) s.led.cpSeq (s.utcWordAt (j + 1)) else s
  | none => s

/-- The ledger thread serves tick item `k`: missing numbers become a TICK entry, and the bays powered at `k` accrue. -/
def State.serveTick (s : State) (k : Nat) : State :=
  if s.led.served.any fun j => decide (k ≤ j) then s
  else
    let s := s.missedTicks k
    ((s.led.marks.filter fun p => p.1 = k).foldl (fun s p => s.accrueMark k p.2) s).modLed fun d =>
      { d with served := some k, marks := d.marks.filter fun p => decide (k < p.1) }

/-- The words of the tick item of tick `k` (R640). -/
def tickWords (k : Nat) : List Word := [header 1 0 0 0xFF20, wordOf k]

/-- Queue at which the calendar's item waits. -/
def State.tickClaim (s : State) : Option Nat := (s.sow.claims.find? fun p => p.2 = .tick).map Prod.fst

/-- TICK-ITEM-POST: the item that waits finds its place (R365, R634). -/
def State.tickItemPost (s : State) : State :=
  match s.cal.pend, s.tickClaim with
  | some k, some q =>
    if s.hasRoom q && s.waiter q = some .tick then
      ((s.served q).visible q (tickWords k)).modCal fun c => { c with pend := none }
    else s
  | _, _ => s

/-- A copy of a tick item that LC posts to Q2 or Q3 waits for its place, and LC's thread with it (R634). -/
def copyWaits (p : Nat × Claimant) : Bool :=
  (p.1 = 2 || p.1 = 3) && (match p.2 with
    | .hw (h :: _) => fieldAt h.toNat 0 16 = 0xFF20
    | _ => false)

/-- LC serves the oldest tick item of Q58: in FIELD, from `^READY SOWER` on, it posts one copy to Q2 and one to Q3 (R641). -/
def State.lcTick (s : State) : State :=
  match s.tickItem 58 with
  | none => s
  | some it =>
    if !s.ledgerRuns then s.serveItem it
    else if s.sow.claims.any copyWaits then s
    else (((s.takeUpItem it).lcPost 2 it.words).lcPost 3 it.words).endItem it

/-- LC serves the tick items of Q58 in order. The planner has served before it those of its own that reach no placed start. The
table has no row for either: they stand before the commands of ticks (log 19). -/
def State.lcTicks (s : State) : State :=
  let s := s.planTicks State.planQuiet
  (s.sow.store.filter fun it => it.q = 58 && it.typ = 0xFF20).foldl (fun s _ => s.lcTick) s

/-- The ledger thread serves its next tick item. -/
def State.ledgerServe (s : State) : State :=
  match s.takeTick 2 s.led.served with
  | some p => p.2.serveTick p.1
  | none => s

/-- LC and the ledger thread serve every tick item that has its place. -/
def State.serveTicks (s : State) : State :=
  let s := s.lcTicks
  (List.range ((s.sow.store.filter fun it => it.q = 2 && it.typ = 0xFF20).length + 1)).foldl (fun s _ => s.ledgerServe) s

/-- The ledger thread serves every tick posted, those that still wait on the way to it too. -/
def State.serveAll (s : State) : State :=
  (List.range (s.sow.store.length + s.sow.claims.length + 2)).foldl (fun s _ =>
    (((s.serveTicks).grant 2).grant 3).tickItemPost) s

/-- The ledger thread ends its sums at the present tick: ticks of which no item will come are missing (R376, R379). -/
def State.sumsEnd (s : State) : State :=
  if !s.ledgerRuns then s
  else
    let s := s.serveAll
    (s.missedTicks (s.cal.tick + 1)).modLed fun d => { d with served := d.served.map fun _ => s.cal.tick, marks := [] }

/-- LEDGER-TICK: the ledger thread serves its next tick item (R365, R370, R376). -/
def State.ledgerTick (s : State) : State := if s.ledgerRuns then s.lcTicks.ledgerServe else s.lcTicks

/-- INTERVAL-END: the ledger thread hands its sums over once it has served the end tick, and LC queues the checkpoint
(R372, R373). -/
def State.intervalEnd (s : State) : State :=
  match s.led.ends with
  | [] => s
  | p :: _ =>
    let s := if s.ledgerRuns then s.serveTicks else s
    if s.handedOver p.1 then s.endInterval else s


/-! ### Closed-epoch records (R379, R381) -/

/-- The two lines of a closed-epoch record. -/
def Closed.lines (c : Closed) : List Byte × List Byte :=
  let b := padBytes 60 ([0x45#8, byteOf c.ten, 0#8, 0#8] ++ leBytes 4 c.epoch ++ leBytes 6 c.openTick
    ++ leBytes 6 c.closeTick ++ leBytes 4 c.gapCount ++ leBytes 4 c.gapTicks ++ leBytes 2 c.hSeq ++ [byteOf c.hKk, 0#8]
    ++ leBytes 4 c.seq)
  (b ++ leBytes 4 (crc32c (b ++ c.acc.bytes)), c.acc.bytes)

def readClosed (l m : List Byte) : Option Closed :=
  if unitAt l 0 1 = 0x45 ∧ crc32c (l.take 60 ++ m) = unitAt l 60 4 then
    some { ten := unitAt l 1 1, epoch := unitAt l 4 4, openTick := unitAt l 8 6, closeTick := unitAt l 14 6
           gapCount := unitAt l 20 4, gapTicks := unitAt l 24 4, hSeq := unitAt l 28 2, hKk := unitAt l 30 1
           seq := unitAt l 32 4, acc := accOf m }
  else none

/-- The closed-epoch records held, with their slots. -/
def State.closeds (s : State) : List (Nat × Closed) :=
  (List.range 255).filterMap fun i =>
    (readClosed (s.furLine (3010 + 2 * i)) (s.furLine (3011 + 2 * i))).map fun c => (i, c)

/-- Tt's newest record: its highest epoch (R381). -/
def newestClosed (t : Nat) : List (Nat × Closed) → Option (Nat × Closed)
  | [] => none
  | p :: l =>
    match newestClosed t l with
    | some q => if p.2.ten = t && q.2.epoch < p.2.epoch then some p else some q
    | none => if p.2.ten = t then some p else none

/-- The slots that hold the newest record of some tenancy. -/
def keptSlots (l : List (Nat × Closed)) : List Nat := (List.range 16).filterMap fun t => (newestClosed t l).map Prod.fst

/-- The slot after the newest record's, passing over slots that hold some tenancy's newest record (R381). -/
def closedFree (kept : List Nat) : Nat → Nat → Nat
  | 0, n => n
  | f + 1, n => if kept.contains n then closedFree kept f ((n + 1) % 255) else n

def State.closedNext (s : State) : Nat :=
  match s.led.closedSlot with
  | some i => closedFree (keptSlots s.closeds) 255 ((i + 1) % 255)
  | none => 0

/-- Tt's closed-epoch record of its open epoch, closing at `tick`, is queued: line 1, then line 0. -/
def State.writeClosed (s : State) (t kk seq tick : Nat) : State :=
  let e := vget s.led.epochs t
  let slot := s.closedNext
  let n := (s.led.closedSeq + 1) % pow32
  let c : Closed := { ten := t, epoch := e.number, openTick := e.openTick, closeTick := tick, gapCount := e.gapCount
                      gapTicks := e.gapTicks, hSeq := seq, hKk := kk, seq := n, acc := vget s.led.base t }
  ((s.furPut (3011 + 2 * slot) c.lines.2).furPut (3010 + 2 * slot) c.lines.1).modLed fun d =>
    { d with closedSeq := n, closedSlot := some slot }

/-- Tt opens its next epoch at `tick`, with zero accumulators, and the checkpoint with these values is queued (R379). -/
def State.openEpoch (s : State) (t tick : Nat) : State :=
  (s.modLed fun d =>
    { d with base := vset d.base t {}
             epochs := vmod d.epochs t fun e =>
               { number := (e.number + 1) % pow32, openTick := tick, gapCount := 0, gapTicks := 0 } }).checkpoint tick

/-- The close of Tt's open epoch for handle (kk, seq): checkpoint q, the record, checkpoint q + 1 (R379). -/
def State.closeEpoch (s : State) (t kk seq : Nat) : State :=
  let s := s.sumsEnd
  let k := s.cal.tick
  (s.endEarly.writeClosed t kk seq k).openEpoch t k

/-! ### Cold start (R363, R374, R376, R380) -/

/-- The 22 lines of a copy: its header and the bytes of lines +1..+21. -/
def State.copyHead (s : State) (b : Bool) : List Byte := s.furLine (copyLine b)

def copyMagic (l : List Byte) : Bool := unitAt l 0 1 = 0x4C

/-- A copy's header CRC is valid (R374, R382). -/
def State.copyOk (s : State) (b : Bool) : Bool :=
  let h := s.copyHead b
  copyMagic h && crc32c (h.take 60 ++ s.furLines (copyLine b + 1) 21) = unitAt h 60 4

def copySeq (l : List Byte) : Nat := unitAt l 2 4
def copyTick (l : List Byte) : Nat := unitAt l 6 6

/-- The copy in force (R374). -/
def State.copyInForce (s : State) : Option Bool :=
  match s.copyOk false, s.copyOk true with
  | true, true => some (serialNewer (copySeq (s.copyHead true)) (copySeq (s.copyHead false)))
  | true, false => some false
  | false, true => some true
  | false, false => none

/-- A calendar line's TICK and SEQ, where it is valid (R382). -/
def readCal (l : List Byte) : Option (Nat × Nat) :=
  if unitAt l 0 1 = 0x43 ∧ crc32c (l.take 60) = unitAt l 60 4 then some (unitAt l 6 6, unitAt l 2 4) else none

/-- The bytes of a calendar line. -/
def calBytes (seq tick : Nat) : List Byte :=
  let b := padBytes 60 ([0x43#8, 0#8] ++ leBytes 4 seq ++ leBytes 6 tick)
  b ++ leBytes 4 (crc32c b)

/-- End of a GAP entry whose span is known (R376). -/
def Gap.lastTick (g : Gap) : Nat := if g.ticks = unknownTicks then 0 else g.fromTick + g.ticks - 1

/-- The value at which the calendar resumes: the newest TICK of any valid calendar line or checkpoint header, or known
GAP entry end (R363). -/
def State.resumeTick (s : State) : Nat :=
  let cal := [3008, 3009].map fun l => ((readCal (s.furLine l)).map Prod.fst).getD 0
  let cps := [false, true].map fun b => if s.copyOk b then copyTick (s.copyHead b) else 0
  (cal ++ cps ++ s.gaps.map fun p => p.2.lastTick).foldl max 0

/-- The newest calendar line: whether it is line B, and its SEQ. -/
def State.newestCal (s : State) : Option (Bool × Nat) :=
  match readCal (s.furLine 3008), readCal (s.furLine 3009) with
  | some a, some b => some (if serialNewer b.2 a.2 then (true, b.2) else (false, a.2))
  | some a, none => some (false, a.2)
  | none, some b => some (true, b.2)
  | none, none => none

/-- The tick count at reset release (R363). -/
def State.resetTick (s : State) : Nat := s.cal.tick - s.cal.sinceReset

/-- The numbering of GAP entries and closed-epoch records goes on from those held (R381, R383). -/
def State.loadNumbers (s : State) : State :=
  let g := s.gaps.foldl (fun (x : Option (Nat × Gap)) p => match x with
    | none => some p
    | some q => if serialNewer p.2.number q.2.number then some p else some q) none
  let c := s.closeds.foldl (fun (x : Option (Nat × Closed)) p => match x with
    | none => some p
    | some q => if serialNewer p.2.seq q.2.seq then some p else some q) none
  s.modLed fun d =>
    { d with gapNext := match g with
               | some p => (p.2.number + 1) % pow32
               | none => 1
             gapSlot := match g with
               | some p => (p.1 + 1) % 448
               | none => 0
             closedSeq := match c with
               | some p => p.2.seq
               | none => 0
             closedSlot := c.map Prod.fst }

/-- The values of a checkpoint copy (R382), with the GAP entries written on it since (R383). -/
def State.loadCopy (s : State) (b : Bool) : State :=
  let h := s.copyHead b
  let base := copyLine b
  let accs : Vector Acc 16 := Vector.ofFn fun i => accOf (s.furLine (base + 1 + i.val))
  let nums := s.furLine (base + 17)
  let epochs : Vector Epoch 16 := Vector.ofFn fun i =>
    let l := (s.furLine (base + 18 + i.val / 4)).drop (16 * (i.val % 4))
    { number := unitAt nums (4 * i.val) 4, openTick := unitAt l 0 6, gapCount := unitAt l 8 4, gapTicks := unitAt l 12 4 }
  let seq := copySeq h
  let epochs := (s.gaps.filter fun p => p.2.prevSeq = seq && p.2.cause ≠ 5).foldl
    (fun v p => countGap p.2.tenMask p.2.ticks v) epochs
  let full := mapOf 64 ((List.range 64).filter fun i => decide (accTop ≤ (vget accs (i / 4)).at (i % 4)))
  s.modLed fun d =>
    { d with base := accs, epochs := epochs, cpSeq := seq, cpTick := copyTick h, cpB := b, overflow := full }

/-- Complete the close of each tenancy whose record is durable while the checkpoint still shows its epoch (R380). -/
def State.completeCloses (s : State) : State :=
  let recs := s.closeds
  (List.range 16).foldl (fun s t =>
    match newestClosed t recs with
    | some p => if p.2.epoch = (vget s.led.epochs t).number then s.openEpoch t p.2.closeTick else s
    | none => s) s

/-- The POWER entry of a cold start (R376, R377). -/
def State.powerGap (s : State) : State :=
  let ends := (s.gaps.filter fun p => p.2.prevSeq = s.led.cpSeq && p.2.cause ≠ 5).map fun p => p.2.fromTick + p.2.ticks
  let f := ends.foldl max (s.led.cpTick + 1)
  if f ≤ s.resetTick then s.gap 1 15 0xFFFF f (s.resetTick + 1 - f) s.led.cpSeq (s.utcWordAt f) else s

/-- The largest PREV_SEQ that any GAP entry holds. -/
def State.lastPrev (s : State) : Nat := (s.gaps.map fun p => p.2.prevSeq).foldl max 0

/-- CAPACITY of every tick since reset release, with the intervals that have ended since (R372, R376). -/
def State.accrueSince (s : State) (release : Nat) : State :=
  let k := s.cal.tick
  let ends := (List.range (k / 1024 - release / 1024)).map fun i => 1024 * (release / 1024 + 1 + i)
  let r := ends.foldl (fun (p : State × Nat) e => (((p.1.accrueCapacity e (e - p.2)).modLed fun d => d.close e), e)) (s, release)
  r.1.accrueCapacity k (k - r.2)

/-- LC loads the ledger before READY REPLAY (R374, R376, R380); WAKES counted since the cold start stay (R369). -/
def State.loadLedger (s : State) : State :=
  let s := ({ s with led := { run := s.led.run } }).loadNumbers
  let release := s.resetTick
  let s := match s.copyInForce with
    | some b => ((s.loadCopy b).completeCloses).powerGap
    | none =>
      if !copyMagic (s.copyHead false) && !copyMagic (s.copyHead true) then
        (s.modLed fun d => { d with epochs := Vector.replicate 16 { openTick := release } }).checkpoint release
      else
        let recs := s.closeds
        let epochs : Vector Epoch 16 := Vector.ofFn fun i =>
          match newestClosed i.val recs with
          | some p => { number := (p.2.epoch + 1) % pow32, openTick := p.2.closeTick }
          | none => { openTick := release }
        let s := s.modLed fun d => { d with epochs := epochs, cpSeq := s.lastPrev }
        let s := s.gap 5 15 0xFFFF 0 unknownTicks 0 max32
        let epochs := epochs.map fun (e : Epoch) => { e with gapCount := 1 }
        ((s.modLed fun d => { d with epochs := epochs, wasReset := true }).checkpoint release).notice "^LEDGER RESET"
  (s.modLed fun d => { d with loaded := true, from_ := release + 1 }).accrueSince release

/-! ### LEDGER lines (R384 to R387, R734) -/

/-- The last tick whose accruals are complete: where the ledger thread runs, the one before the first that it has not served
(R384). -/
def State.nowTick (s : State) : Nat :=
  match s.led.marks with
  | p :: _ => if s.ledgerRuns then p.1 - 1 else s.cal.tick
  | [] => s.cal.tick

/-- The values that LEDGER shows: in LATCH those of the last checkpoint with CAPACITY carried up (R198), and WAKES too where a
WAKE has been counted since (R369, R384, log 107), otherwise those at the last complete tick (R384). -/
def State.shownAcc (s : State) (t : Nat) : Acc :=
  let v := s.led.value t
  if s.sys.kst = .latch then { (vget s.led.base t) with capacity := v.capacity, wakes := v.wakes }
  else { v with capacity := v.capacity - (s.led.marks.map fun p => (vget p.2 t).capacity).sum }

/-- The four values, in decimal (R366, R384). -/
def Acc.texts (a : Acc) : List String :=
  ["BAYSEC " ++ fracText 6 a.baysec, "ENERGY " ++ fracText 9 a.energy, "CAPACITY " ++ decText a.capacity,
    "WAKES " ++ decText a.wakes]

/-- An accumulator in a check message: two digits to a byte, most significant first (R386). -/
def Acc.message (a : Acc) : List Byte :=
  (bcd16 a.baysec).reverse ++ (bcd16 a.energy).reverse ++ (bcd16 a.capacity).reverse ++ (bcd16 a.wakes).reverse

/-- The last line of an answer: its check code, or NONE without a key (R386, R387). -/
def State.checkLine (s : State) (t : Nat) (m : List Byte) : String :=
  match (vget s.sdb.ten t).key with
  | none => "CHECK NONE"
  | some k => "CHECK " ++ groupText 6 (beNat ((hmac (keyBytes k) (beBytes 8 Config.serial.toNat ++ m)).take 12))

/-- UTC as printed. -/
def utcText : Option Nat → String
  | some v => decText v
  | none => "UNSET"

/-- The lines of LEDGER Tt (R384). -/
def State.ledgerLines (s : State) (t : Nat) : List String :=
  let e := vget s.led.epochs t
  let k := s.nowTick
  let a := s.shownAcc t
  let c := (newestClosed t s.closeds).map Prod.snd
  let m := [0x4C#8, byteOf t] ++ beBytes 4 e.number ++ beBytes 6 e.openTick ++ beBytes 6 k ++ beBytes 4 (s.utcWordAt k)
    ++ beBytes 4 e.gapCount ++ beBytes 4 e.gapTicks ++ a.message
    ++ beBytes 4 ((c.map Closed.epoch).getD 0) ++ ((c.map Closed.acc).getD {}).message
  ["LEDGER T" ++ decText t ++ " EPOCH " ++ decText e.number ++ " OPEN " ++ decText e.openTick ++ " NOW " ++ decText k
      ++ " UTC " ++ utcText (s.utcAt k) ++ " GAPS " ++ decText e.gapCount ++ " GAPTICKS " ++ decText e.gapTicks]
    ++ a.texts
    ++ [match c with
        | some x => "CLOSED " ++ decText x.epoch ++ " " ++ joinText " " x.acc.texts
        | none => "CLOSED NONE",
      s.checkLine t m]

/-- Names of GAP causes (R376). -/
def gapCause (c : Nat) : String :=
  match c with
  | 1 => "POWER"
  | 2 => "FIELD"
  | 3 => "RESTART"
  | 4 => "TICK"
  | _ => "CHECKPOINT"

/-- Accumulators of a mask, by name. -/
def accNames (m : Nat) : String :=
  joinText "," (["BAYSEC", "ENERGY", "CAPACITY", "WAKES"].zipIdx.filterMap fun p => if bitAt m p.2 then some p.1 else none)

/-- A GAP entry newer by number stands later. -/
def insertGap (g : Gap) : List Gap → List Gap
  | [] => [g]
  | x :: l => if serialNewer x.number g.number then g :: x :: l else x :: insertGap g l

/-- The newest held entries of Tt's open epoch, at most 8, oldest first (R385). -/
def State.shownGaps (s : State) (t : Nat) : List Gap :=
  let n := min 8 (vget s.led.epochs t).gapCount
  let l := ((s.gaps.map Prod.snd).filter fun g => bitAt g.tenMask t).foldl (fun l g => insertGap g l) []
  l.drop (l.length - n)

/-- The lines of LEDGER Tt GAPS (R385). -/
def State.gapLines (s : State) (t : Nat) : List String :=
  let e := vget s.led.epochs t
  let l := s.shownGaps t
  let m := [0x47#8, byteOf t] ++ beBytes 4 e.number ++ beBytes 4 e.gapCount ++ beBytes 4 e.gapTicks
    ++ l.flatMap fun g => beBytes 4 g.number ++ [byteOf g.cause, byteOf g.accMask] ++ beBytes 6 g.fromTick ++ beBytes 4 g.ticks
  ["LEDGER T" ++ decText t ++ " GAPS EPOCH " ++ decText e.number ++ " COUNT " ++ decText e.gapCount ++ " TICKS "
      ++ decText e.gapTicks]
    ++ l.map (fun g => "GAP " ++ decText g.number ++ " FROM " ++ decText g.fromTick ++ " TICKS "
        ++ (if g.ticks = unknownTicks then "?" else decText g.ticks) ++ " CAUSE " ++ gapCause g.cause ++ " ACC "
        ++ accNames g.accMask)
    ++ [s.checkLine t m]

end Sys2Proof.Machine
end

