-- ==== Sys2Proof/Machine/Calendar.lean ====
section
/-! DEFINITION. The calendar (R362 to R365, R388), settings that take effect at a tick (R191, R193, R352 to R354, R516),
and the verbs LEDGER, LEDGER GAPS, LEDGER EPOCH, TIME and TIME SET (R198 to R200). -/

namespace Sys2Proof.Machine

/-! ### Tick items (R365) -/

/-- The calendar's queue can take items: a queue of the field part only while the field is up. -/
def State.tickQUp (s : State) : Bool := !fieldQ s.cal.tickQ || s.sys.fieldUp

/-- The tick item of the present tick is posted, or waits, or replaces the number of the one that waits (R365). -/
def State.postTick (s : State) : State :=
  let k := s.cal.tick
  if s.cal.pend.isSome then s.modCal fun c => { c with pend := some k }
  else if !s.cal.post || !s.tickQUp then s
  else
    let q := s.cal.tickQ
    if s.hasRoom q && (s.waiter q).isNone then s.visible q (tickWords k)
    else (s.await q .tick).modCal fun c => { c with pend := some k }

/-- TICK-ITEM-POST. -/
def execTickItemPost (s : State) : Res := onLatch s State.tickItemPost

/-! ### The tick (R362 to R364, R368, R372) -/

/-- The count at a tick: loaded, or one more (R362, R388). -/
def Calendar.advance (c : Calendar) : Calendar :=
  { c with tick := c.load.getD ((c.tick + 1) % 2 ^ 48), load := none, ticked := true, sinceReset := c.sinceReset + 1 }

/-- UTC at a tick: taken from TIME SET, or one tick on (R364, R388). -/
def Calendar.advanceUtc (c : Calendar) : Calendar :=
  match c.utcLoad with
  | some v => { c with utc := v, utcSet := true, utcLoad := none, timeSet := none, utcPhase := 0, utcDue := 0 }
  | none =>
    if !c.utcSet then c
    else if c.utcPhase = 63 then { c with utcPhase := 0, utcDue := c.utcDue + 1 }
    else { c with utcPhase := c.utcPhase + 1 }

/-- UTC takes a value, or counts on from a tick that is loaded (R364, R388). -/
def Calendar.noteUtc (c was : Calendar) : Calendar :=
  if c.utcSet && (was.load.isSome || was.utcLoad.isSome) then { c with utcWas := (c.tick, c.utc + c.utcDue, c.utcPhase) :: c.utcWas }
  else c

/-- The tick of the settings stored since the one before has come: allotments and assignments count from it (R193, R354),
and firmware is to write the others (R352, R353, R516). -/
def State.meterSettings (s : State) : State :=
  if s.sdb.applyDue then
    s.modSdb fun d =>
      { d with allotNow := d.ten.map TenSet.allot, assignNow := d.assign, applyDue := false, applyNow := true
               groupDue := false, groupNow := d.groupNow || d.groupDue, groupSet := d.ten.map TenSet.group
               planDue := false, planNow := d.planNow || d.planDue, weightSet := d.weights, shareSet := d.ten.map TenSet.share }
  else s

/-- The accruals of the present tick: CAPACITY at once, and what the bays add kept for the ledger thread (R366 to R368); at
a multiple of 1,024 the interval ends (R372). -/
def State.meterTick (s : State) : State :=
  let k := s.cal.tick
  if !s.led.loaded then s
  else
    let s := s.accrueCapacity k 1
    let s := if s.ledgerRuns then s.modLed fun d => { d with marks := d.marks ++ [(k, s.tickAdds)] } else s
    if k % 1024 = 0 then s.modLed fun d => d.close k else s

/-- CALENDAR-TICK. -/
def State.calendarTick (s : State) : State :=
  let s := (s.modCal fun c => c.advance.advanceUtc.noteUtc c).meterSettings
  let k := s.cal.tick
  let s := s.modCal fun c => { c with saveDue := c.saveDue || (s.isUp .calendar && k % 64 = 0) }
  let s := s.meterTick.postTick
  let s := if s.sys.fieldUp && k % 16 = 0 then s.pointEnds else s
  s.switchTick.fanTick

def execCalendarTick (s : State) : Res := onLatch s State.calendarTick

/-- UTC-ADVANCE: UTC advances by 1 (R364). -/
def execUtcAdvance (s : State) : Res :=
  onLatch s fun s =>
    if 0 < s.cal.utcDue then s.modCal fun c => { c with utc := (c.utc + 1) % pow32, utcDue := c.utcDue - 1 } else s

/-- Line that the next calendar write goes to: not the newest valid one; A where neither is (R363). -/
def Calendar.saveLine (c : Calendar) : Nat := if c.newestB = some false then 3009 else 3008

/-- A calendar line is verified: it is the newest (R363). -/
def State.calSaved (s : State) (line : Nat) : State := s.modCal fun c => { c with newestB := some (line = 3009) }

/-- CALENDAR-SAVE: the write of a calendar line and its verify (R363, R739, R740). The first calendar line carries SEQ 1: DESIGN
CHOICE (log 108), since no rule gives its SEQ. -/
def State.calendarSave (s : State) (verified : Bool) : State :=
  if !s.cal.saveDue || !s.lineFree then s
  else
    let line := s.cal.saveLine
    let seq := (s.cal.saveSeq + 1) % pow32
    let b := calBytes seq s.cal.tick
    let s := (s.modCal fun c => { c with saveDue := false, saveSeq := seq }).modJrn fun j => { j with lineLate := false }
    if verified then ((s.furStore line b).furCount).calSaved line
    else ((s.furDamage line).furCount.furFailed).modFur fun f => { f with pendingLines := f.pendingLines ++ [(line, b, 1)] }

def execCalendarSave (verified : Bool) (s : State) : Res := goOn (s.calendarSave verified)

/-! ### Ports (R388) -/

/-- A read of CAL_TICK_LO by thread `t`: the count's low word, with its high half captured. -/
def State.readTickLo (s : State) (t : Nat) : Nat × State :=
  (s.cal.tick % pow32, s.modCal fun c => { c with capture := vset c.capture t (c.tick / pow32 % 65536) })

/-- A write of CAL_LOAD_HI. -/
def State.loadCount (s : State) (hi : Nat) : State :=
  s.modCal fun c => { c with load := some (c.loadLo + hi % 65536 * pow32) }

/-- A write of CAL_UTC_SET. -/
def State.setUtc (s : State) (v : Nat) : State := s.modCal fun c => { c with utcLoad := some v, timeSet := none }

/-- TIME SET writes CAL_UTC_SET, and its value comes at the next tick whatever field start lies before it (R200). -/
def State.setTime (s : State) (v : Nat) : State := s.modCal fun c => { c with utcLoad := some v, timeSet := some v }

/-- CAL-TICK-LO-READ. -/
def execCalTickLoRead (t : Tid) (s : State) : Res := onLatch s fun s => (s.readTickLo t.val).2

/-- CAL-LOAD: CAL_LOAD_LO, then CAL_LOAD_HI. -/
def execCalLoad (lo : Word) (hi : BitVec 16) (s : State) : Res :=
  onLatch s fun s => (s.modCal fun c => { c with loadLo := lo.toNat }).loadCount hi.toNat

/-- CAL-UTC-SET. -/
def execCalUtcSet (v : Word) (s : State) : Res := onLatch s fun s => s.setUtc v.toNat

/-! ### Settings at a tick -/

/-- Firmware writes the plot queues' groups and the Sower's weights, as the last tick found them stored (R191, R352). -/
def State.writeGroups (s : State) : State :=
  let s := (List.range 16).foldl (fun s t => s.modQue (24 + t) fun x => { x with group := vget s.sdb.groupSet t }) s
  (List.range 8).foldl (fun s g => s.writeWeight g (vget s.sdb.weightSet g)) s

/-- The bays assigned to Tt. -/
def State.baysAssigned (s : State) (t : Nat) : BitVec 96 :=
  mapOf 96 ((List.range 96).filter fun n => vget s.sdb.assignNow n = some t)

/-- Firmware writes the plots' bay grants (R516). -/
def State.writeBayGrants (s : State) : State :=
  (List.range 16).foldl (fun s t => s.modPlot t fun p => { p with bays := s.baysAssigned t }) s

/-- TENANCY-SETTING-APPLY: settings whose tick has come take effect: groups and weights where one of them was stored
(R191, R193, R352, R353, R516), and the planner replans where a SHARE or an ASSIGN is among them (R453). -/
def State.settingsApply (s : State) : State :=
  if !s.sdb.applyNow then s
  else
    let groups := s.sdb.groupNow
    let plan := s.sdb.planNow
    let s := s.modSdb fun d => { d with shareNow := d.shareSet, applyNow := false, groupNow := false, planNow := false }
    let s := if groups && s.sys.fieldUp && s.isUp .sower then s.writeGroups else s
    let s := if s.sys.fieldUp && s.isUp .tenancy then s.writeBayGrants else s
    s.modEnv fun e => { e with replanDue := e.replanDue || plan && s.sys.fieldUp }

def execTenancySettingApply (s : State) : Res := onLatch s State.settingsApply

/-! ### Verbs (R198 to R200) -/

def execLedger (q : Src) (t : Ten) (s : State) : Res :=
  verb s q (.ledger q t) fun s => s.lines q (s.ledgerLines t.val)

def execLedgerGaps (q : Src) (t : Ten) (s : State) : Res :=
  verb s q (.ledgerGaps q t) fun s => s.lines q (s.gapLines t.val)

/-- LEDGER Tt EPOCH: the epoch to close is the one open now (R199). -/
def execLedgerEpoch (q : Src) (t : Ten) (s : State) : Res :=
  verb s q (.ledgerEpoch q t) fun s =>
    s.open_ q "LEDGER" (.epoch t.val (vget s.led.epochs t.val).number)

/-- UTC as TIME prints it. -/
def State.timeLine (s : State) : String :=
  "TIME TICKS " ++ decText s.cal.tick ++ " UTC " ++ utcText (if s.cal.utcSet then some s.cal.utc else none)

def execTime (q : Src) (s : State) : Res := verb s q (.time q) fun s => s.reply q s.timeLine

def execTimeSet (q : Src) (n : Word) (s : State) : Res :=
  verb s q (.timeSet q n) fun s =>
    (s.setTime n.toNat).reply q ("TIME SET " ++ decText n.toNat)

end Sys2Proof.Machine
end

