-- ==== Sys2Proof/Machine/Plots.lean ====
section
/-! DEFINITION. Plots: the image in flash and its checks (R519, R520), placement (R521), grants (R514 to R517, R667, R678),
starting and stopping a plot's threads (R202, R522), and the items of X verbs (R206). -/

namespace Sys2Proof.Machine

/-! ### The image (R519, R520) -/

/-- What an unlisted byte of the board's NOR reads as: erased (log 9). -/
def erased : Nat → Byte := fun _ => 0xFF#8

/-- `n` bytes of flash from `a`; above 16 MiB nothing is reached (R675). -/
def State.flashBytes (s : State) (a n : Nat) : List Byte :=
  if a + n ≤ 16777216 then Mem.gets erased s.mems.flash a n else List.replicate n 0xFF#8

/-- A plot image's header. -/
structure Image where
  codeSize : Nat
  dataSize : Nat
  entry : List Nat
  blocks : Nat
  verbs : List String
  replayable : BitVec 16
  deriving DecidableEq, Repr, Inhabited

/-- A character of a verb name after its X. -/
def nameChar (b : Byte) : Bool := (48 ≤ b.toNat && b.toNat ≤ 57) || (65 ≤ b.toNat && b.toNat ≤ 90)

/-- The 12 bytes of a declared verb name (R519). -/
def nameOk (l : List Byte) : Bool :=
  match l with
  | x :: r =>
    x = 88#8 && (r.takeWhile fun b => b ≠ 0#8).all nameChar && (r.dropWhile fun b => b ≠ 0#8).all fun b => b = 0#8
  | [] => false

/-- A list of texts without repeats. -/
def distinct : List String → Bool
  | [] => true
  | a :: l => !l.contains a && distinct l

/-- The header's fields. -/
def imageOf (l : List Byte) : Image :=
  { codeSize := unitAt l 8 4, dataSize := unitAt l 12 4, entry := (List.range 6).map fun k => unitAt l (16 + 4 * k) 4
    blocks := unitAt l 40 4
    verbs := (List.range (min 16 (unitAt l 48 2))).map fun i => nameAt l (56 + 12 * i)
    replayable := BitVec.ofNat 16 (unitAt l 50 2) }

/-- The header's fields keep the table of R519. -/
def headerOk (l : List Byte) : Bool :=
  let i := imageOf l
  unitAt l 6 2 = 0 && 4 ≤ i.codeSize && i.codeSize ≤ 131072 && i.codeSize % 4 = 0 && i.dataSize ≤ 96256
    && (i.entry.all fun e => e % 4 = 0 && e < i.codeSize) && unitAt l 48 2 ≤ 16 && unitAt l 52 4 = 0 && unitAt l 252 4 = 0
    && ((List.range 16).all fun k =>
      let n := (l.drop (56 + 12 * k)).take 12
      if k < unitAt l 48 2 then nameOk n else n.all fun b => b = 0#8)
    && distinct i.verbs

/-- MAGIC and VERSION match (R520). -/
def imagePresent (l : List Byte) : Bool := l.take 4 = [0x57#8, 0x5A#8, 0x50#8, 0x4C#8] && unitAt l 4 2 = 1

/-- The reason code of a failed check, numbered as R182 lists the reasons, or the image (R520). -/
def State.checkImage (s : State) (a : Nat) : Nat × Image :=
  let l := s.flashBytes a 256
  let i := imageOf l
  if !imagePresent l then (1, i)
  else if !headerOk l || crc32c (l.take 248 ++ s.flashBytes (a + 256) i.codeSize) ≠ unitAt l 248 4 then (2, i)
  else (0, i)

/-- Reasons as DOWN states them (R81). -/
def imageReason (n : Nat) : String :=
  match n with
  | 1 => "IMAGE-MISSING"
  | 2 => "IMAGE-CRC"
  | _ => "TOO-LARGE"

/-! ### Placement and grants -/

/-- `a / n` rounded up. -/
def unitsOf (a n : Nat) : Nat := (a + n - 1) / n

/-- The lowest base from `lo` up to `hi - n` whose `n` units no used span meets. -/
def findRoom (used : List (Nat × Nat)) (lo hi n : Nat) : Option Nat :=
  (List.range hi).find? fun b => lo ≤ b && b + n ≤ hi && used.all fun u => u.2 = 0 || b + n ≤ u.1 || u.1 + u.2 ≤ b

/-- The places of an image of Tt: its code base and size, its window base and size (R521). -/
def State.place (s : State) (t : Nat) (i : Image) : Option (Nat × Nat × Nat × Nat) :=
  let others := ((List.range 16).filter fun u => u ≠ t).map s.plotAt
  let n := unitsOf i.codeSize 4096
  let m := unitsOf (i.dataSize + 1536) 1024
  match findRoom (others.map fun p => (p.ibase, p.isize)) 0 32 n, findRoom (others.map fun p => (p.dbase, p.dsize)) 128 224 m with
  | some a, some b => some (a, n, b, m)
  | _, _ => none

/-- The image at flash address `a` and its places for Tt, or the reason why it cannot be loaded. -/
def State.findImage (s : State) (t a : Nat) : Nat × Image × (Nat × Nat × Nat × Nat) :=
  let r := s.checkImage a
  if r.1 ≠ 0 then (r.1, r.2, (0, 0, 0, 0))
  else match s.place t r.2 with
    | some p => (0, r.2, p)
    | none => (3, r.2, (0, 0, 0, 0))

/-- The bits of PLG_BLOCKS that can be 1 (R515). -/
def grantMask : Nat := 0xC0AC3C

/-- The grantable set G, and G without the Granary (R678). -/
def grantable : Nat := 0xC0A430
def readOnlySet : Nat := 0xC0A420

/-- Bytes `lo` to `hi - 1` become 0. -/
def Mem.clear (m : Mem) (lo hi : Nat) : Mem := m.filter fun c => c.1 < lo || hi ≤ c.1

/-- Tt's threads. -/
def plotTids (t : Nat) : List Nat := (List.range 6).map fun k => 24 + 6 * t + k

/-- A thread of plot `t` as its image starts it (R522). -/
def Thread.plotStart (h : Thread) (t pc : Nat) : Thread :=
  { h with st := .idle, regs := Vector.replicate 32 0#32, rs := List.replicate 12 0, pc := pc, ts := 0#20, rsd := 0, prev := 0
           delayed := [], inter := [], listen := BitVec.ofNat 64 (2 ^ (24 + t)), trap := 0, took := none }

/-- Step 3 of a load: grants and windows, the zeroed window, the code, which IWR writes, and the threads (R502, R514, R516,
R522, R678). -/
def State.startPlot (s : State) (t a : Nat) (i : Image) (p : Nat × Nat × Nat × Nat) : State :=
  let blocks := (i.blocks &&& grantable) ||| 0x10
  let s := s.modPlot t fun x =>
    { x with blocks := BitVec.ofNat 24 blocks, ro := BitVec.ofNat 24 (blocks &&& readOnlySet), bays := s.baysAssigned t
             ibase := p.1, isize := p.2.1, dbase := p.2.2.1, dsize := p.2.2.2, st := .running }
  let s := { s with mems :=
    { s.mems with
      data := s.mems.data.clear (1024 * p.2.2.1) (1024 * (p.2.2.1 + p.2.2.2))
      plotRam := Mem.puts zeroByte s.mems.plotRam (4096 * p.1) (s.flashBytes (a + 256) i.codeSize) } }
  let s := s.dropPlotLines (4096 * p.1) (unitsOf i.codeSize 64)
  (plotTids t).zipIdx.foldl (fun s x => s.modTh x.1 fun h =>
    h.plotStart t (i.entry.getD x.2 0)) s

/-- A plot's grants, windows and code region are released; the words of plot RAM stay as they are. -/
def State.releasePlot (s : State) (t : Nat) : State :=
  s.modPlot t fun x =>
    { x with blocks := 0#24, ro := 0#24, bays := 0#96, ibase := 0, isize := 0, dbase := 0, dsize := 0 }

/-! ### X verb items (R206) -/

/-- Firmware drops undispatched items and gives back their buffers (R665). -/
def State.dropXs (s : State) (f : Item → Bool) : State :=
  let l := s.sow.store.filter f
  let s := s.modSow fun w => { w with store := w.store.filter fun it => !f it }
  l.foldl (fun s it => if it.isX then s.modGran fun g => g.give (it.q - 24) (it.word 2) else s) s

/-- Step 1 of a load: Tt's threads stop, the items on its queue are discarded, its uncommitted X handles fail, and its
wake request is cleared (R202, R209). -/
def State.stopPlot (s : State) (t : Nat) : State :=
  let s := (plotTids t).foldl (fun s x => s.stopThread x 6) s
  let s := s.dropXs fun it => it.q = 24 + t
  let s := s.hnd.opens.foldl (fun s h => match h.form with
    | .x u _ _ _ =>
      if u = t && !h.committing then
        s.retire h.kk h.seq { complFailed 0 false with text := "PLOT-RELOAD" }
      else s
    | _ => s) s
  { (s.modPlot t fun p => { p with st := .loading, wakeAt := none }) with
    up := s.up.filter fun f => f ≠ .plot t, down := s.down.filter fun f => f ≠ .plot t }

/-- A place of queue `q` is there for the handle's next item: one that it claimed at acceptance, or a free one that no
claimant waits for before it (R139, R206, R243, R634). -/
def State.placeFor (s : State) (h : Handle) (q : Nat) : Bool :=
  0 < h.claim || (s.hasRoom q && ((s.waiter q).isNone || s.waiter q = some (.handle h.kk h.seq)))

/-- A keeper thread waits in WAITSPACE for a place of queue `q` for the handle's next item, behind those that wait there already
(R243, R570, R634, R643). -/
def State.waitsFor (s : State) (h : Handle) (q : Nat) : State :=
  if s.sow.claims.contains (q, .handle h.kk h.seq) then s
  else
    let k : Item := { words := [], q := q, age := s.sow.nextAge }
    (s.trace k.server.2 5 k.server.1 q 0 (bitNat (s.placeCount q < (s.que q).limit))).await q (.handle h.kk h.seq)

/-- A keeper thread posts an item of the handle on queue `q`, in the place that it has claimed or that is free now: it waits for
that no longer (R570, R616). -/
def State.postItem (s : State) (h : Handle) (q : Nat) (words : List Word) : State :=
  (((s.waitNoMore h.kk h.seq).modOpen h.kk h.seq fun h => { h with claim := h.claim - 1 })).visible q words

/-- Deliver an X verb with the buffer at `a`; the item waits where Q24 + t is full (R206, R211, R243). -/
def State.deliverX (s : State) (h : Handle) (t i : Nat) (text : String) (a : Word) : State :=
  if !s.placeFor h (24 + t) then s.waitsFor h (24 + t)
  else
    let s := s.modGran fun g => { g with mem := Mem.puts zeroByte g.mem (a.toNat - 0x10000000) (asciiOf text ++ [0#8]) }
    let s := (s.ownLeave (holder h.kk h.seq) a).modOpen h.kk h.seq fun h => { h with delivered := true, buf := none }
    s.postItem h (24 + t)
      [header 3 (0x61 + t) t (0x100 + i), handleWord h.kk h.seq, a, wordOf (bitNat h.replayed + 2 * h.replays)]

/-- An X verb's delivery: its buffer is TAKEN unless it holds one, and a TAKE that returns 0 is made again later (R206,
R243). -/
def State.tryX (s : State) (h : Handle) (t i : Nat) (text : String) : State :=
  match h.buf with
  | some a => s.deliverX h t i text a
  | none =>
    let a := (s.gran.take t s.xClass).1
    let s := s.modGran fun g => (g.take t s.xClass).2
    if a = 0#32 then s else (s.holdBuffer h.kk h.seq a).deliverX h t i text a

/-- X verbs commit when a plot thread is dispatched with their item (R182): their item has left its queue. -/
def State.commitX (s : State) : State :=
  s.hnd.opens.foldl (fun s h => match h.form with
    | .x _ _ _ _ =>
      if h.delivered && !h.committing
          && ((List.range 128).any fun t => (s.th t).resumed && (s.th t).item.any fun it => it.names h.kk h.seq) then
        s.reqCommit h.kk h.seq
      else s
    | _ => s) s

end Sys2Proof.Machine
end

