-- ==== Sys2Proof/Machine/Running.lean ====
section
/-! DEFINITION. Running handles: when a handle's work begins (R44, R85, R135, R143 to R145, R243), what each form does
(R146, R149, R159, R163, R167, R171, R195, R199, R202, R204, R206, R219), and the steps of forms that record steps. -/

namespace Sys2Proof.Machine

/-! ### When a handle may begin -/

/-- The handle may begin: its ACCEPTED record is durable, no fault keeps it waiting, and its outcome is open. -/
def Handle.fresh (h : Handle) : Bool := h.accepted && !h.waiting && !h.copying && h.compl.isNone && !h.running

/-- Open handles accepted before this one. -/
def State.before (s : State) (h : Handle) : List Handle := s.hnd.opens.takeWhile fun x => !x.is h.kk h.seq

/-- A REST accepted before the handle is still open (R44, R135). -/
def State.behindRest (s : State) (h : Handle) : Bool :=
  (s.before h).any fun x => x.form = .rest && !x.waiting && x.compl.isNone

/-- The tenancy of an X verb's plot. -/
def Form.xTen : Form → Option Nat
  | .x t _ _ _ => some t
  | _ => none

/-- The flow of a form that rides one flow: the shelf's, or a tenancy's, which X verbs ride too (R199, R206, R641). -/
def Form.flow (f : Form) : Option Nat :=
  match f.xTen with
  | some t => some (0x61 + t)
  | none => f.keeperFlow

/-- The handle's item of Q4 or of a plot's queue has been posted: it is queued, in service, or lost with a thread that recovery
has not come to (R638). -/
def State.posted (s : State) (h : Handle) : Bool :=
  h.item.isSome || (s.sow.store.any fun it => it.names h.kk h.seq) || (s.heldItems.any fun p => p.1.names h.kk h.seq)
    || (s.sow.fenced.any fun p => p.2.1.names h.kk h.seq)
    || s.sow.threads.any fun t => t.st = .faulted && t.took.any fun it => it.names h.kk h.seq

/-- Items of the handle are still to be posted: its outcome is open, and it has not begun, or keeper threads still wait for
places. -/
def State.unposted (s : State) (h : Handle) : Bool :=
  h.compl.isNone && (match h.form with
    | .x _ _ _ _ => !h.delivered
    | f => !h.running && !(f.keeperFlow.isSome && s.posted h) || !h.left.isEmpty)

/-- Items of the two forms ride one flow: they name a bay, or they are of one tenancy or of the shelf (R44, R199, R206). -/
def sameFlow (f g : Form) : Bool :=
  match f.bays, g.bays with
  | some a, some b => a &&& b ≠ 0#96
  | _, _ => f.flow.isSome && f.flow = g.flow

/-- The handle claims its field resources only now, or waits for them (R243). -/
def Handle.deferred (h : Handle) : Bool := h.claim = 0 && h.form.queue.isSome

/-- The deferred handle could post its own items: what it needs is up, and it does not wait for a buffer, which holds back only
the X verbs of its tenancy (R243). -/
def State.postable (s : State) (x : Handle) : Bool :=
  x.deferred && x.accepted && !x.waiting && s.allUp (s.needsOf x.form) && !(x.form.xTen.isSome && x.running && x.buf.isNone)

/-- A handle accepted earlier still has items to post, and this one waits behind it: where they ride one flow, since every
flow carries its work in order of acceptance (R152, R243, R275); and where this one claims its items only now and the
earlier one could post its own (R243). -/
def State.behindStuck (s : State) (h : Handle) : Bool :=
  (s.before h).any fun x => s.unposted x && (sameFlow h.form x.form || (h.deferred && s.postable x))

def State.begin (s : State) (h : Handle) : State := s.modOpen h.kk h.seq fun h => { h with running := true }

/-! ### Items of Q4 -/

/-- A keeper field thread posts the form's item on Q4, in its turn on its flow, or waits for a place there (R243, R275, R620,
R641). -/
def State.postForm (s : State) (h : Handle) : State :=
  match h.form.keeperFlow with
  | some f =>
    if s.posted h || s.behindStuck h then s
    else if s.placeFor h 4 then s.postItem h 4 (formWords f h)
    else s.waitsFor h 4
  | none => s

/-- A keeper field thread takes up the form's item, where the Sower has dispatched it to one that the model follows, or can
dispatch it to another (R620, R633, log 19). -/
def State.takeForm (s : State) (h : Handle) : Option State :=
  if s.heldItems.any fun p => p.1.names h.kk h.seq && p.2 < 24 && (s.th p.2).st = .running then some s
  else match s.sow.store.find? fun it => it.names h.kk h.seq with
    | some it =>
      if s.sow.dispatch && s.sys.fieldUp && s.eligible it then
        some ((s.takeUpItem it).modOpen h.kk h.seq fun h => { h with item := some it })
      else none
    | none => none

/-- The form rides its flow as an item of Q4: it runs once a keeper field thread has taken that up (R199, R620, R641). -/
def State.ride (s : State) (h : Handle) (run : State → State) : State :=
  let s := s.postForm h
  match s.takeForm h with
  | some u => run u
  | none => s

/-- The handle still needs the field, so a REST waits behind it (R44, R210). -/
def Handle.holdsRest (h : Handle) : Bool :=
  h.compl.isNone && h.form.needsField && !(h.form.xTen.isSome && h.committing)

/-- A REST may post its item: the state is FIELD, and nothing accepted before it still needs the field (R44, R135). -/
def State.restMay (s : State) (h : Handle) : Bool :=
  s.sys.kst = .field && (s.isUp .tenancy || s.down.contains .tenancy) && !(s.before h).any Handle.holdsRest

/-! ### Bay work -/

/-- Bays that an open BAY OFF accepted later also names: a replayed BAY ON leaves them out (R281). -/
def State.laterOff (s : State) (h : Handle) : BitVec 96 :=
  ((s.hnd.opens.dropWhile fun x => !x.is h.kk h.seq).drop 1).foldl (fun m x => match x.form with
    | .bayOff b => if x.compl.isNone then m ||| b else m
    | _ => m) 0#96

/-- The bays that a handle posts items for, and the kind of its items. -/
def State.worksOf (s : State) (h : Handle) : List Nat × WorkKind :=
  match h.form with
  | .bayOn b t => (onesOf (b &&& ~~~t &&& ~~~(if h.replayed then s.laterOff h else 0#96)), .on)
  | .bayOff b => (onesOf b, .off)
  | .forget b e => (onesOf (b &&& ~~~e), .forget)
  | .tag b _ _ => (onesOf b, .tag)
  | .tagAuto b => (onesOf b, .tag)
  | _ => ([], .on)

/-- Post the handle's item on bay `n`, where it is the next one and the bay work queue has a place for it; otherwise its thread
waits for one (R139, R243). -/
def State.postWork (kk seq : Nat) (s : State) (n : Nat) : State :=
  match s.openAt kk seq with
  | some h =>
    if h.left.head? ≠ some n then s
    else if s.placeFor h 1 then (s.modOpen kk seq fun h => { h with left := h.left.drop 1 }).postItem h 1 (formWords (1 + n) h)
    else s.waitsFor h 1
  | none => s

/-- Post the items that are left, as far as the bay work queue takes them; the rest wait (R243, R570). -/
def State.postLeft (s : State) (h : Handle) : State := h.left.foldl (State.postWork h.kk h.seq) s

/-- Begin a bay form: its items are posted one by one (R139, R243). -/
def State.postWorks (s : State) (h : Handle) : State :=
  let w := s.worksOf h
  if s.behindStuck h then s
  else
    let skip := match h.form with
      | .bayOn b t => if h.replayed then b &&& ~~~t &&& s.laterOff h else 0#96
      | _ => 0#96
    let s := (s.begin h).modOpen h.kk h.seq fun h =>
      { h with cntE := (match h.form with
                 | .forget _ _ => h.cntE
                 | _ => 0), cntU := 0, cntL := 0, left := w.1, skip := skip, claim := min h.claim w.1.length }
    match s.openAt h.kk h.seq with
    | some h' => if w.1.isEmpty then (s.commitStarts h.kk h.seq).worksDone h.kk h.seq else s.postLeft h'
    | none => s

/-! ### The face -/

/-- FACE settings (R171, R488). -/
def State.setFace (s : State) (f : FaceSet) : State :=
  s.modFace fun x => { x with host := f, auto := 0, autoTick := s.cal.tick }

/-! ### PLOT LOAD, PLOT UNLOAD and SELFTEST -/

/-- The next step of a PLOT LOAD, after the step that its newest record gives; it commits once its first is durable (R182, R202,
R261, R280). -/
def State.plotStep (s : State) (h : Handle) (t a : Nat) : State :=
  match h.step with
  | 0 => (s.stopPlot t).reqStep h.kk h.seq
  | 1 =>
    if !h.committing then s.reqCommit h.kk h.seq
    else
    let s := (s.releasePlot t).modPlot t fun p => { p with st := .loading }
    let r := s.findImage t a
    if r.1 ≠ 0 then
      (s.modPlot t fun p => { p with st := .down (imageReason r.1) }).retire h.kk h.seq (complFailed r.1 false)
    else
      s.sdbAsk
        { setting := .plotRec t a (256 + r.2.1.codeSize) r.2.1.verbs.length r.2.1.replayable r.2.1.verbs
          reply := none, handle := some (h.kk, h.seq), ord := h.ord }
  | 2 =>
    let r := s.findImage t a
    if r.1 ≠ 0 then
      (s.modPlot t fun p => { p with st := .down (imageReason r.1) }).retire h.kk h.seq (complFailed r.1 false)
    else (s.startPlot t a r.2.1 r.2.2).reqStep h.kk h.seq
  | _ =>
    let p := s.plotAt t
    s.retire h.kk h.seq (complDone [t, p.size, p.verbs.length] false)

/-- PLOT UNLOAD, past its commit: the plot RAM is released and the recorded address cleared (R204, R261). -/
def State.unloadRest (s : State) (h : Handle) (t : Nat) : State :=
  (s.releasePlot t).sdbAsk
    { setting := .plotRec t max32 0 0 0#16 [], reply := none, handle := some (h.kk, h.seq), ord := h.ord }

/-- PLOT UNLOAD: step 1 of R202, where the form commits (R182, R204). -/
def State.runUnload (s : State) (h : Handle) (t : Nat) : State :=
  let s := (s.begin h).stopPlot t
  if h.committing then s.unloadRest h t else s.reqCommit h.kk h.seq

/-- Bays whose rails SELFTEST proves (R219). -/
def State.provable (s : State) : List Nat :=
  (List.range 96).filter fun n => (s.bayAt n).st ≠ .locked && (s.bayAt n).st ≠ .starting

/-- Start the proofs of SELFTEST's second step (R219, R423): of rails whose pulse is still to come, bit 2n for bay n's main rail
stands in cntU. A bay that another demand holds is proved anew after it. DESIGN CHOICE (log 101): which bays are LOCKED or STARTING
is judged once, as the step begins. -/
def State.startProofs (s : State) (h : Handle) : State :=
  let l := s.provable
  let s := s.modOpen h.kk h.seq fun h =>
    { h with cntL := 1, cntE := 2 * l.length, cntU := l.foldl (fun m n => m + 3 * 4 ^ n) 0
             skip := mapOf 96 (l.filter fun n => (s.bayAt n).proofBusy) }
  (l.filter fun n => !(s.bayAt n).proofBusy).foldl State.proofRun s

/-- A proof on demand of bay `n`'s rail has ended: where SELFTEST waits for it, its own pulse counts, with its result (R219). -/
def State.selfProof (s : State) (n : Nat) (rail : Rail) (pass : Bool) : State :=
  s.hnd.opens.foldl (fun s h => match h.form with
    | .selftest _ =>
      let i := 2 * n + railNo rail
      if !h.running || h.compl.isSome || h.step ≠ 1 || !bitAt h.cntU i then s
      else if h.skip.getLsbD n then
        if (s.bayAt n).proofBusy then s else s.modOpen h.kk h.seq fun h => { h with skip := putBit h.skip n false }
      else s.modOpen h.kk h.seq fun h => { h with cntU := h.cntU - 2 ^ i, cntL := if pass then h.cntL else 2 }
    | _ => s) s

/-- A step of SELFTEST has ended: its bit in the bitmap of steps passed, and its record. -/
def State.testStep (s : State) (h : Handle) (i : Nat) (pass : Bool) : State :=
  let s := s.modOpen h.kk h.seq fun h => match h.form with
    | .selftest p => { h with form := .selftest (if pass && !bitAt p i then p + 2 ^ i else p), cntU := 0 }
    | _ => h
  s.reqStep h.kk h.seq

/-- SELFTEST goes on in its second step (R219): where every pulse has been made, the step passes if every rail passed; a bay that
another demand held is demanded once that is over. -/
def State.proofsDone (s : State) (h : Handle) : State :=
  if h.cntL = 0 || s.recordsDue h.kk h.seq then s
  else if h.cntU = 0 then s.testStep h 1 (h.cntL = 1)
  else ((List.range 96).filter fun n => h.cntU / 4 ^ n % 4 ≠ 0 && !h.skip.getLsbD n).foldl State.proofRun s

/-- The next step of a SELFTEST, after the step that its newest record gives (R219, R280). DESIGN CHOICE (log 85): one that a cold
start resumes past its proofs has lost their number, and completes with that of the rails that it would prove now. It commits once its first step is durable (R182, R261). -/
def State.selfStep (s : State) (h : Handle) : State :=
  match h.step with
  | 0 => let r := s.freeCheck
         r.2.testStep h 0 r.1
  | 1 =>
    if !h.committing then s.reqCommit h.kk h.seq
    else
    let s := s.startProofs h
    match s.openAt h.kk h.seq with
    | some h => if h.cntU = 0 then s.testStep h 1 true else s
    | none => s
  | 2 => let r := s.freeCheck
         r.2.testStep h 2 r.1
  | 3 => let r := s.freeCheck
         r.2.testStep h 3 r.1
  | _ =>
    let p := match h.form with
      | .selftest p => p
      | _ => 0
    let rails := if h.cntL ≠ 0 then h.cntE else 2 * s.provable.length
    s.retire h.kk h.seq
      (if p % 16 = 15 then complDone [rails] false else { complFailed 1 false with nums := [rails, 15 - p % 16] })

/-! ### KEY and LEDGER EPOCH -/

/-- At the commit of a KEY form every other session loses Tt, and its pending challenge for Tt (R195). -/
def State.loseTen (s : State) (t : Nat) (own : Option Nat) : State :=
  { s with ses := Vector.ofFn fun i =>
      let x := vget s.ses i.val
      if own = some i.val then x
      else
        { x with proved := if x.proved = some t then none else x.proved
                 challenge := if x.challenge.any fun c => c.1 = t then none else x.challenge } }

/-- A KEY form has committed: the other sessions lose Tt, and it completes (R182, R195). -/
def State.keyDone (s : State) (h : Handle) (t : Nat) : State :=
  (s.loseTen t h.opener).retire h.kk h.seq (complDone [t] false)

/-- KEY SET and KEY CLEAR: the seedbank write, unless it has been recorded already (R195, R280). -/
def State.runKey (s : State) (h : Handle) (t : Nat) (k : Option (BitVec 256)) : State :=
  let s := s.begin h
  if h.phase = .committed then s.keyDone h t
  else if h.step = 0 then s.sdbAsk { setting := .key t k, reply := none, handle := some (h.kk, h.seq), ord := h.ord }
  else s.reqCommit h.kk h.seq

/-- Another LEDGER EPOCH of Tt, accepted earlier, is not done (R199). -/
def State.epochBusy (s : State) (h : Handle) (t : Nat) : Bool :=
  (s.before h).any fun x => !x.waiting && x.compl.isNone && (match x.form with
    | .epoch u _ => u = t
    | _ => false)

/-- LEDGER EPOCH: the close, unless epoch `e` has been closed already (R199, R282). -/
def State.runEpoch (s : State) (h : Handle) (t e : Nat) : State :=
  if s.epochBusy h t then s
  else if (vget s.led.epochs t).number ≠ e then
    if s.fur.pendingLines.any fun p => p.1 = 2944 || p.1 = 2976 then (s.begin h).reqCommit h.kk h.seq
    else (s.begin h).retire h.kk h.seq (complDone [e] false)
  else (s.begin h).closeEpoch t h.kk h.seq

/-! ### Beginning -/

/-- Begin a form whose functions have all announced, in WAKING or FIELD. -/
def State.runField (s : State) (h : Handle) : State :=
  match h.form with
  | .bayOn _ _ => s.postWorks h
  | .bayOff _ => s.postWorks h
  | .forget _ _ => s.postWorks h
  | .envSet w v => s.ride h fun s => (s.begin h).sdbAsk { setting := .env w v, reply := none, handle := some (h.kk, h.seq), ord := h.ord }
  | .tag _ _ _ => s.postWorks h
  | .tagAuto _ => s.postWorks h
  | .plotLoad t a => s.ride h fun s => (s.begin h).plotStep h t a
  | .plotUnload t => s.ride h fun s => s.runUnload h t
  | .selftest _ => s.ride h fun s => (s.begin h).selfStep h
  | .x t i text _ => if s.behindStuck h then s else (s.begin h).tryX h t i text
  | _ => s

/-- Begin the handle's work if it may begin now. A WAKE that finds the state FIELD completes once its COMMITTED record is durable
(R143, R261): its cntL says so. -/
def State.tryRun (s : State) (h : Handle) : State :=
  match h.form with
  | .face f =>
    if h.phase = .committed then ((s.begin h).setFace f).retire h.kk h.seq (complDone [] false)
    else s.reqCommit h.kk h.seq
  | .rest =>
    if s.sys.kst = .latch then (s.begin h).retire h.kk h.seq (complDone [] false)
    else if s.restMay h then s.postForm h
    else s
  | .wake =>
    if s.behindRest h && s.sys.kst ≠ .latch then s
    else match s.sys.kst with
      | .latch => s.askWake (.verb h.ten)
      | .waking => (s.begin h).reqCommit h.kk h.seq
      | .field =>
        ((s.begin h).modOpen h.kk h.seq fun x => { x with cntL := bitNat (!h.replayed) }).reqCommit h.kk h.seq
      | .resting => s
  | f =>
    if s.behindRest h then s
    else if s.sys.kst = .resting then s
    else if s.sys.kst = .latch && f.needsField then s.askWake (.form h.ten)
    else match s.anyDown (s.needsOf f) with
      | some x => s.retire h.kk h.seq (complNotReady f x false)
      | none =>
        if !s.allUp (s.needsOf f) then s
        else match f with
          | .keySet t k => s.runKey h t (some k)
          | .keyClear t => s.runKey h t none
          | .epoch t e =>
            if s.sys.kst = .latch then s.runEpoch h t e
            else if s.epochBusy h t then s
            else s.ride h fun s => s.runEpoch h t e
          | _ => s.runField h

/-- A handle that runs goes on where it waited for a place of a queue, or for the last proof (R219, R243). -/
def State.goesOn (s : State) (h : Handle) : State :=
  match h.form with
  | .selftest _ => if h.step = 1 then s.proofsDone h else s
  | .x t i text _ => match h.buf with
    | some a => if h.delivered then s else s.deliverX h t i text a
    | none => s
  | _ => (s.postLeft h).worksDone h.kk h.seq

/-- Every open handle that may begin begins, in order of acceptance (R275); one that has ended is finished where nothing
holds its completion (R229, R251). -/
def State.runDue (s : State) : State :=
  (s.hnd.opens.foldl (fun s h => match s.openAt h.kk h.seq with
    | some h =>
      if h.fresh then s.tryRun h
      else if h.running && h.compl.isNone then s.goesOn h
      else if h.phase = .retired then s.finishDue h.kk h.seq
      else s
    | none => s) s).serveTags.sdbKick

/-- The handle's newest record is durable and no other is asked for: a form that waits for its records goes on (R261). -/
def State.advance (s : State) (kk seq : Nat) : State :=
  match s.openAt kk seq with
  | none => s
  | some h =>
    if !h.running || h.compl.isSome || s.recordsDue kk seq then s
    else match h.form with
      | .plotLoad t a => s.plotStep h t a
      | .selftest _ => s.selfStep h
      | .wake => if h.phase = .committed && (h.cntL = 1 || s.isUp .tenancy) then s.retire kk seq (complDone [] false) else s
      | .bayOn _ _ => (s.settle.commitStarts kk seq).worksDone kk seq
      | .bayOff _ => s.worksDone kk seq
      | .forget _ e =>
        if 0 < h.stepReq && !h.committing then s.reqCommit kk seq else (s.forgotten kk seq e).worksDone kk seq
      | .tag _ _ _ => s.serveTags.worksDone kk seq
      | .tagAuto _ => s.serveTags.worksDone kk seq
      | .epoch _ e => if h.cntL = 1 then s.retire kk seq (complDone [e] false) else s
      | .plotUnload t => if h.phase = .committed then s.unloadRest h t else s
      | .keySet t _ => if h.phase = .committed then s.keyDone h t else s.reqCommit kk seq
      | .keyClear t => if h.phase = .committed then s.keyDone h t else s.reqCommit kk seq
      | .envSet w v => if h.phase = .committed then s.retire kk seq (complDone [w.code, v] false) else s
      | _ => s

/-- A proof has ended: SELFTEST may have its last (R219). -/
def execProofEnd (n : BayNo) (rail : Rail) (stillOver : Bool) (s : State) : Res :=
  onField s fun s =>
    let r := (s.bayAt n.val).rail rail
    let u := s.proofEnds n.val rail stillOver
    (if r.frozen && r.checked && r.proving then u.selfProof n.val rail r.pass else u).runDue

/-- The X handles whose TAKE has returned 0 try again, in order of acceptance (R243). -/
def State.retryX (s : State) : State :=
  s.hnd.opens.foldl (fun s h => match h.form with
    | .x t i text _ =>
      if h.running && h.compl.isNone && !h.delivered && h.buf.isNone && s.isUp (.plot t) && !s.behindStuck h then s.tryX h t i text
      else s
    | _ => s) s

/-- DEFERRED-RESOURCE-CLAIM: handles held for resources try again (R243). -/
def execDeferredResourceClaim (s : State) : Res := goOn (if s.sys.inReset then s else s.retryX.runDue)

/-- A calendar tick item stands where LC or a keeper thread serves it (R641). -/
def State.tickWaits (s : State) : Bool := (s.tickItem 58).isSome || (s.tickItem 2).isSome || (s.tickItem 3).isSome

/-- The keeper has served tick items of `s`: it tries again the TAKEs of the X handles that it holds (R243). -/
def State.ticked (s u : State) : State := if s.tickWaits then u.retryX.runDue else u

/-- LEDGER-TICK. -/
def execLedgerTick (s : State) : Res := goOn (s.ticked s.ledgerTick)

/-- PLANNER-START, after LC has served the tick items of Q58. -/
def execPlannerStart (n : BayNo) (s : State) : Res := onField s fun s => s.ticked (s.lcTicks.plannerStart n.val)

/-- INTERVAL-END. -/
def execIntervalEnd (s : State) : Res := goOn (s.ticked s.intervalEnd)

/-- A keeper thread waits first for a place of queue `q`, for an item of a handle (R243, R634). -/
def State.formWaits (s : State) (q : Nat) : Bool :=
  s.hasRoom q && (match s.waiter q with
    | some (.handle _ _) => true
    | _ => false)

/-- WAITSPACE-GRANT (R634): the place goes to the claimant that waits first; a keeper thread posts its item in it. -/
def execWaitspaceGrant (q : Fin 64) (s : State) : Res := goOn (if s.formWaits q.val then s.runDue else s.grant q.val)

end Sys2Proof.Machine
end

