-- ==== Sys2Proof/Machine/Records.lean ====
section
/-! DEFINITION. What becomes durable: journal records (R224 to R229, R258 to R262), lines outside the journal (R363,
R373, R379, R381, R383, R740), seedbank writes (R358 to R360), and what goes on from there; the verbs CANCEL and FURROW
(R217, R249 to R252); the items that plots post on Q55 (R207 to R209). -/

namespace Sys2Proof.Machine

/-! ### Records -/

/-- Print the handle (R224); a handle that the panel opened is announced (R475). -/
def State.answer (s : State) (h : Handle) : State :=
  if h.tag = panelTag then s.notice (panelTag ++ " " ++ handleText h.kk h.seq)
  else (s.emit h.ses ("=" ++ h.tag ++ " " ++ handleText h.kk h.seq)).afterLine h.ses

/-- The form commits at its acceptance, and is printed once its COMMITTED record is durable (R227). -/
def Form.commitsFirst : Form → Bool
  | .face _ => true
  | _ => false

/-- The handle's slots once its record in `slot` is its latest (R262). -/
def Handle.latest (h : Handle) (slot : Nat) : List Nat := h.slots.take 1 ++ [slot]

/-- The handle once record `r`, its newest, is durable in `slot` with SEQ `seq`. -/
def Handle.recorded (h : Handle) (r : Rec) (slot seq : Nat) : Handle :=
  match r.phase with
  | .accepted =>
    if h.slots.isEmpty then { h with slots := [slot], order := seq, accepted := !h.form.commitsFirst }
    else { h with slots := h.latest slot }
  | .step => { h with phase := .step, step := r.step, slots := h.latest slot }
  | .committed => { h with phase := .committed, step := r.step, slots := h.latest slot, accepted := true }
  | .retired => { h with phase := .retired, ends := h.ends ++ [slot], retSeq := seq }
  | .text => { h with ends := h.ends ++ [slot] }
  | .queued => h

/-- A PLOT LOAD that is DONE makes the X verbs of its plot usable (R203). -/
def State.plotUp (s : State) (h : Handle) : State :=
  match h.form, h.compl with
  | .plotLoad t _, some c =>
    if c.outcome = oDone && s.sys.fieldUp && !s.isUp (.plot t) then { s with up := s.up ++ [.plot t] } else s
  | _, _ => s

/-- A record of an open handle is durable (R224, R228, R261, R262, R274). -/
def State.openRecorded (s : State) (h : Handle) (r : Rec) (slot seq : Nat) : State :=
  let due := s.recordsDue h.kk h.seq
  let h' := { h.recorded r slot seq with copying := h.copying && due }
  let s := s.modOpen h.kk h.seq fun _ => h'
  let s := if h'.accepted && !h.accepted then s.answer h' else s
  if r.phase = .retired then (s.plotUp h').finishDue h.kk h.seq else s.advance h.kk h.seq

/-- The record in `slot` with SEQ `seq` is durable. -/
def State.recordDone (s : State) (r : Rec) (slot seq : Nat) : State :=
  let s := match s.openAt r.keeper r.handle with
    | some h => s.openRecorded h r slot seq
    | none => s.modHnd fun x =>
        { x with kept := x.kept.map fun (k : Kept) => if k.is r.keeper r.handle then { k with slots := k.slots ++ [slot] } else k
                 gone := x.gone.filter fun g => !(g.1 = r.keeper && g.2.1 = r.handle) }
  s.runDue

/-- The record being written is verified, or goes back to the head of the queue and is written to the next slot
(R261). -/
def State.recordEnds (s : State) (verified : Bool) : State :=
  match s.jrn.writing with
  | none => s
  | some (slot, seq, r) =>
    if verified then
      ((s.furStore slot (r.bytes seq)).modJrn fun j =>
        { j with writing := none, lastSlot := slot, lastSeq := seq }.refill).recordDone r slot seq
    else
      ((s.furDamage slot).furFailed).modJrn fun j => { j with writing := none, lastSlot := slot, queue := r :: j.queue }

/-! ### Lines outside the journal -/

/-- The checkpoint's header line. -/
def headerLine (line : Nat) : Bool := line = 2944 || line = 2976

/-- A line of the closed-epoch region, of the GAP region (R382). -/
def closedLine (line : Nat) : Bool := 3010 ≤ line && line < 3520
def gapLine (line : Nat) : Bool := 3520 ≤ line && line < 3968

/-- The LEDGER EPOCH handles whose checkpoint q + 1 is durable complete, once their COMMITTED records are durable too (R199,
R261, R379). -/
def State.epochsDone (s : State) : State :=
  s.hnd.opens.foldl (fun s h => match h.form with
    | .epoch _ e =>
      if !h.running || !h.committing then s
      else if s.recordsDue h.kk h.seq then s.modOpen h.kk h.seq fun h => { h with cntL := 1 }
      else s.retire h.kk h.seq (complDone [e] false)
    | _ => s) s

/-- Line 2 of a profile record (R440), which a PROFILE FORGET writes with LEARNED 0 (R446). -/
def isErasure (line : Nat) (b : List Byte) : Bool :=
  2560 ≤ line && line < 2944 && (line - 2560) % 4 = 2 && unitAt b 2 1 = 0

/-- The bytes of a kept-handle entry pass their check (R240). -/
def keptOk (l : List Byte) : Bool := unitAt l 0 1 = 0x48 && crc32c (l.take 28) = unitAt l 28 4

/-- The last attempt at a line of the kept-handle region has failed: the entries of it that no longer pass their check count
as free (R740). -/
def State.keptLost (s : State) (line : Nat) : State :=
  let l := s.furLine line
  s.modHnd fun x =>
    { x with kept := x.kept.filter fun k => 3968 + k.entry / 2 ≠ line || keptOk ((l.drop (k.entry % 2 * 32)).take 32) }

/-- The lock line of a bay (R427, R440). -/
def isLockLine (line : Nat) : Bool := 2560 ≤ line && line < 2944 && (line - 2560) % 4 = 3

/-- A waiting line's bytes as its write begins: a lock record, and line 2 of an erased profile, carry the calendar tick of
their write (R440, R446). -/
def State.asWritten (s : State) (line : Nat) (b : List Byte) : List Byte :=
  if isLockLine line then lockBytes (unitAt b 1 1 = 1) (unitAt b 2 1) (unitAt b 3 1) (s.cal.tick % pow32)
  else if isErasure line b then s.erasureLine ((line - 2560) / 4)
  else b

/-- A line is stored, or its last attempt has failed: what waits for it goes on (R363, R379, R427, R428, R446, R740). -/
def State.lineEnds (s : State) (line : Nat) (b : List Byte) (stored : Bool) : State :=
  if headerLine line then s.epochsDone
  else if isLockLine line then s.lockLineEnds ((line - 2560) / 4) b
  else if isErasure line b then s.eraseEnds ((line - 2560) / 4)
  else if 3968 ≤ line && !stored then s.keptLost line
  else if closedLine line && line % 2 = 0 then s.reqCommit (unitAt b 30 1) (unitAt b 28 2)
  else if stored && (line = 3008 || line = 3009) then s.calSaved line
  else s

/-- Put a write at the head of those that wait. -/
def State.furAgain (s : State) (line : Nat) (b : List Byte) (n : Nat) : State :=
  s.modFur fun f => { f with pendingLines := (line, b, n) :: f.pendingLines }

/-- A GAP entry whose write failed goes to the next slot (R383, R740). -/
def State.gapAgain (s : State) (b : List Byte) : State :=
  (s.furAgain (3520 + s.led.gapSlot) b 0).modLed fun d => { d with gapSlot := (d.gapSlot + 1) % 448 }

/-- A closed-epoch record whose write failed goes to the next slot, both its lines (R381, R740). -/
def State.closedAgain (s : State) (line : Nat) (b : List Byte) : State :=
  let i := (line - 3010) / 2
  let other := if line % 2 = 0 then line + 1 else line - 1
  let c := s.furLine other
  let new := closedFree (keptSlots s.closeds) 255 ((i + 1) % 255)
  let s := s.modFur fun f => { f with pendingLines := f.pendingLines.filter fun p => p.1 ≠ other }
  let s := s.modLed fun d => { d with closedSlot := some new }
  if line % 2 = 0 then (s.furAgain (3010 + 2 * new) b 0).furAgain (3011 + 2 * new) c 0
  else (s.furAgain (3010 + 2 * new) c 0).furAgain (3011 + 2 * new) b 0

/-- A line's write failed its verify (R740). -/
def State.lineFails (s : State) (line : Nat) (b : List Byte) (n : Nat) : State :=
  let s := (s.furDamage line).furFailed
  if gapLine line then s.gapAgain b
  else if closedLine line then s.closedAgain line b
  else if n < 3 then s.furAgain line b (n + 1)
  else ((s.modJrn fun j => { j with failed := true }).notice ("^FURROW FAIL " ++ decText line)).lineEnds line b false

/-- The oldest waiting line is written (R739, R740). -/
def State.lineWrite (s : State) (verified : Bool) : State :=
  match s.fur.pendingLines with
  | [] => s
  | (line, asked, n) :: l =>
    let b := s.asWritten line asked
    let s := ((s.modFur fun f => { f with pendingLines := l }).modJrn fun j => { j with lineLate := false }).furCount
    if verified then (s.furStore line b).lineEnds line b true else s.lineFails line b n

/-- FURROW-OP-DONE: the port's command completes, or the oldest line that firmware waits for is written. -/
def State.furrowDone (s : State) (verified : Bool) : State :=
  if s.fur.op.isSome then s.furPortDone verified
  else if s.lineFree then (s.lineWrite verified).runDue
  else s

/-- The lines that wait are written up to the first checkpoint header, whose outcome is given, or until a record comes that
goes first (R739). -/
def State.throughHeader (verified : Bool) : Nat → State → State
  | 0, s => s
  | f + 1, s =>
    match s.fur.pendingLines with
    | [] => s
    | (line, _, _) :: _ =>
      if !s.jrn.lineTurn then s
      else if headerLine line then s.lineWrite verified
      else State.throughHeader verified f (s.lineWrite true)

/-- A checkpoint waits for its header. -/
def State.headerDue (s : State) : Bool := s.fur.pendingLines.any fun p => headerLine p.1

/-- CHECKPOINT-DURABLE (R373). -/
def State.checkpointDone (s : State) (verified : Bool) : State :=
  if s.lineFree && s.headerDue then (State.throughHeader verified s.fur.pendingLines.length s).runDue else s

/-! ### Seedbank writes -/

/-- The guard's registers take the stored values (R160, R431). -/
def State.guardWords (s : State) : State :=
  s.modEnv fun e =>
    { e with ceilM := s.sdb.envMain, ceilA := s.sdb.envAux, shed := s.sdb.envShed, guard := s.sdb.envGuard, replanDue := true }

/-- The value that a handle asked for is stored: the handle goes on (R160, R195, R202, R204). -/
def State.jobFor (s : State) (h : Handle) : State :=
  let on := h.running && !h.waiting && h.compl.isNone
  match h.form with
  | .envSet w v =>
    let s := if s.sys.fieldUp then s.guardWords else s
    if !on then s.finishDue h.kk h.seq
    else if h.committing then s.retire h.kk h.seq (complDone [w.code, v] false)
    else s.reqCommit h.kk h.seq
  | .keySet _ _ => if on then s.reqStep h.kk h.seq else s.finishDue h.kk h.seq
  | .keyClear _ => if on then s.reqStep h.kk h.seq else s.finishDue h.kk h.seq
  | .plotLoad _ _ => if on then s.reqStep h.kk h.seq else s.finishDue h.kk h.seq
  | .plotUnload t =>
    let s := s.modPlot t fun p => { p with st := .none }
    if on then s.retire h.kk h.seq (complDone [t] false) else s.finishDue h.kk h.seq
  | _ => s.finishDue h.kk h.seq

/-- What a stored job answers or lets go on (R358, R360); the `=` line of a session that has ended goes to its pair (R121). -/
def State.jobEnds (s : State) (j : SdbJob) : State :=
  let s := match j.reply with
    | some (k, tag, t) => if 16 ≤ k || (s.sesAt k).isOpen then (s.emit k ("=" ++ tag ++ " " ++ t)).afterLine k else s
    | none => s
  match j.handle with
  | some (kk, seq) =>
    match s.openAt kk seq with
    | some h => (s.modOpen kk seq fun h => { h with ord := 0 }).jobFor h
    | none => s
  | none => s

/-- A seedbank operation completes (R358 to R361). -/
def State.seedbankDone (s : State) (verified : Bool) : State :=
  if !s.sdb.jobBusy then (s.sdbPortDone verified).sdbKick
  else match s.sdb.jobs with
    | [] => s
    | j :: _ => if verified then ((s.jobStored j).jobEnds j).sdbKick.runDue else s.jobFailed j

/-- SEEDBANK-OP-DONE. -/
def execSeedbankOpDone (verified : Bool) (s : State) : Res := goOn (if s.sys.inReset then s else s.seedbankDone verified)

/-! ### Everything durable -/

/-- Write every record, line and page that waits: what stands inside READY-REPLAY (R276). Which writes fail their verify is
free (R261, R359, R740), but for the last `sure` of them, so that the writing comes to an end. -/
def State.settleAll (sure : Nat) : Nat → State → State
  | 0, s => s
  | f + 1, s =>
    let ok := decide (f < sure) || s.freeCheck.1
    let t := s.freeCheck.2
    if s.furLocked then s
    else if s.jrn.writing.isSome then State.settleAll sure f (t.recordEnds ok)
    else if !s.jrn.queue.isEmpty then State.settleAll sure f s.journalStart
    else if s.sdb.jobBusy then State.settleAll sure f (t.seedbankDone ok)
    else if !s.fur.pendingLines.isEmpty then State.settleAll sure f ((t.lineWrite ok).runDue)
    else s

/-! ### CANCEL -/

/-- A cause of the WAKE asked for still stands: the panel's and a plot's do, and a verb's or a form's does while an open handle of
its tenancy needs the WAKE (R35, R245). -/
def State.causeStands (s : State) (c : WakeCause) : Bool :=
  let needs : Handle → Bool := fun h => h.accepted && h.compl.isNone && !h.waiting && !h.copying
  match c with
  | .verb t => s.hnd.opens.any fun h => needs h && h.form = .wake && h.ten = t
  | .form t => s.hnd.opens.any fun h => needs h && h.form ≠ .wake && h.form.needsField && h.ten = t
  | _ => true

/-- The causes that stand no longer, since no open handle needs their WAKE, are dropped (R245). -/
def State.dropWake (s : State) : State := s.modSys fun y => { y with wakePend := y.wakePend.filter s.causeStands }

/-- A standby pair whose item names the handle is cancelled, and the item is back in its queue: it has not been dispatched (R251,
R616, R630). LC has the Sower cancel it, as for a thread that stops. -/
def State.unprefetchNamed (s : State) (kk seq : Nat) : State :=
  (List.range 6).foldl (fun s k =>
    if (s.core k).standby.any fun t => !(s.th t).resumed && (s.th t).item.any fun it => it.names kk seq then s.unprefetch k 6 3 false
    else s) s

/-- The handle's items that wait in Q1 or Q4 are discarded (R251), and its starts that are not made yet are not made (R153). -/
def State.dropStarts (s : State) (kk seq : Nat) : State :=
  let s := (s.modOpen kk seq fun h => { h with left := [] }).modSow fun w =>
    { w with store := w.store.filter fun it => !(it.isWork && it.names kk seq) }
  (s.bays.work.filter fun w => w.kk = kk && w.seq = seq && !w.fin).foldl (fun s w =>
    if w.kind = .on && w.acted && s.env.waiting.contains w.bay then (s.unplan w.bay).endWork w id else s) s

/-- A REST under way is called off before its commit: the shelf stays in FIELD (R252). DESIGN CHOICE (log 99): a WAKE asked for in
RESTING meanwhile stays asked for, and runs after the next REST (R35, R209). -/
def State.dropRest (s : State) (h : Handle) : State :=
  if h.form = .rest && h.running && s.sys.kst = .resting then (s.modSys fun y => { y with kst := .field, restStep := 0 }).showTags else s

/-- The job is not one of the handle's. -/
def otherJob (h : Handle) (j : SdbJob) : Bool := decide (j.handle ≠ some (h.kk, h.seq))

/-- A CANCEL is accepted (R250 to R252). DESIGN CHOICE (log 98): it is answered as its RETIRED record is asked for, and not once
that is durable. -/
def State.cancelled (s : State) (h : Handle) : State :=
  let s := s.retire h.kk h.seq (complCancelled false)
  let s := (s.modOpen h.kk h.seq fun h => { h with cancelled := true }).unprefetchNamed h.kk h.seq
  let s := s.dropStarts h.kk h.seq
  let s := s.dropXs fun it => it.names h.kk h.seq
  let s := s.modSdb fun d => { d with jobs := d.jobs.take (bitNat d.jobBusy) ++ (d.jobs.drop (bitNat d.jobBusy)).filter (otherJob h) }
  (((s.dropRest h).dropWake).runDue).finishDue h.kk h.seq

/-- What CANCEL does and answers (R249, R250). -/
def State.cancelLine (s : State) (k : Nat) (r : HRef) : String × State :=
  let t := "CANCEL " ++ handleText r.kk.toNat r.seq.toNat ++ " "
  match s.seenOpen k r with
  | none => (t ++ "UNKNOWN", s)
  | some h =>
    if h.cancelled then (t ++ "ACCEPTED", s)
    else if h.committing || h.compl.isSome then (t ++ "COMMITTED", s)
    else (t ++ "ACCEPTED", s.cancelled h)

/-- CANCEL h (R246, R249). -/
def execCancel (q : Src) (r : HRef) (s : State) : Res :=
  verb s q (.cancel q r) fun s =>
    let x := s.cancelLine q.ses.val r
    x.2.reply q x.1

/-! ### FURROW (R217) -/

/-- SEQs of the journal records held that pass their check. -/
def State.heldSeqs (s : State) : List Nat :=
  (List.range 2560).filterMap fun n => match readSlot (s.furHeld n) with
    | .good q _ => some q
    | _ => none

/-- The newest of SEQs (R272), and the oldest. -/
def newestSeq : List Nat → Nat
  | [] => 0
  | a :: l => l.foldl (fun m x => if serialNewer x m then x else m) a
def oldestSeq : List Nat → Nat
  | [] => 0
  | a :: l => l.foldl (fun m x => if serialNewer m x then x else m) a

/-- Learned profiles (R441). -/
def State.learned (s : State) : Nat := ((List.range 96).filter fun n => learnedBytes (s.profileBytes n)).length

/-- A checkpoint copy that carries its magic fails its check. -/
def State.copyBad (s : State) : Bool := [false, true].any fun b => copyMagic (s.copyHead b) && !s.copyOk b

/-- The FURROW line. -/
def State.furrowText (s : State) : String :=
  let l := s.heldSeqs
  "FURROW RECORDS " ++ decText s.liveSlots.dedup.length ++ " OF 2560 OLDEST " ++ decText (oldestSeq l) ++ " NEWEST "
    ++ decText (newestSeq l) ++ " BAD " ++ decText s.jrn.bad ++ " PROFILES " ++ decText s.learned ++ " LEDGER "
    ++ (if s.copyBad then "BAD" else "OK")

def execFurrow (q : Src) (s : State) : Res := verb s q (.furrow q) fun s => s.reply q s.furrowText

/-- The furrow can take a command: the ports' events of the table (R284, R285). -/
def execFurRead (s : State) : Res := goOn (s.furCmd 1)
def execFurWrite (s : State) : Res := goOn (s.furCmd 2)
def execSdbRead (s : State) : Res := goOn (if s.sys.inReset then s else s.sdbCmd 1)
def execSdbWrite (s : State) : Res := goOn (if s.sys.inReset then s else s.sdbCmd 2)

/-! ### Items that plots post on Q55 -/

/-- Tenancy of an item of a plot's flow, where it is well formed: flow 0x061 + t, tenancy t (R207, R209). -/
def Item.plotTen (it : Item) : Option Nat :=
  let t := fieldAt (it.word 0).toNat 16 4
  if it.flowField = 0x61 + t then some t else none

/-- The first item on Q55 of one of these types that the Sower can dispatch now: eligible, with DISPATCH set (R620, R633). -/
def State.plotItem (s : State) (ok : Nat → Bool) : Option Item :=
  if !s.sow.dispatch then none else s.sow.store.find? fun it => it.q = 55 && ok it.typ && s.eligible it

/-- Text of a completion buffer: at most 160 bytes, ended by a byte 0 (R207). -/
def State.bufferText (s : State) (a : Word) : String :=
  if a = 0#32 then "" else textTo0 (Mem.gets zeroByte s.gran.mem (a.toNat % 0x100000) 160)

/-- The keeper thread that serves a plot's item enters the buffer that word 2 names, if any, in its owner list, and takes it out
again before it gives it back (R207, R208, R524, R661, R664, R666). -/
def State.giveBuffer (s : State) (t : Nat) (it : Item) : State :=
  let a := it.word 2
  if a = 0#32 then s else (((s.ownEnter it.server.1 a).ownLeave it.server.1 a).modGran fun g => g.give t a)

/-- An item that names no open X handle counts in XBAD (R208). DESIGN CHOICE (log 79): the count has no bound and clears at
a cold start only, where the spec gives it no width and no reset. -/
def State.countXbad (s : State) (t : Nat) : State := s.modPlot t fun p => { p with xbad := p.xbad + 1 }

/-- The open X handle of tenancy `t` that word 1 of a completion names (R208). DESIGN CHOICE (log 79): one that has not been
delivered in this field start, or whose outcome is fixed already, is not named. -/
def State.xHandle (s : State) (t : Nat) (w : Word) : Option Handle :=
  match s.openAt (fieldAt w.toNat 16 8) (fieldAt w.toNat 0 16) with
  | some h => if h.form.xTen = some t && h.delivered && h.compl.isNone then some h else none
  | none => none

/-- X-COMPLETION: the plot's answer to an X verb (R207, R208), once the COMMITTED record of the verb's handle is durable (R261). -/
def State.xComplete (s : State) : State :=
  match s.plotItem fun n => n = 0x200 || n = 0x201 with
  | none => s
  | some it =>
    let t := fieldAt (it.word 0).toNat 16 4
    let named := if it.words.length = 3 && it.plotTen.isSome then s.xHandle t (it.word 1) else none
    if named.any fun h => s.recordsDue h.kk h.seq then s
    else
    let s := s.serveItem it
    let text := s.bufferText (it.word 2)
    let s := s.giveBuffer t it
    match named with
    | none => s.countXbad t
    | some h =>
      if it.typ = 0x200 then s.retire h.kk h.seq { complDone [] false with text := text }
      else s.retire h.kk h.seq { complFailed 0 false with text := if text = "" then "PLOT" else text }

def execXCompletion (s : State) : Res := onField s fun s => s.xComplete.runDue

/-- PLOT-WAKE-REQUEST (R209). -/
def State.plotAsks (s : State) : State :=
  match s.plotItem fun n => n = 0x202 with
  | none => s
  | some it =>
    let t := fieldAt (it.word 0).toNat 16 4
    let s := s.serveItem it
    if it.words.length ≠ 2 || it.plotTen.isNone then s.countXbad t
    else
      let n := (it.word 1).toNat
      s.modPlot t fun p => { p with wakeAt := if n = 0 then none else some (s.cal.tick + n) }

def execPlotWakeRequest (s : State) : Res := onField s State.plotAsks

/-- PLOT-WAKE-DUE: the first tick at or after the target (R209). In RESTING the WAKE follows the REST. DESIGN CHOICE (log 90): a
request that falls due in RESTING prints no `^PLOT t WAKE`, which R209 names in its LATCH case only. -/
def State.plotDue (s : State) (t : Nat) : State :=
  match (s.plotAt t).wakeAt with
  | none => s
  | some k =>
    if s.cal.tick < k then s
    else
      let s := s.modPlot t fun p => { p with wakeAt := none }
      match s.sys.kst with
      | .latch => (s.notice ("^PLOT " ++ decText t ++ " WAKE")).askWake (.plot t)
      | .resting => s.askWake (.plot t)
      | _ => s

def execPlotWakeDue (t : Ten) (s : State) : Res := onLatch s fun s => s.plotDue t.val

end Sys2Proof.Machine
end

