-- ==== Sys2Proof/Machine/FieldFall.lean ====
section
/-! DEFINITION. The field goes down: field reset (R40, R45, R89, R90, R92), the handles that it hits and their replay
(R244, R268, R274, R276, R281), field loss (R47 to R49), the field restart (R40, R220), a WAKE that fails (R43, R79), and
the steps of REST (R44 to R46, R210), and the writes of the furrow as commands (R261, R373, R740). -/

namespace Sys2Proof.Machine

/-! ### Field reset -/

def Fn.isField : Fn → Bool
  | .field => true
  | .sower => true
  | .granary => true
  | .baysRow _ => true
  | .envelope => true
  | .ledger => true
  | .tenancy => true
  | .plot _ => true
  | _ => false

/-- A hinge mailbox forced FREE; its words stay (R61, R63). -/
def Mailbox.freed (b : Mailbox) : Mailbox := { words := b.words }

/-- Both mailboxes become FREE, and no transfer of a field core is held (R45). DEDUCED (log 100): a transfer of LC that waits
stays held until its grant, which completes it in latch state, as an access that loses its field meanwhile does (R51, R57, R673). -/
def Hinge.freed (x : Hinge) : Hinge :=
  { x with l2f := x.l2f.freed, f2l := x.f2l.freed, asking := [], beat := Vector.replicate 6 0
           waiting := (x.waiting.filter fun y => y.core = 6).map fun y => { y with dark := true } }

/-- A field thread at field reset release: TIDs 0..5 run on their cores from address 0 (R612). -/
def Thread.fieldCold (up : Bool) (t : Nat) : Thread :=
  if up && t < 6 then { st := .running, resumed := true, snap := bootSnap } else {}

/-- An LC thread whose item goes to a field queue: it is discarded at its last word (R580). -/
def Thread.cutOff (h : Thread) : Thread :=
  match h.openItem with
  | some o => if fieldQ o.q then { h with openItem := some { o with dropped := true } } else h
  | none => h

/-- An LC thread that waits for a place of a field queue waits no longer (R580). -/
def Thread.unblocked (h : Thread) : Thread :=
  match h.wait with
  | some w =>
    if fieldQ w.q then
      { h with st := if h.st = .waitspace then .ready else h.st
               openItem := some { q := w.q, words := [], flushed := none, dropped := true } }
    else h
  | none => h

/-- Claims that stay: those of LC and of hardware for the latch queues, but for the notifications of the mailboxes and the items
of the spill. -/
def claimStays (p : Nat × Claimant) : Bool :=
  !fieldQ p.1 && (match p.2 with
    | .thread t => 120 ≤ t
    | .note _ => false
    | .spilled => false
    | _ => true)

/-- A queue's latch-domain settings, and its statistics begun anew: HIGH is the depth that it has (R645, R646). -/
def Queue.cleared (q : Queue) (depth : Nat) : Queue := { limit := q.limit, urg := q.urg, group := q.group, high := depth }

/-- LC's core with the field-domain counts and selections at their reset values. -/
def Core.cleared (c : Core) : Core :=
  { run := c.run, standby := c.standby, runStamp := c.runStamp, sbStamp := c.sbStamp, stopped := c.stopped }

/-- The Sower's field part is empty, and its ports hold their reset values (R612, R646). -/
def Sower.fieldReset (up : Bool) (w : Sower) : Sower :=
  { store := w.store.filter fun it => !fieldQ it.q, nextAge := w.nextAge
    threads := Vector.ofFn fun i =>
      if i.val < 120 then Thread.fieldCold up i.val else (vget w.threads i.val).cutOff.unblocked
    queues := Vector.ofFn fun i => if i.val < 56 then {}
      else (vget w.queues i.val).cleared (w.store.filter fun it => it.q = i.val).length
    cores := Vector.ofFn fun i => if i.val < 6 then { run := if up then some i.val else none } else (vget w.cores i.val).cleared
    stamp := w.stamp, claims := w.claims.filter claimStays, weights := Vector.replicate 8 16, ptrL := w.ptrL, defL := w.defL
    dropped := satAdd 65535 w.dropped (w.claims.filter fun p => fieldQ p.1 && (match p.2 with
      | .hw _ => true
      | _ => false)).length
    rejL := w.rejL, flushedL := w.flushedL, spill := []
    lcxTid := w.lcxTid, lcxWord := w.lcxWord }

/-- The channels' gates are off, and no bay item is left (R417). -/
def State.baysDark (s : State) : State :=
  s.modBays fun x =>
    { x with bay := Vector.ofFn fun i =>
               (vget x.bay i.val).turnOff (if s.locked i.val then .locked else s.restingState i.val)
             work := [] }

/-- The field domain loses its state: what field reset leaves (R15, R45, R89, R90, R92, R399). -/
def State.fieldReset (s : State) : State :=
  let s := s.modSys fun y =>
    { y with fieldUp := false, clamps := 0xFFF#12, recentF2 := false, spillStop := 0#6, hbStop := 0#6 }
  let s := { s with
    up := s.up.filter fun f => !f.isField, down := s.down.filter fun f => !f.isField
    hng := s.hng.freed, sow := s.sow.fieldReset false, gran := Granary.cold, env := {}, spi := {}, fans := {}
    tags := { ovr := s.tags.ovr }, mems := { s.mems with data := [], plotRam := [] }
    cal := { s.cal with pend := if fieldQ s.cal.tickQ then none else s.cal.pend }
    led := { s.led with marks := [], served := none }
    hnd := { s.hnd with opens := s.hnd.opens.map fun (h : Handle) => { h with item := none } } }
  s.baysDark

/-- FIELD_EN falls and SCLK switches to CLKREF: the state becomes LATCH (R45, R47). -/
def State.fieldOff (s : State) : State :=
  s.fieldReset.modSys fun y =>
    { y with fieldEn := false, fieldPg := false, enHold := true, fastClk := false, pll := .off, kst := .latch, restStep := 0
             wakeCause := [] }

/-! ### Handles hit, and their replay -/

/-- A handle that replay does not run again (R231, R281). -/
def State.replayFails (s : State) (h : Handle) (reason : Nat) : State :=
  (s.modOpen h.kk h.seq fun h => { h with replayed := true, waiting := false }).retire h.kk h.seq (complFailed reason true)

/-- The handle as its copy records it (R274). -/
def Handle.copied (h : Handle) : Handle :=
  { h with replays := if h.hit = .counted then min 3 (h.replays + 1) else h.replays
           replayed := true, waiting := false, hit := .none, copying := true, running := false, delivered := false
           left := [], skip := 0#96, claim := 0, buf := none, item := none }

/-- Phase of the handle's newest record asked for. -/
def Handle.newestPhase (h : Handle) : RecPhase :=
  if h.committing then .committed else if 0 < h.stepReq then .step else .accepted

/-- The copy of the handle's newest record is asked for, for the hit that `h` carries (R274). -/
def State.replayCopy (s : State) (h : Handle) : State :=
  let s := s.modOpen h.kk h.seq fun x => { x with hit := h.hit }.copied
  s.request h.kk h.seq h.newestPhase

/-- Replay of one handle that a fault has hit (R211, R274). -/
def State.replay (s : State) (h : Handle) : State :=
  if h.hit = .counted && h.replays = 3 then s.replayFails h 0x81
  else match h.form with
    | .x _ _ _ false => s.replayFails h 0x82
    | _ => s.replayCopy h

/-- The handle is open, with an open outcome: its ACCEPTED record is durable, which for a FACE form comes before it is printed
(R226, R227, R268). -/
def Handle.isLive (h : Handle) : Bool := h.isOpen && h.compl.isNone && !h.cancelled

/-- The worse of two hits. -/
def Hit.worse : Hit → Hit → Hit
  | .counted, _ => .counted
  | _, .counted => .counted
  | .free, _ => .free
  | _, x => x

/-- A fault hits the handle; `up` says that the field reset had been released (R268). A form that needs the field waits
for the next field start, another replays at once (R276). -/
def State.hitHandle (up : Bool) (kind : Hit) (s : State) (h : Handle) : State :=
  if !h.isLive then s
  else if h.form.needsField then
    if h.waiting && !up then s
    else if !up && !h.running then s.modOpen h.kk h.seq fun h => { h with waiting := true }
    else s.modOpen h.kk h.seq fun h =>
      { h with waiting := true, hit := h.hit.worse kind, running := false, delivered := false, left := [], claim := 0, buf := none, item := none }
  else s.replay { h with hit := kind }

/-- The shelf forms among handles hit. -/
def Handle.shelf (h : Handle) : Bool := h.isLive && (h.form = .wake || h.form = .rest)

/-- Where WAKE and REST handles meet in one replay, all but the one accepted last are superseded, unless the limit ends
them first (R274, R281). -/
def State.supersede (s : State) (hit : Handle → Hit) : State :=
  let l := s.hnd.opens.filter fun h => h.shelf && hit h ≠ .none
  if l.any (fun h => h.form = .wake) && l.any (fun h => h.form = .rest) then
    l.dropLast.foldl (fun s h => s.replayFails h (if hit h = .counted ∧ h.replays = 3 then 0x81 else 0x83)) s
  else s

/-- Every open handle is hit (R268, R274 to R276, R281). -/
def State.hitAll (s : State) (up : Bool) (kind : Hit) : State :=
  let s := s.supersede fun h => if up || h.running || !h.form.needsField then kind else .none
  s.hnd.opens.foldl (fun s h => match s.openAt h.kk h.seq with
    | some h => State.hitHandle up kind s h
    | none => s) s

/-! ### Field loss and field restart -/

/-- A fault of class F3 (R47 to R49, R699): `code` for LAST_LOSS, and its word. -/
def State.fieldLost (s : State) (code : Nat) (word : String) : State :=
  let up := s.sys.fieldUp
  let s := (((s.loseField 2).fieldOff).modSys fun y => { y with lastLoss := code }).notice ("^FIELD LOST " ++ word)
  (s.hitAll up .counted).runDue

/-- The field is in operation: WAKING after step 3, FIELD, RESTING before step 6 (R47). -/
def State.fieldLive (s : State) : Bool := s.sys.fieldEn && s.sys.pll = .locked && !s.sys.inReset

def execFieldLostPg (s : State) : Res := goOn (if s.fieldLive then s.fieldLost 1 "PG" else s)
def execFieldLostPll (s : State) : Res := goOn (if s.fieldLive then s.fieldLost 2 "PLL" else s)

/-- The field restart of R40: power and clock stay; `cause` of R69, `kind` of hit. -/
def State.fieldRestart (s : State) (cause : Nat) (kind : Hit) : State :=
  let s := (s.loseField 3).fieldReset.modSys fun y =>
    { y with kst := .waking, restStep := 0, wakeCause := [], nextFieldCause := cause }
  (s.hitAll true kind).runDue

/-- RESET FIELD (R220): the field restart follows once its line is queued. -/
def execResetField (q : Src) (s : State) : Res :=
  verb s q (.resetField q) fun s =>
    let s := s.reply q "RESET FIELD"
    if s.linesHeld q.ses.val then s.later q.ses.val .resetField else s.fieldRestart 2 .free

/-- What waited for the result line of session `k` follows now that the line is queued (R189, R214, R220, R337). DESIGN CHOICE
(log 90): a RESET FIELD whose result is queued only when the keeper is no longer in FIELD restarts nothing. -/
def State.dueRun (s : State) (k : Nat) : Due → State
  | .dump => s
  | .resetField => if s.inField then s.fieldRestart 2 .free else s
  | .close => if k < 16 then s.endSession k else s
  | .opened => s.modSes k fun x => { x with openTick := s.cal.tick }

/-- What waited for a result line to be queued follows, once that line is held no longer. -/
def State.dueRuns (s : State) : State :=
  s.sys.due.foldl (fun s p =>
    if s.answerHeld p.1 then s
    else (s.modSys fun y => { y with due := dropOnce (fun x => x = p) y.due }).dueRun p.1 p.2) s

/-! ### A WAKE that fails (R43, R79, R244) -/

/-- The handle was accepted for the WAKE under way. -/
def State.wakes (s : State) (h : Handle) : Bool := h.isLive && !h.waiting && !h.copying && h.form.needsField && !s.behindRest h

/-- The WAKE's handles complete FAILED: a WAKE with its own reason, the others with the common one. -/
def State.wakeFails (s : State) (own common : Nat) : State :=
  let s := s.hnd.opens.foldl (fun s h => match s.openAt h.kk h.seq with
    | some h => if s.wakes h then s.retire h.kk h.seq (complFailed (if h.form = .wake then own else common) false) else s
    | none => s) s
  s.fieldOff.runDue

/-- FIELD-PG-TIMEOUT: the 50 ms window ends before step 3 (R43). -/
def execFieldPgTimeout (s : State) : Res :=
  goOn (if s.sys.kst = .waking && s.sys.fieldEn && s.sys.pll ≠ .locked then s.wakeFails 1 0x85 else s)

/-- PLL-NO-LOCK (R27, R43). -/
def execPllNoLock (s : State) : Res :=
  goOn (if s.sys.kst = .waking && s.sys.pll = .locking then s.wakeFails 2 0x86 else s)

/-! ### REST (R44 to R46) -/

/-- The REST that may begin now: its item, which stands behind every item of the shelf flow, can be dispatched (R44, R620,
log 52). -/
def State.restReady (s : State) : Option Handle :=
  match s.hnd.opens.find? fun h => h.form = .rest && h.fresh with
  | some h => if s.restMay h && (s.takeForm h).isSome then some h else none
  | none => none

/-- REST-DISPATCH: steps 1 and 2; step 3 begins once no bay is STOPPING (R45). -/
def State.restBegins (s : State) (h : Handle) : State :=
  let s := (s.takeForm h).getD s
  let s := ((s.begin h).modSys fun y => { y with kst := .resting, restStep := 2 }).showTags
  let s := s.modEnv fun e => { e with waiting := [], placed := [], replanDue := false }
  let s := (List.range 96).foldl (fun s n => match (s.bayAt n).st with
    | .starting => s.bayStop n
    | .on => s.bayStop n
    | .held => s.bayStop n
    | .tripped => s.bayStop n
    | _ => s) s
  s.settle

def execRestDispatch (s : State) : Res :=
  onField s fun s => match s.restReady with
    | some h => s.restBegins h
    | none => s

/-- Every thread of the plot is idle, or stopped (R45, R46). -/
def State.plotIdle (s : State) (t : Nat) : Bool := (plotTids t).all fun x => (s.th x).st = .idle || (s.th x).st = .stopped

/-- Step 3 of a REST is under way. -/
def State.restWaits (s : State) : Bool := s.sys.kst = .resting && s.sys.restStep = 3

/-- The REST handle that runs. -/
def State.restHandle (s : State) : Option Handle := s.hnd.opens.find? fun h => h.form = .rest && h.running && h.compl.isNone

/-- X handles still open at step 5 (R210): those that have committed, since an uncommitted one holds back the REST where it
was accepted before it, and is held behind it where it was accepted later (R135). -/
def State.failXs (s : State) : State :=
  s.hnd.opens.foldl (fun s h =>
    if h.form.xTen.isSome && h.committing && h.compl.isNone then
      s.retire h.kk h.seq { complFailed 0 false with text := "REST" }
    else s) s

/-- Steps 5 to 7, once the COMMITTED record of step 5 is durable (R45, R140, R261). -/
def State.restOff (s : State) : State :=
  let h := s.restHandle
  let s := s.failXs.fieldOff
  let s := match h with
    | some h => s.retire h.kk h.seq (complDone [] false)
    | none => s
  s.runDue

/-- The checkpoint of step 4 is in the furrow: the REST commits (R45, R140). -/
def State.restCommits (s : State) : State :=
  if s.sys.kst = .resting && s.sys.restStep = 4 && !s.headerDue then
    let s := s.modSys fun y => { y with restStep := 5 }
    match s.restHandle with
    | some h => s.reqCommit h.kk h.seq
    | none => s
  else s

/-- The REST goes on where a write that it waited for has ended. -/
def State.restGoes (s : State) : State :=
  let s := s.restCommits
  if s.sys.kst = .resting && s.sys.restStep = 5 && s.restHandle.all fun h => h.phase = .committed then s.restOff else s

/-- Step 4: the ledger closes its open interval early (R45, R372). -/
def State.restEnds (s : State) : State := ((s.sumsEnd.endEarly).modSys fun y => { y with restStep := 4 }).restGoes

def execRestPlotsIdle (s : State) : Res :=
  onField s fun s => if s.restWaits && s.loadedPlots.all s.plotIdle then s.restEnds else s

/-- A plot that is not idle when step 3's limit ends is stopped (R46). -/
def State.stopBusy (s : State) (t : Nat) : State :=
  if s.plotIdle t then s
  else
    let s := (plotTids t).foldl (fun s x => s.stopThread x 6) s
    (s.modPlot t fun p => { p with st := .stopped }).notice ("^PLOT " ++ decText t ++ " STOPPED REST")

def execRestPlotTimeout (s : State) : Res :=
  onField s fun s => if s.restWaits then (s.loadedPlots.foldl State.stopBusy s).restEnds else s

/-! ### Writes of the furrow as commands -/

/-- RECORD-DURABLE (R261). -/
def execRecordDurable (verified : Bool) (s : State) : Res :=
  goOn (if s.sys.inReset then s else (s.recordEnds verified).restGoes)

/-- FURROW-OP-DONE. -/
def execFurrowOpDone (verified : Bool) (s : State) : Res :=
  goOn (if s.sys.inReset then s else (s.furrowDone verified).restGoes)

/-- CHECKPOINT-DURABLE (R373). -/
def execCheckpointDurable (verified : Bool) (s : State) : Res := goOn (s.checkpointDone verified).restGoes

end Sys2Proof.Machine
end

