-- ==== Sys2Proof/Machine/Ring.lean ====
section
/-! DEFINITION. The headland ring: the receive store and HOLD (R311 to R313), forwarding and taking frames (R301 to
R305), insertion (R308 to R310, R329), enumeration (R314 to R321), breaks (R322 to R326), and the RING verbs (R212). -/

namespace Sys2Proof.Machine

/-! ### Latch functions in their order -/

/-- The latch functions in the order of R76. -/
def latchOrder : List Fn := [.line, .face, .seedbank, .furrow, .calendar, .ring, .replay, .keys]

/-- Function `f` is the next of its order (R76): it has neither announced nor printed DOWN, and all before it have. -/
def State.turnOf (s : State) (order : List Fn) (f : Fn) : Bool :=
  !s.isUp f && !s.down.contains f && (order.takeWhile fun g => g ≠ f).all fun g => s.isUp g || s.down.contains g

/-- The latch function is the next to announce (R73, R76). -/
def State.latchTurn (s : State) (f : Fn) : Bool := !s.sys.inReset && s.turnOf latchOrder f

/-! ### Symbols, the receive store and HOLD -/

/-- A control symbol (R295). -/
def ctlSym (code : Nat) (mark : Bool) : BitVec 9 := BitVec.ofNat 9 (256 + code + 16 * bitNat mark)

/-- A data symbol. -/
def dataSym (v : Nat) : BitVec 9 := BitVec.ofNat 9 (v % 256)

/-- ABT and IDLE (R295). -/
def symAbt : BitVec 9 := ctlSym 5 false
def symIdle : BitVec 9 := ctlSym 6 false

/-- The level of the line at rest (R292). -/
def lineRest : Bool := true

/-- The 11 bits of a symbol in the order in which they are sent: a start bit of 0, D0 to D7, the control flag, a stop bit
of 1 (R292). -/
def symBits (x : BitVec 9) : List Bool := false :: (((List.range 9).map fun i => x.getLsbD i) ++ [lineRest])

/-- The symbol that 11 bits carry; none where the stop bit is 0, a framing error (R292, R296). -/
def symRead (l : List Bool) : Option (BitVec 9) :=
  if l.length = 11 ∧ l.head? = some false ∧ l.getLast? = some true then some (mapOf 9 ((List.range 9).filter fun i => l.getD (i + 1) false))
  else none

/-- The level that HL_BYP drives (R291): low in reset and while BYPASS is 1, high otherwise; none while VSTBY is absent. Whether a
VSTBY that is low is absent no command tells: that is free (log 115). -/
def State.hlByp (s : State) : Option Bool :=
  if s.sys.vstbyLow && s.freeCheck.1 then none else some (!s.sys.inReset && !s.ring.bypass)

/-- A code of the control symbols (R295). -/
def ctlCode (x : BitVec 9) : Nat := x.toNat % 16

/-- A start code: SOL, SOB, SOR, ENUM, BRK or JOIN (R295). -/
def symStarts (x : BitVec 9) : Bool := x.getLsbD 8 && [1, 2, 3, 7, 8, 9].contains (ctlCode x)

/-- A symbol with a good stop bit is a framing error in a frame or outside one, by its code alone (R296): a control code that is not
in the table, the head mark on a code other than SOL, SOB and SOR, a data symbol outside a frame, a start code or IDLE inside one. Its
place in a frame tells the others (`textErrors`). -/
def symWrong (inFrame : Bool) (x : BitVec 9) : Bool :=
  if !x.getLsbD 8 then !inFrame
  else !(1 ≤ ctlCode x && ctlCode x ≤ 9) || decide (32 ≤ x.toNat % 256) || (x.getLsbD 4 && 3 < ctlCode x)
    || (inFrame && (symStarts x || ctlCode x = 6))

/-- The symbols of a line (R298). -/
def lineSyms (code : Nat) (mark : Bool) (dest src ses : Nat) (text : String) : List (BitVec 9) :=
  [ctlSym code mark, dataSym dest, dataSym src, dataSym ses] ++ (asciiOf text).map (fun b => b.setWidth 9) ++ [ctlSym 4 false]

/-- The symbols of a frame (R298). -/
def Frame.syms : Frame → List (BitVec 9)
  | .sol m d a b t => lineSyms 1 m d a b t
  | .sob m d a b t => lineSyms 2 m d a b t
  | .sor m d a b t => lineSyms 3 m d a b t
  | .enum p n f => [ctlSym 7 false, dataSym p, dataSym n, dataSym f, ctlSym 4 false]
  | .brk r f h => [ctlSym 8 false, dataSym r, dataSym f, dataSym h, ctlSym 4 false]
  | .join => [ctlSym 9 false, ctlSym 4 false]
  | .raw l => l

/-- Symbols that the receive store holds (R311). -/
def Ring.fill (r : Ring) : Nat := r.rx.length + (r.fwd.map fun f => f.held - f.shared).sum

/-- HOLD is asserted at 48 symbols and released at 16 or fewer (R311). -/
def Ring.holdPoints (r : Ring) : Ring :=
  if 48 ≤ r.fill then { r with holdOut := true } else if r.fill ≤ 16 then { r with holdOut := false } else r

/-- The last `left` symbols of a frame taken in wait for LC. -/
def Ring.storeTaken (r : Ring) (f : Frame) (left : Nat) : Ring :=
  let n := min left (64 - r.fill)
  ({ r with rx := r.rx ++ f.syms.drop (f.size - n) } : Ring).holdPoints

/-- A broadcast is taken in and forwarded: its last `left` symbols wait for LC and to be sent, each standing once in the store
(R301, R311). -/
def Ring.storeCopied (r : Ring) (f : Frame) (left : Nat) : Ring :=
  let n := min left (64 - r.fill)
  { (r.storeTaken f left) with fwd := r.fwd ++ [{ frame := f, held := n, shared := n, ahead := r.rx.length }] }

/-- How many symbols of an enumeration, join or break frame the receive store still holds when the command ends: a free
value, since no time passes in the model (R311; log 56). -/
def State.leftOver (s : State) : Nat × State :=
  let d := s.draw
  ((Config.freeWord d.1).toNat % 65, d.2)

/-- A frame is forwarded; `left` of its symbols are still in the store (R305, R311). -/
def Ring.forward (r : Ring) (f : Frame) (left : Nat) : Ring :=
  ({ r with fwd := r.fwd ++ [{ frame := f, held := min (min left f.size) (64 - r.fill) }] } : Ring).holdPoints

/-- ABT is sent (R296). -/
def Ring.sendAbt (r : Ring) : Ring := { r with aborts := r.aborts + 1, ctlOut := some symAbt, abtDue := false }

/-- A frame that has been forwarded in part is ended with ABT (R296), once the hold input is released (R312). -/
def Ring.abort (r : Ring) (forwarded : Bool) : Ring :=
  if forwarded then (if r.holdIn then { r with abtDue := true } else r.sendAbt) else r

/-- Framing errors of `n` symbols, which are dropped; a frame that has been forwarded in part is ended with ABT (R296). -/
def Ring.framing (r : Ring) (n : Nat) (forwarded : Bool) : Ring :=
  { r with dropped := (r.dropped + n) % pow32 }.abort forwarded

/-- RING-FRAMING-ERROR: a symbol with a stop bit of 0 (`symRead`), or one that `symWrong` names (R296). -/
def execRingFramingError (forwarded : Bool) (s : State) : Res := onLatch s fun s => s.modRing fun r => r.framing 1 forwarded

/-- RING-ABT: the frame in progress is void, and what has been forwarded of it is ended with ABT (R298). -/
def execRingAbt (forwarded : Bool) (s : State) : Res :=
  onLatch s fun s => s.modRing fun r => r.abort forwarded

/-- RING-OVERRUN: a symbol arrives at a full receive store (R313). -/
def execRingOverrun (forwarded : Bool) (s : State) : Res :=
  onLatch s fun s => s.modRing fun r =>
    if r.fill < 64 then r else { r with overrun := satInc 65535 r.overrun }.abort forwarded

/-- The hold input changes; an ABT that it held back goes out at its release (R312). -/
def Ring.setHold (r : Ring) (hold : Bool) : Ring :=
  if !hold && r.abtDue then { r.sendAbt with holdIn := hold } else { r with holdIn := hold }

/-- RING-HOLD-INPUT (R312). -/
def execRingHoldInput (hold : Bool) (s : State) : Res := onLatch s fun s => s.modRing fun r => r.setHold hold

/-- LC has read the oldest symbol of the store: one of this frame is held for sending alone from then on (R311). -/
def Fwd.read (f : Fwd) : Fwd := if 0 < f.ahead then { f with ahead := f.ahead - 1 } else { f with shared := f.shared - 1 }

/-- LC reads RNG_RX: the oldest symbol leaves the store, but one that still waits to be sent stays in it (R311). -/
def Ring.readRx (r : Ring) : Ring :=
  if r.rx.isEmpty then r else ({ r with rx := r.rx.drop 1, fwd := r.fwd.map Fwd.read } : Ring).holdPoints

/-- RNG-RX-READ. -/
def execRngRxRead (s : State) : Res := onLatch s fun s => s.modRing Ring.readRx

/-! ### Insertion -/

/-- Frames that wait for room, from the `i`th, enter the insertion queue, those of each session in their order (R310). -/
def State.takeIn : Nat → Nat → State → State
  | 0, _, s => s
  | n + 1, i, s =>
    match s.ring.wait[i]? with
    | none => s
    | some w =>
      if s.ring.takes w.frame && !(s.ring.wait.take i).any fun x => x.frame.session = w.frame.session then
        State.takeIn n i ((s.modRing fun r => { r with wait := r.wait.eraseIdx i, insq := r.insq ++ [w.frame] }).lineQueued w.done)
      else State.takeIn n (i + 1) s

/-- Room may have appeared in the insertion queue: frames that wait enter it, and what waited for their lines follows
(R189, R214, R220, R228, R310, R337). -/
def State.ringRoom (s : State) : State := (State.takeIn s.ring.wait.length 0 s).dueRuns

/-- A write of RNG_TX (R310, R329): a whole frame, ended by EOL, becomes eligible. A write without room, and one that
follows the end of a frame of more than 205 symbols, discards the frame being written, up to its EOL (log 59). -/
def Ring.writeTx (r : Ring) (sym : BitVec 9) : Ring :=
  let eol := sym = ctlSym 4 false
  if r.discard then { r with discard := !eol }
  else if 2048 ≤ r.insUsed || r.build.getLast? = some (ctlSym 4 false) then { r with build := [], discard := !eol }
  else if !eol || 205 < r.build.length + 1 then { r with build := r.build ++ [sym] }
  else { r with build := [], insq := r.insq ++ [.raw (r.build ++ [sym])] }

/-- LC writes a symbol, or CANCEL, which discards the frame being written (R329). -/
def State.writeTx (s : State) (sym : BitVec 9) : State := (s.modRing fun r => r.writeTx sym).ringRoom
def State.cancelTx (s : State) : State := (s.modRing fun r => { r with build := [], discard := false }).ringRoom

/-- RNG-TX-SYMBOL. -/
def execRngTxSymbol (sym : BitVec 9) (s : State) : Res := onLatch s fun s => s.writeTx sym

/-- RNG-TX-CANCEL. -/
def execRngTxCancel (s : State) : Res := onLatch s State.cancelTx

/-- The line as the keeper with number `n` puts it on the ring: SRC, and the DEST of a broadcast, are the number that it holds now
(R299, R300). -/
def Frame.sentBy (n : Nat) : Frame → Frame
  | .sol m d _ b t => .sol m d n b t
  | .sob m _ _ b t => .sob m n n b t
  | .sor m d _ b t => .sor m d n b t
  | f => f

/-- The local side's next line is sent, with the number that the keeper holds now: its own line may have been queued before a
pass changed that (R303, log 110). -/
def State.sendLocal (s : State) (f : Frame) : State :=
  (s.modRing fun r =>
    { r with insq := r.insq.drop 1, tx := some (f.sentBy (r.number.getD 0)), lastLocal := some true }).ringRoom

/-- Lines that the keeper may send: none while it holds no number (R303). -/
def Ring.ours (r : Ring) : List Frame := if r.number.isSome then r.insq else []

/-- A line, not a frame of the ring's own (R297, R309). -/
def Frame.isLine : Frame → Bool
  | .enum _ _ _ => false
  | .brk _ _ _ => false
  | .join => false
  | _ => true

/-- The next forwarded frame is sent; the store no longer holds it for sending. -/
def Ring.sendForward (r : Ring) (f : Fwd) : Ring :=
  ({ r with fwd := r.fwd.drop 1, tx := some f.frame
            lastLocal := if f.frame.isLine then some false else r.lastLocal } : Ring).holdPoints

/-- The transmitter chooses at a frame boundary (R309). Where no line has been sent yet, both sides qualify, and the
choice is free (log 8). -/
def State.txStart (s : State) : State :=
  if s.ring.holdIn then s
  else match s.ring.own, s.ring.fwd, s.ring.ours with
    | f :: l, _, _ => s.modRing fun r => { r with own := l, tx := some f }
    | [], f :: _, [] => s.modRing fun r => r.sendForward f
    | [], [], g :: _ => s.sendLocal g
    | [], f :: _, g :: _ =>
      match s.ring.lastLocal with
      | some true => s.modRing fun r => r.sendForward f
      | some false => s.sendLocal g
      | none =>
        let d := s.draw
        if (Config.freeWord d.1).getLsbD 0 then d.2.modRing fun r => r.sendForward f else d.2.sendLocal g
    | [], [], [] => s

/-- RING-TX-FRAME-START. -/
def execRingTxFrameStart (s : State) : Res := onLatch s State.txStart

/-- IDLE-SYMBOL: between frames, with the hold input released (R294, R312). -/
def execIdleSymbol (s : State) : Res :=
  onLatch s fun s => s.modRing fun r =>
    if r.holdIn || !r.own.isEmpty || !r.fwd.isEmpty || !r.ours.isEmpty then r
    else { r with idles := r.idles + 1, ctlOut := some symIdle }

/-- An own frame waits to be sent first (R309). -/
def State.sendOwn (s : State) (f : Frame) : State := s.modRing fun r => { r with own := r.own ++ [f] }

/-! ### Enumeration -/

/-- The head sends an enumeration pass (R315); `n` tells the first try from the second (R318). -/
def State.sendPass (s : State) (n : Nat) : State :=
  let p := (s.ring.pass + 1) % 256
  (s.modRing fun r => { r with pass := p, passOut := true, passTry := n }).sendOwn (.enum p 1 0)

/-- A pass, where none is out. -/
def State.startPass (s : State) : State := if s.sys.head && !s.ring.passOut then s.sendPass 1 else s

/-- RNG-ENUM-WRITE: ignored on a member. -/
def execRngEnumWrite (s : State) : Res := onLatch s State.startPass

/-- The position as RING and the notices print it. -/
def posText : Option Nat → String
  | some n => decText n
  | none => "?"

/-- A break or an OVERFLOW of the head that came before `^READY RING` and is followed by another state before it: its notice is
printed now (R317, R325). DEDUCED (log 91): that of the state which stands when RING announces follows `^READY RING` (R320). -/
def State.tellEarly (s : State) : State :=
  if s.isUp .ring then s
  else match s.ring.st with
    | .broken => s.notice ("^RING BROKEN AFTER " ++ posText (if s.ring.known then some s.ring.after else none))
    | .overflow => s.notice "^RING OVERFLOW"
    | _ => s

/-- The head's ring is broken after position `n` (R324, R325); the notice comes with the status or a new position, and follows
`^READY RING` where that is still to come (R320). -/
def State.breaks (s : State) (n : Option Nat) : State :=
  let old := if s.ring.known then some s.ring.after else none
  if s.ring.st = .broken && old = n then s
  else
    let s := s.tellEarly.modRing fun r => { r with st := .broken, known := n.isSome, after := n.getD 0, event := true }
    if s.isUp .ring then s.notice ("^RING BROKEN AFTER " ++ posText n) else s

/-- `k - d`, where the count k of the last returned pass is known and reaches `d` (R324). -/
def Ring.backFrom (r : Ring) (d : Nat) : Option Nat := if r.count = 0 || r.count < d then none else some (r.count - d)

/-- A break report at the head (R324). -/
def Ring.reported (r : Ring) (reporter : Nat) (numbered : Bool) (hops : Nat) : Option Nat :=
  if numbered then (if 1 ≤ reporter then some (reporter - 1) else none) else r.backFrom (hops + 2)

/-- ENUM-PASS-TIMEOUT (R318). -/
def execEnumPassTimeout (s : State) : Res :=
  onLatch s fun s =>
    if !s.sys.head || !s.ring.passOut then s
    else if s.ring.passTry = 1 then s.sendPass 2
    else
      let s := s.modRing fun r => { r with passOut := false }
      if s.ring.upDead then s.breaks (s.ring.backFrom 1)
      else if s.ring.st = .broken then s
      else s.breaks none

/-- ENUM-BROKEN-RETRY (R315). -/
def execEnumBrokenRetry (s : State) : Res := onLatch s fun s => if s.ring.st = .broken then s.startPass else s

/-- A pass returns to the head (R317, R318, R325): of either try; any other is removed. -/
def State.passReturns (s : State) (pass next : Nat) (full ovr : Bool) : State :=
  if !s.ring.passOut || !(pass = s.ring.pass || (s.ring.passTry = 2 && (pass + 1) % 256 = s.ring.pass)) then s
  else
    let k := if full then 256 else next
    let whole := s.ring.st = .broken
    let s := s.tellEarly.modRing fun r => { r with passOut := false, count := k, st := if ovr then .overflow else .ok }
    let s := if whole then s.notice ("^RING WHOLE COUNT " ++ decText k) else s
    if ovr && s.isUp .ring then s.notice "^RING OVERFLOW" else s

/-- The keeper's number becomes `n` (R109, R320); the first number since cold start is announced by `^READY RING n`, unless
RING has announced already (R78). Where the upstream segment is dead, the break position changes with it (R326, R328). -/
def State.setNumber (s : State) (n : Option Nat) : State :=
  if s.ring.number = n then s
  else
    let told := s.ring.wasNumbered || s.isUp .ring
    let s := s.modRing fun r =>
      { r with number := n, wasNumbered := r.wasNumbered || n.isSome, event := r.event || (r.upDead && !s.sys.head) }
    let s := (List.range 16).foldl (fun s k => if k ≠ 0 && (s.sesAt k).isOpen then s.endSession k else s) s
    match n with
    | some m => if told then s.notice ("^RING NUMBER " ++ decText m) else s
    | none => s

/-- A member acts on an enumeration frame and forwards it with its changed fields (R316). -/
def State.enumerate (s : State) (pass next : Nat) (full ovr : Bool) (left : Nat) : State :=
  if !full then
    let s := (s.modRing fun r => { r with st := .ok, joining := false }).setNumber (some next)
    let f := if next = 255 then Frame.enum pass 0 (1 + 2 * bitNat ovr) else Frame.enum pass (next + 1) (2 * bitNat ovr)
    s.modRing fun r => r.forward f left
  else
    let s := (s.modRing fun r => { r with st := .overflow }).setNumber none
    s.modRing fun r => r.forward (.enum pass next 3) left

/-- RING-ENUM-FRAME. -/
def execRingEnumFrame (pass next : Byte) (full ovr : Bool) (s : State) : Res :=
  onLatch s fun s =>
    let d := s.leftOver
    let s := d.2
    if s.sys.head then
      (s.modRing fun r => r.storeTaken (.enum pass.toNat next.toNat (bitNat full + 2 * bitNat ovr)) d.1).passReturns
        pass.toNat next.toNat full ovr
    else s.enumerate pass.toNat next.toNat full ovr d.1

/-- RING-JOIN-FRAME: forwarded, or taken in by the head (R304, R315). -/
def execRingJoinFrame (s : State) : Res :=
  onLatch s fun s =>
    let d := s.leftOver
    let s := d.2
    if s.sys.head then
      (s.modRing fun r => r.storeTaken .join d.1).startPass
    else s.modRing fun r => r.forward .join d.1

/-- JOIN-REPEAT: a keeper that announced ALONE asks to join until a pass numbers it (R321). -/
def execJoinRepeat (s : State) : Res :=
  onLatch s fun s => if s.ring.joining then s.sendOwn .join else s

/-! ### Breaks -/

/-- A keeper with a dead upstream segment sends a break report (R323). -/
def State.report (s : State) : State := s.sendOwn (.brk (s.ring.number.getD 0) (bitNat s.ring.number.isSome) 0)

/-- UPSTREAM-DEAD: only while the keeper's own HOLD is released (R322 to R324); a member then reads BROKEN, which sets EVENT
(R326, R328). AFTER and KNOWN of a member stay 0: DESIGN CHOICE (log 111), since the table of RNG_BREAK gives AFTER as the n that
the head finds under R324. -/
def execUpstreamDead (s : State) : Res :=
  onLatch s fun s =>
    if s.ring.upDead || s.ring.holdOut then s
    else
      let s := (s.modRing fun r => { r with upDead := true }).report
      if s.sys.head then s.breaks (s.ring.backFrom 1) else s.modRing fun r => { r with event := true }

/-- UPSTREAM-ALIVE (R322). -/
def execUpstreamAlive (s : State) : Res := onLatch s fun s => s.modRing fun r => { r with upDead := false }

/-- BREAK-REPORT-REPEAT (R323). -/
def execBreakReportRepeat (s : State) : Res := onLatch s fun s => if s.ring.upDead then s.report else s

/-- RING-BRK-FRAME: forwarded with HOPS raised, or taken in by the head (R304, R324). -/
def execRingBrkFrame (reporter : Byte) (numbered : Bool) (hops : Byte) (s : State) : Res :=
  onLatch s fun s =>
    let d := s.leftOver
    let s := d.2
    if s.sys.head then
      let s := s.modRing fun r => r.storeTaken (.brk reporter.toNat (bitNat numbered) hops.toNat) d.1
      s.breaks (s.ring.reported reporter.toNat numbered hops.toNat)
    else s.modRing fun r => r.forward (.brk reporter.toNat (bitNat numbered) (satInc 255 hops.toNat)) d.1

/-! ### Lines -/

/-- The tag of a line as its result carries it (R116). -/
def tagOf (text : String) : String :=
  match text.toList.dropWhile fun c => c = ' ' with
  | '#' :: l => String.ofList (l.takeWhile fun c => c ≠ ' ')
  | _ => "-"

/-- A line of ring session `k` arrives: before `^READY RING` it is a host error (R84, R109). -/
def State.lineArrives (s : State) (k : Nat) (text : String) : State :=
  let s := s.modSes k fun x => { x with lastTick := s.cal.tick }
  if s.isUp .ring then s.modRing fun r => { r with linesIn := r.linesIn ++ [(k, text)] } else s.ignore k

/-- A line of a session that cannot be created passes every check but that of resources (R108, R126): 16 names a session
that holds nothing. -/
def State.onlyBusy (s : State) (text : String) : Bool :=
  s.isUp .ring && (match readLine 1 text with
    | some (.command c) => s.formOk 16 c
    | _ => false)

/-- A line from the ring is taken in: its session is found or created, or the line is answered BUSY where nothing else is
wrong with it (R101, R108, R126, R128, R129). -/
def State.takeLine (s : State) (src ses : Nat) (text : String) : State :=
  if blankText text then s
  else match s.sessionOf src ses with
    | some k => s.lineArrives k text
    | none =>
      match (List.range 16).find? fun k => k ≠ 0 && !(s.sesAt k).isOpen with
      | some k =>
        (s.modSes k fun _ => { isOpen := true, src := src, byte := ses }).lineArrives k text
      | none =>
        if s.onlyBusy text then s.pushFrame (.sor s.sys.head src (s.ring.number.getD 0) ses ("=" ++ tagOf text ++ " BUSY")) none
        else s

/-- A reply line is printed on the local console: a `^` or `*` line is dropped where the queue is full (R124, R125, R301). -/
def State.printReply (s : State) (src : Nat) (text : String) : State :=
  let t := "@" ++ decText src ++ " " ++ text
  if !s.isUp .ring then s
  else match text.toList with
    | c :: _ =>
      if c = '^' || c = '*' then
        if s.con.free t then s.pushLine t
        else s.modCon fun c => { c with lost := (c.lost + 1) % pow32, lostSince := c.lostSince + 1 }
      else s.emit 0 t
    | [] => s

/-- A text byte that the ring carries (R296). -/
def ringChar (c : Char) : Bool := 32 ≤ c.toNat && c.toNat ≤ 126

/-- The framing errors of a line with this text (R296, R298): a wrong byte, or the symbol with which the frame grows longer
than 205, ends the frame, and each text byte after it stands outside a frame. -/
def textErrors (t : String) : Nat :=
  let n := t.toList.length
  let p := (t.toList.takeWhile ringChar).length
  if p = n && n ≤ 200 then 0 else if p < n && p ≤ 201 then n - p else max 1 (n - 201)

/-- Symbols of a line before its first framing error. -/
def goodSyms (t : String) : Nat := 4 + min 200 (t.toList.takeWhile ringChar).length

/-- What a keeper does with a line that reaches it (R301). -/
inductive LineAct where
  | looped | stale | returned | removed | taken | copied | forwarded
  deriving DecidableEq, Repr

/-- Kinds of line. -/
inductive LineKind where
  | sol | sob | sor
  deriving DecidableEq, Repr

/-- The action of R301, R303 and R319. -/
def State.lineAct (s : State) (k : LineKind) (mark : Bool) (dest src : Nat) : LineAct :=
  match s.ring.number with
  | none => .forwarded
  | some n =>
    if s.sys.head && s.ring.passOut then .stale
    else if s.sys.head && mark && src ≠ n then .looped
    else match k with
      | .sol => if dest = n then .taken else if src = n then .returned else .forwarded
      | .sob => if src = n then .removed else .copied
      | .sor => if dest = n then .taken else if src = n then .returned else .forwarded

/-- A line frame; the head sets the head mark on what it forwards (R302). -/
def LineKind.frame (k : LineKind) (mark : Bool) (dest src ses : Nat) (text : String) : Frame :=
  match k with
  | .sol => .sol mark dest src ses text
  | .sob => .sob mark dest src ses text
  | .sor => .sor mark dest src ses text

/-- The keeper has begun to forward the line by its fourth symbol (R305). -/
def LineAct.forwards : LineAct → Bool
  | .copied => true
  | .forwarded => true
  | _ => false

/-- A line frame arrives; `left` of its symbols are in the receive store when the command ends. A wrong line is ended with ABT
where some of its symbols have already left (R296). -/
def State.lineFrame (s : State) (k : LineKind) (mark : Bool) (dest src ses : Nat) (text : String) (left : Nat) : State :=
  let act := s.lineAct k mark dest src
  if textErrors text ≠ 0 then s.modRing fun r => r.framing (textErrors text) (act.forwards && left < goodSyms text)
  else
    let f := k.frame (mark || s.sys.head) dest src ses text
    match act with
    | .stale => s.modRing fun r => { r with stale := satInc 65535 r.stale }
    | .looped => s.modRing fun r => { r with looped := satInc 65535 r.looped }
    | .removed => s
    | .returned =>
      let s := s.modRing fun r => { r with returned := satInc 65535 r.returned }
      if k = .sol then s.ignore 0 else s
    | .taken =>
      let s := s.modRing fun r => r.storeTaken f left
      if k = .sor then s.printReply src text else s.takeLine src ses text
    | .copied => (s.modRing fun r => r.storeCopied f left).takeLine src ses text
    | .forwarded => s.modRing fun r => r.forward f left

/-- RING-SOL-FRAME. -/
def execRingSolFrame (mark : Bool) (dest src ses : Byte) (text : String) (left : Fin 65) (s : State) : Res :=
  onLatch s fun s => s.lineFrame .sol mark dest.toNat src.toNat ses.toNat text left.val

/-- RING-SOB-FRAME. -/
def execRingSobFrame (mark : Bool) (dest src ses : Byte) (text : String) (left : Fin 65) (s : State) : Res :=
  onLatch s fun s => s.lineFrame .sob mark dest.toNat src.toNat ses.toNat text left.val

/-- RING-SOR-FRAME. -/
def execRingSorFrame (mark : Bool) (dest src ses : Byte) (text : String) (left : Fin 65) (s : State) : Res :=
  onLatch s fun s => s.lineFrame .sor mark dest.toNat src.toNat ses.toNat text left.val

/-! ### RING notices and verbs -/

/-- READY-RING (R78, R317, R320): a numbered member, a keeper that OVERFLOW found, or the head after its first pass or
with its ring broken. -/
def execReadyRing (s : State) : Res :=
  goOn (if !s.latchTurn .ring then s
    else if s.sys.head then
      match s.ring.st with
      | .broken => (s.announce .ring "RING 0 BROKEN").notice ("^RING BROKEN AFTER " ++ posText s.breakPos)
      | .ok => s.announce .ring ("RING 0 COUNT " ++ decText s.ring.count)
      | .overflow => (s.announce .ring ("RING 0 COUNT " ++ decText s.ring.count)).notice "^RING OVERFLOW"
      | _ => s
    else match s.ring.number with
      | some n => s.announce .ring ("RING " ++ decText n)
      | none => if s.ring.st = .overflow then s.announce .ring "RING OVERFLOW" else s)

/-- RING-ALONE-TIMEOUT (R78, R321): a member that no pass has numbered. -/
def execRingAloneTimeout (s : State) : Res :=
  goOn (if !s.latchTurn .ring || s.sys.head || s.ring.st ≠ .pending then s
    else ((s.modRing fun r => { r with st := .alone, joining := true }).announce .ring "RING ALONE").sendOwn .join)

/-- RING-BYPASS: a write of RNG_CTL BYPASS (R291). -/
def execRingBypass (on : Bool) (s : State) : Res := onLatch s fun s => s.modRing fun r => { r with bypass := on }

/-- The ring status as RING prints it (R212, R326). -/
def State.ringStatus (s : State) : String :=
  if s.ringBroken then "BROKEN " ++ posText s.breakPos
  else match s.ring.st with
    | .alone => "ALONE"
    | .overflow => "OVERFLOW"
    | _ => "OK"

/-- The answer to RING (R212). -/
def State.ringLine (s : State) : String :=
  "RING " ++ decText s.keeperNo ++ (if s.sys.head then " HEAD COUNT " ++ decText s.ring.count else " MEMBER COUNT -")
    ++ " STATUS " ++ s.ringStatus ++ " TERM " ++ onOff s.ring.term ++ " DROPPED " ++ decText s.ring.dropped

def execRing (q : Src) (s : State) : Res := verb s q (.ring q) fun s => s.reply q s.ringLine

/-- RING ENUM: a host error on a member (R212). -/
def execRingEnum (q : Src) (s : State) : Res :=
  verb s q (.ringEnum q) fun s => (s.reply q "RING ENUM").startPass

def execRingTermOn (q : Src) (s : State) : Res :=
  verb s q (.ringTermOn q) fun s => s.store q (.term true) "RING TERM ON"

def execRingTermOff (q : Src) (s : State) : Res :=
  verb s q (.ringTermOff q) fun s => s.store q (.term false) "RING TERM OFF"

end Sys2Proof.Machine
end

