-- ==== Sys2Proof/Machine/ConsolePort.lean ====
section
/-! DEFINITION. The console: characters received (R95, R96, R98, R99, R674), characters sent (R97, R125), the rate (R94),
lines that are malformed, addressed or broadcast (R113 to R115, R126), and ring sessions that fall idle (R109). -/

namespace Sys2Proof.Machine

/-- The console reads its store up to its next complete line. -/
def State.readOn (s : State) : State := s.pump s.con.work

/-- A character joins the input store, or finds it full (R96, R98). DESIGN CHOICE (log 80): a character dropped directly after
a CR counts to the line that follows it, even where it is that CR's LF. -/
def State.storeChar (s : State) (c : Byte) : State :=
  if 512 ≤ s.con.rx.length then
    s.modCon fun x => { x with overrun := (x.overrun + 1) % pow32, marks := x.marks ++ [x.rx.length] }
  else (s.modCon fun x => { x with rx := x.rx ++ [c] }).flowPoints

/-- A character received (R95, R99, R674): XON and XOFF act at once where XON/XOFF is enabled. Characters that come before
`^READY LINE` are dropped (R83, R84). DESIGN CHOICE (log 80): an XON or XOFF acted on between a CR and an LF does not part
them, so the LF ends no second line and has no echo. -/
def State.consoleChar (s : State) (c : Byte) (framingError : Bool) : State :=
  if framingError then s.modCon fun x => { x with framing := (x.framing + 1) % pow32 }
  else if s.con.xon && (c = 0x11#8 || c = 0x13#8) then s.modCon fun x => { x with stopped := c = 0x13#8 }
  else if !s.isUp .line then s
  else (s.storeChar c).readOn

/-- CONSOLE-CHAR. -/
def execConsoleChar (c : Byte) (framingError : Bool) (s : State) : Res := onLatch s fun s => s.consoleChar c framingError

/-- CONS_CTS changes; once it is low, a flow character that was due is sent, where XON/XOFF is still enabled (R96, R97). -/
def Console.setCts (x : Console) (level : Bool) : Console :=
  match level, x.flowDue with
  | false, some b => { x with cts := false, flowDue := none, flowOut := if x.xon then b :: x.flowOut else x.flowOut }
  | _, _ => { x with cts := level }

/-- CONS-CTS-CHANGE (R97). -/
def execConsCtsChange (level : Bool) (s : State) : Res := onLatch s fun s => s.modCon fun x => x.setCts level

/-- LC reads CON_RX: the oldest character leaves the store. -/
def State.readConRx (s : State) : State :=
  (s.modCon fun x => { x with rx := x.rx.drop 1, marks := x.marks.map fun m => m - 1 }).flowPoints

/-- CONSOLE-RX-READ. -/
def execConsoleRxRead (s : State) : Res := onLatch s State.readConRx

/-- Characters of the output queue that may enter the transmit store: those up to the end of the result of a LINE BAUD (R94). -/
def outChars : List Out → Nat
  | [] => 0
  | .rate t _ :: _ => t.length + 2
  | o :: l => o.size + outChars l

/-- Places of the transmit store in use: LC fills it from the output queue as they come free (R125, R674). -/
def Console.txUsed (x : Console) : Nat :=
  min 16 (x.tx.length + if x.rateDue.isSome then 0 else outChars x.outq - x.outSent)

/-- A write of CON_TX: ignored while the transmit store is full (R674). -/
def Console.writeTx (x : Console) (c : Byte) : Console := if 16 ≤ x.txUsed then x else { x with tx := x.tx ++ [c] }

/-- CONSOLE-TX-WRITE. -/
def execConsoleTxWrite (c : Byte) (s : State) : Res := onLatch s fun s => s.modCon fun x => x.writeTx c

/-- The rate code of an entry that is the result of a LINE BAUD, after which the rate changes to it (R94). -/
def Out.rateCode : Out → Option Nat
  | .rate _ c => some c
  | _ => none

/-- The entry is the result of a LINE BAUD. -/
def Out.isRate (o : Out) : Bool := o.rateCode.isSome

/-- The entries left, the characters of the first of them already sent, and the rate code of a LINE BAUD whose result has gone
out, behind which nothing is sent before the rate has changed (R94), once up to `n` more characters are sent. -/
def sendOut : List Out → Nat → Nat → List Out × Nat × Option Nat
  | [], _, _ => ([], 0, none)
  | o :: l, sent, n =>
    if o.size ≤ sent + n then (if o.isRate then (l, 0, o.rateCode) else sendOut l 0 (sent + n - o.size)) else (o :: l, sent + n, none)

/-- Characters leave: those of the transmit store first, then those of the output queue. -/
def Console.send (x : Console) (n : Nat) : Console :=
  if x.rateDue.isSome then { x with tx := x.tx.drop n }
  else
    let r := sendOut x.outq x.outSent (n - x.tx.length)
    { x with tx := x.tx.drop n, outq := r.1, outSent := r.2.1, rateDue := r.2.2 }

/-- Lines held for room enter the queue in their order (R125); a completion's handle is closed with it (R228). -/
def State.releaseHeld : Nat → State → State
  | 0, s => s
  | n + 1, s =>
    match s.con.held with
    | [] => s
    | h :: l =>
      if s.con.fits h.out.size then
        State.releaseHeld n (((s.modCon fun x => { x with held := l }).pushOut h.out).lineQueued h.done)
      else s

/-- `^LOST k` is printed the first time room appears after drops (R125), behind the lines that are held (R124). -/
def State.tellLost (s : State) : State :=
  let t := "^LOST " ++ decText s.con.lostSince
  if s.con.lostSince = 0 || !s.con.free t then s else (s.notice t).modCon fun x => { x with lostSince := 0 }

/-- OUTPUT-QUEUE-ROOM: characters are sent, unless CONS_CTS or a received XOFF stops them (R97, R99, R125). -/
def execOutputQueueRoom (chars : Nat) (s : State) : Res :=
  onLatch s fun s =>
    if s.con.cts || s.con.stopped then s
    else
      let s := s.modCon fun x => x.send chars
      (State.releaseHeld s.con.held.length s).tellLost.readOn.dueRuns

/-- The result of a LINE BAUD is still to be sent. -/
def Console.rateWaits (x : Console) : Bool := x.outq.any Out.isRate || x.held.any fun h => h.out.isRate

/-- The rate that a code of BAUD stands for: 3 acts as 1 (R674). -/
def baudActs (c : Nat) : Nat := if c = 3 then 1 else c

/-- A change of rate takes effect once the transmit store is empty and the transmitter at rest (R94, R674): that of a LINE BAUD
whose result has been sent, or, where no such result is still to be sent, that of CON_CTL BAUD. -/
def Console.setRate (x : Console) : Console :=
  if x.txUsed ≠ 0 then x
  else match x.rateDue with
    | some c => { x with baudNow := baudActs c, rateDue := none }
    | none => if x.rateWaits then x else { x with baudNow := baudActs x.baud }

/-- BAUD-APPLY (R94, R674). -/
def execBaudApply (s : State) : Res := onLatch s fun s => s.modCon Console.setRate

/-! ### Lines that are no command -/

/-- The session's first line is over-length, or outside the grammar (R100, R111 to R119). Where no line waits, the command
stands for one that comes complete (log 20). -/
def State.badLine (s : State) (k : Fin 16) : Bool :=
  match s.firstLine k.val with
  | none => true
  | some t => s.longFirst k.val || (readLine k t).isNone

/-- Session `k`'s first line is a PROVE line that matches the grammar of R117 but not the form of its verb: under R188 it
consumes the session's pending challenge even though it is a host error (R126). DEDUCED (log 96): R188 names a PROVE with any
other number of groups; arguments of another token class are taken alike. -/
def State.badProof (s : State) (k : Nat) : Bool :=
  match s.firstLine k with
  | none => false
  | some t => !s.longFirst k && provesLine t

/-- Session `k`'s line is a host error of its form: where it is a PROVE line, the challenge goes with it (R126, R188). -/
def State.ignoreForm (s : State) (k : Nat) (proof : Bool) : State :=
  (if proof then s.modSes k fun x => { x with challenge := none } else s).ignore k

/-- MALFORMED-LINE: the session's next line is a host error (R126). -/
def State.malformed (s : State) (k : Fin 16) : State :=
  if s.canRun k.val && s.badLine k then ((s.nextLine k.val).2.ignoreForm k.val (s.badProof k.val)).afterLine k.val else s

def execMalformedLine (ses : Fin 16) (s : State) : Res := goOn (s.malformed ses)

/-- The console's first line reads as `w`. Where no line waits, the command stands for one that comes complete (log 20). -/
def State.addresses (s : State) (w : Typed) : Bool :=
  match s.con.lines.head? with
  | none => true
  | some t => !s.con.longLine && readLine 0 t = some w

/-- A console line that reads as `w` is taken: before `^READY RING` it is a host error (R83, R84), where a PROVE line consumes the
pending challenge (R126, R188). -/
def State.addressed (s : State) (w : Typed) (body : State → State) : State :=
  if s.canRun 0 && s.addresses w then
    let s := (s.nextLine 0).2
    (if s.isUp .ring then body s else s.ignoreForm 0 (w.text.any provesLine)).afterLine 0
  else s

/-- The line without its address runs here, as the console session's next line (R112, R114, R115). -/
def State.runsHere (s : State) (text : String) : State := s.modCon fun x => { x with lines := text :: x.lines }

/-- FORWARD-ADDRESSED-LINE: `@n` sends the line onto the ring, or, with the keeper's own number, runs it here (R112, R113). A
keeper without a number on the ring treats every other `@n` as an unanswered line (R115, R303). -/
def execForwardAddressedLine (n : Byte) (text : String) (s : State) : Res :=
  goOn (s.addressed (.addressed n.toNat text) fun s =>
    if n.toNat = s.keeperNo then s.runsHere text
    else if s.ring.number.isSome then s.pushFrame (.sol s.sys.head n.toNat s.keeperNo 0 text) none
    else s.ignore 0)

/-- BROADCAST-LINE: the line goes onto the ring, and then runs here as the console session's next line (R114). -/
def execBroadcastLine (text : String) (s : State) : Res :=
  goOn (s.addressed (.broadcast text) fun s =>
    (if s.ring.number.isSome then s.pushFrame (.sob s.sys.head s.keeperNo s.keeperNo 0 text) none else s).runsHere text)

/-- A handle that session `k` opened is open. -/
def State.hasOpen (s : State) (k : Nat) : Bool := s.hnd.opens.any fun h => h.openedBy k

/-- SESSION-IDLE-TIMEOUT (R109). -/
def execSessionIdleTimeout (ses : Fin 16) (s : State) : Res :=
  let k := ses.val
  onLatch s fun s =>
    if k ≠ 0 && (s.sesAt k).isOpen && (s.sesAt k).lastTick + 57600 ≤ s.cal.tick && !s.hasOpen k then s.endSession k else s

end Sys2Proof.Machine
end

