-- ==== Sys2Proof/Machine/HingeOps.lean ====
section
/-! DEFINITION. The hinge: its ports and mailboxes (R59 to R63), notifications (R60), and the heartbeat (R64, R65). -/

namespace Sys2Proof

/-- OWNER's code of a requester. -/
def Who.code : Who → Nat
  | .lc => 8
  | .fc k => k.val

/-- The side that owns and posts a mailbox is LC for L2F and a field core for F2L (R59). -/
def Box.ownedBy (b : Box) (who : Who) : Bool :=
  match b, who with
  | .l2f, .lc => true
  | .f2l, .fc _ => true
  | _, _ => false

end Sys2Proof

namespace Sys2Proof.Machine

def State.modHng (s : State) (f : Hinge → Hinge) : State := { s with hng := f s.hng }

def Hinge.box (x : Hinge) : Box → Mailbox
  | .l2f => x.l2f
  | .f2l => x.f2l

def Hinge.setBox (x : Hinge) (b : Box) (m : Mailbox) : Hinge :=
  match b with
  | .l2f => { x with l2f := m }
  | .f2l => { x with f2l := m }

def Hinge.modBox (x : Hinge) (b : Box) (f : Mailbox → Mailbox) : Hinge := x.setBox b (f (x.box b))

/-- A write that the rules do not allow counts in IGNORED (R62). -/
def State.hngIgnored (s : State) : State := s.modHng fun x => { x with ignored := satInc 65535 x.ignored }

/-- CLAIM is allowed (R59). -/
def State.canClaim (s : State) (who : Who) (b : Box) : Bool := b.ownedBy who && (s.hng.box b).st = .free

/-- The requester owns the mailbox, and it is CLAIMED (R60, R61). -/
def State.ownsClaimed (s : State) (who : Who) (b : Box) : Bool :=
  (s.hng.box b).st = .claimed && (s.hng.box b).owner = who.code

/-- POST with COUNT `n` is allowed (R60, R62). -/
def State.canPost (s : State) (who : Who) (b : Box) (n : Nat) : Bool := s.ownsClaimed who b && 1 ≤ n && n ≤ 16

/-- RELEASE is allowed: by the receiving side of a POSTED mailbox, or by the owner of a CLAIMED one (R61). -/
def State.canRelease (s : State) (who : Who) (b : Box) : Bool :=
  s.ownsClaimed who b || ((s.hng.box b).st = .posted && !b.ownedBy who)

/-- The queue of a mailbox's notifications (HNG_NOTIFY). -/
def Hinge.noteQ (x : Hinge) : Box → Nat
  | .l2f => x.l2fQ
  | .f2l => x.f2lQ

/-- The notification item of a mailbox (R60). -/
def noteWords (b : Box) : List Word := [header 0 0 0 (if b = .l2f then 0xFF10 else 0xFF11)]

/-- The claimant that a notification waits as. -/
def noteClaim (b : Box) : Claimant := .note (b = .l2f)

/-- The notification is posted, or waits with NPEND set (R60, R634). -/
def State.notify (s : State) (b : Box) : State :=
  let q := s.hng.noteQ b
  if s.hasRoom q && (s.waiter q).isNone then s.visible q (noteWords b)
  else (s.await q (noteClaim b)).modHng fun x => x.modBox b fun m => { m with npend := true }

def State.boxClaim (s : State) (who : Who) (b : Box) : State :=
  if s.canClaim who b then s.modHng fun x => x.modBox b fun m => { m with st := .claimed, owner := who.code }
  else s.hngIgnored

def State.boxPost (s : State) (who : Who) (b : Box) (n : Nat) : State :=
  if s.canPost who b n then (s.modHng fun x => x.modBox b fun m => { m with st := .posted, count := n }).notify b
  else s.hngIgnored

def State.boxRelease (s : State) (who : Who) (b : Box) : State :=
  if s.canRelease who b then s.modHng fun x => x.modBox b fun m => { m with st := .free, owner := 15, count := 0 }
  else s.hngIgnored

def State.boxWrite (s : State) (who : Who) (b : Box) (i : Nat) (w : Word) : State :=
  if s.ownsClaimed who b then s.modHng fun x => x.modBox b fun m => { m with words := vset m.words i w }
  else s.hngIgnored

/-- HNG_FORCE: FREE, and NPEND clear (R63). -/
def State.boxForce (s : State) (b : Box) : State :=
  (s.modHng fun x => x.modBox b Mailbox.freed).modSow fun w => { w with claims := w.claims.filter fun p => p.2 ≠ noteClaim b }

/-- A write of HNG_L2F_CTL or HNG_F2L_CTL: the lowest-numbered action written as 1 that is allowed, and only that one. -/
def State.boxCtl (s : State) (who : Who) (b : Box) (v : Nat) : State :=
  let n := fieldAt v 4 5
  if bitAt v 0 && s.canClaim who b then s.boxClaim who b
  else if bitAt v 1 && s.canPost who b n then s.boxPost who b n
  else if bitAt v 2 && s.canRelease who b then s.boxRelease who b
  else if v % 8 ≠ 0 then s.hngIgnored
  else s

/-! ### Hinge ports -/

def BoxState.code : BoxState → Nat
  | .free => 0
  | .claimed => 1
  | .posted => 2

/-- A mailbox's fields of HNG_STATUS. -/
def Mailbox.status (m : Mailbox) : Nat := m.owner + m.st.code * 2 ^ 4 + m.count * 2 ^ 6 + bitNat m.npend * 2 ^ 11

/-- A hinge port as read. -/
def Hinge.read (x : Hinge) (p : Nat) : Nat :=
  if p = 0x100 then x.l2f.status + x.f2l.status * 2 ^ 12 + bitNat x.tieField * 2 ^ 24
  else if p = 0x104 then x.expired.toNat
  else if p = 0x105 then x.l2fQ + x.f2lQ * 2 ^ 8
  else if p = 0x107 then x.ties + x.ignored * 2 ^ 16
  else if 0x110 ≤ p ∧ p < 0x120 then (vget x.l2f.words (p - 0x110)).toNat
  else if 0x120 ≤ p ∧ p < 0x130 then (vget x.f2l.words (p - 0x120)).toNat
  else 0

/-- HNG_NOTIFY as written; a queue outside its range leaves its field (L2F_Q 0..55, F2L_Q 56..63). -/
def Hinge.setNotify (x : Hinge) (v : Nat) : Hinge :=
  let a := fieldAt v 0 6
  let b := fieldAt v 8 6
  { x with l2fQ := if a < 56 then a else x.l2fQ, f2lQ := if 56 ≤ b then b else x.f2lQ }

/-- The heartbeat counter of a core restarts (R64). -/
def State.touch (s : State) (k : Nat) : State := s.modHng fun x => { x with beat := vset x.beat k 0 }

/-- A write of a hinge port in field state. A field core's write of HNG_FORCE, which is LC's only, has trapped before (R672). -/
def State.writeHinge (s : State) (who : Who) (p : Nat) (w : Word) : State :=
  let v := w.toNat
  if p = 0x101 then s.boxCtl who .l2f v
  else if p = 0x102 then s.boxCtl who .f2l v
  else if p = 0x103 then (match who with
    | .fc k => if bitAt v 0 then s.touch k.val else s
    | .lc => s)
  else if p = 0x104 then (match who with
    | .lc => s.modHng fun x => { x with expired := x.expired &&& ~~~(w.setWidth 6) }
    | .fc _ => s)
  else if p = 0x105 then s.modHng fun x => x.setNotify v
  else if p = 0x106 then (match who with
    | .lc =>
      let s := if bitAt v 0 then s.boxForce .l2f else s
      if bitAt v 1 then s.boxForce .f2l else s
    | .fc _ => s)
  else if 0x110 ≤ p ∧ p < 0x120 then s.boxWrite who .l2f (p - 0x110) w
  else if 0x120 ≤ p ∧ p < 0x130 then s.boxWrite who .f2l (p - 0x120) w
  else s

/-! ### Notifications that wait -/

/-- The queue that a mailbox's notification waits for. -/
def State.noteWaits (s : State) (b : Box) : Option Nat := (s.sow.claims.find? fun p => p.2 = noteClaim b).map Prod.fst

/-- HINGE-NOTIFY-POST: the notification finds its place (R60, R634). NPEND stays while another of the same mailbox waits. -/
def execHingeNotifyPost (box : Box) (s : State) : Res :=
  onField s fun s => match s.noteWaits box with
    | some q =>
      if s.hasRoom q && s.waiter q = some (noteClaim box) then
        let s := (s.served q).visible q (noteWords box)
        s.modHng fun x => x.modBox box fun m => { m with npend := (s.noteWaits box).isSome }
      else s
    | none => s

/-! ### Heartbeat -/

/-- The item that the hinge posts where the heartbeat of core `k` expires (R65). -/
def heartWords (k : Nat) : List Word := [header 1 0 0 0xFF12, wordOf k]

/-- Core `k` stops at an instruction boundary, with its thread's outstanding results completed (R507, R584), its EXPIRED bit
is set, and the hinge posts its item (R65). -/
def State.expire (s : State) (k : Nat) : State :=
  let s := match (s.core k).run with
    | some t => (s.landInters k t).1
    | none => s
  let s := (s.stopCore k).modHng fun x => { x with expired := putBit x.expired k true }
  let s := s.modSys fun y => { y with hbStop := putBit y.hbStop k true }
  s.hwPost s.hng.f2lQ (.hw (heartWords k)) (heartWords k)

/-- HEARTBEAT-EXPIRY: a core that runs a thread stops at its next instruction boundary: at once, or, where it stalls at a hinge
access, once that has completed (R57, R65). -/
def execHeartbeatExpiry (k : Fin 6) (s : State) : Res :=
  onField s fun s =>
    if (s.core k.val).run.isNone || (s.core k.val).stopped then s
    else if s.stalled k.val then s.modCore k.val fun c => { c with halting := true }
    else s.expire k.val

end Sys2Proof.Machine
end

