-- ==== Sys2Proof/Machine/Recovery.lean ====
section
/-! DEFINITION. Recovery from traps and core faults (R264 to R270, R523 to R525). -/

namespace Sys2Proof.Machine

/-! ### Owner lists (R523, R524) -/

/-- Data SRAM address of a field thread's context area; none for LC's threads (R523). -/
def State.areaOf (s : State) (t : Nat) : Option Nat :=
  if t < 24 then some (0x3E000 + 256 * t)
  else if t < 120 then
    let p := s.plotAt ((t - 24) / 6)
    some (1024 * (p.dbase + p.dsize) - 1536 + 256 * ((t - 24) % 6))
  else none

/-- The buffers that a thread's owner list names. -/
def State.owned (s : State) (t : Nat) : List Word :=
  match s.areaOf t with
  | some a =>
    let n := min 62 (Mem.unit zeroByte s.mems.data a 4)
    (List.range n).map fun i => wordOf (Mem.unit zeroByte s.mems.data (a + 4 * (i + 1)) 4)
  | none => []

/-- The requester under which recovery gives a buffer of a thread back: a plot's tenancy, and for a keeper thread the requester
under which the buffer was taken (R664); where none has taken it, which keeper unit it is for is free (log 63). -/
def State.giver (s : State) (t : Nat) (w : Word) : Nat × State :=
  if isPlot t then (plotOf t, s)
  else match s.gran.taker w with
    | some r => (r, s)
    | none =>
      let d := s.draw
      (16 + (Config.freeWord d.1).toNat % 16, d.2)

/-- A buffer of a thread's list goes back; a handle for whose item it was taken holds it no longer, and takes another one
(R243). -/
def State.giveBack (s : State) (t : Nat) (w : Word) : State :=
  let r := s.giver t w
  (r.2.modGran fun g => g.give r.1 w).modHnd fun x =>
    { x with opens := x.opens.map fun h => if h.buf = some w && !isPlot t then { h with buf := none } else h }

/-- The buffers of the owner list go back, and the list is empty (R269 step 4). -/
def State.takeBack (s : State) (t : Nat) : State :=
  match s.areaOf t with
  | none => s
  | some a =>
    let l := s.owned t
    if l.isEmpty then s
    else
      let s := l.foldl (fun s w => s.giveBack t w) s
      { s with mems := { s.mems with data := Mem.putUnit zeroByte s.mems.data a 4 0 } }

/-- The flows of a thread's items are seized, and the items discarded (R269 step 3, R578). The recovery thread seizes them; on
which core it runs, and that it is it, the spec does not say: the entries name thread `t` and the core it ran on (log 65). -/
def State.seize (s : State) (t : Nat) : State :=
  let l := s.sow.fenced.filter fun p => p.2.2 = t
  let s := s.modSow fun w => { w with fenced := w.fenced.filter fun p => p.2.2 ≠ t }
  l.foldl (fun s p => s.trace (s.coreOf t) 8 t p.2.1.q p.1 0) s

/-- The items that a faulted thread was serving: its context names the one it served, and its flows are FENCED (R638). -/
def State.lostItems (s : State) (t : Nat) : List Item :=
  (s.th t).took.toList ++ (s.sow.fenced.filter fun p => p.2.2 = t).map fun p => p.2.1

/-- Entry point of a thread: a plot thread's from its image; a keeper thread's the spec does not give, and it is free. -/
def State.entryOf (s : State) (t : Nat) : Nat × State :=
  if isPlot t then
    let p := s.plotAt (plotOf t)
    (((s.checkImage (p.addr.getD 0)).2.entry).getD ((t - 24) % 6) 0, s)
  else
    let d := s.draw
    ((Config.freeWord d.1).toNat % 0x400000 * 4, d.2)

/-- A thread as the kernel restarts it, idle at its entry point: TS and the return stack at their thread start values (R265,
R494, R510). -/
def Thread.started (h : Thread) (pc : Nat) : Thread :=
  { h with st := .idle, trap := 0, pc := pc, prev := 0, resumed := false, ts := 0#20, rsd := 0, rs := List.replicate 12 0
           delayed := [], inter := [], took := none, stopping := false }

/-- The kernel restarts a faulted thread idle at its entry point (R265). -/
def State.restart (s : State) (t : Nat) : State :=
  if (s.th t).st ≠ .faulted then s
  else
    let r := s.entryOf t
    r.2.modTh t fun h => h.started r.1

/-- Steps 3 and 4 of R269 for one thread, and its restart. -/
def State.recoverThread (s : State) (t : Nat) : State := ((s.seize t).takeBack t).restart t

/-! ### F1 -/

/-- A fault item (R528), and one of trap code BREAK (R696). -/
def Item.isFault (it : Item) : Bool := 0xFE00 ≤ it.typ && it.typ < 0xFF00
def Item.isBreak (it : Item) : Bool := it.typ = 0xFE0F

/-- The fault item that recovery serves next: LC those of Q63, the keeper recovery thread those of Q54, once the Sower dispatches
(R633). -/
def State.nextFault (s : State) : Option Item :=
  s.sow.store.find? fun it => (it.q = 63 || it.q = 54 && s.sow.dispatch) && it.isFault

/-- The handles that items name. -/
def State.handlesNamed (s : State) (l : List Item) : List Handle :=
  s.hnd.opens.filter fun h => h.isLive && h.running && l.any fun it => it.names h.kk h.seq

/-- Thread `t` is the keeper recovery thread, which serves the fault items of Q54: a keeper field thread that listens to that
queue; free where no thread listens to it, since the spec gives the recovery thread no number (R269, R528, log 65). -/
def State.isRecovery (s : State) (t : Nat) : Bool × State :=
  if 24 ≤ t then (false, s)
  else if (s.th t).listen.getLsbD 54 then (true, s)
  else if (List.range 24).any fun x => (s.th x).listen.getLsbD 54 then (false, s)
  else s.freeCheck

/-- The item that the thread was serving is lost, and its handle completes FAILED (R265, R269); a REST that has not committed
ends there, and the shelf stays in FIELD (R252). -/
def State.threadTaken (s : State) (it : Item) (t : Nat) : State :=
  let hs := s.handlesNamed (s.lostItems t)
  let s := hs.foldl State.dropRest ((s.serveItem it).recoverThread t)
  (hs.foldl (fun s h => s.retire h.kk h.seq (complFailed 0x84 false)) s).runDue

/-- THREAD-FAULT-RECOVERY: the fault item is served; where the recovery thread itself has faulted, the field restarts
(R265, R269, R270). One of a BREAK changes nothing else: its thread stays parked (R696). -/
def State.threadRecovery (s : State) : State :=
  match s.nextFault with
  | none => s
  | some it =>
    let t := fieldAt (it.word 1).toNat 0 7
    if it.isBreak then s.serveItem it
    else
      let r := s.isRecovery t
      if r.1 && r.2.sys.fieldUp then (r.2.serveItem it).fieldRestart 3 .counted else r.2.threadTaken it t

def execThreadFaultRecovery (s : State) : Res := onLatch s State.threadRecovery

/-! ### F2 -/

/-- Core `k` is stopped by a core fault. -/
def State.coreFault (s : State) (k : Nat) : Bool := s.sys.hbStop.getLsbD k || s.sys.spillStop.getLsbD k

/-- `^CORE n FAULT …` (R65, R266). -/
def State.tellFault (s : State) (k : Nat) : State :=
  s.notice ("^CORE " ++ decText k ++ " FAULT " ++ (if s.sys.spillStop.getLsbD k then "SPILL" else "HEARTBEAT"))

/-- The threads that a core fault caught on core `k`. -/
def State.party (s : State) (k : Nat) : List Nat :=
  (List.range 120).filter fun t => (s.th t).st = .faulted && (s.th t).trap = 0 && (s.th t).lastCore = k

/-- LC forces FREE the mailboxes that the core owns or was draining; which core drains L2F no register tells, so that is
free (R269 step 2). -/
def State.freeBoxes (s : State) (k : Nat) : State :=
  let s := if s.hng.f2l.owner = k then s.boxForce .f2l else s
  if s.hng.l2f.st = .posted then
    let r := s.freeCheck
    if r.1 then r.2.boxForce .l2f else r.2
  else s

/-- The core is reset and returned to the Sower (R267). -/
def State.coreBack (s : State) (k : Nat) : State :=
  (s.modCore k fun c => { c with stopped := false, wbuf := [] }).modSys fun y =>
    { y with hbStop := putBit y.hbStop k false, spillStop := putBit y.spillStop k false, recentF2 := true }

/-- The handle's items that stand in the bay work queue go, and none waits for a place: its replay posts them again (R274, log
65). -/
def State.withdraw (s : State) (h : Handle) : State :=
  (s.waitNoMore h.kk h.seq).modSow fun w => { w with store := w.store.filter fun it => !(it.isWork && it.names h.kk h.seq) }

/-- Recovery in place, and replay of the handles hit (R267 to R269). -/
def State.recoverInPlace (s : State) (k : Nat) : State :=
  let l := s.party k
  let hs := s.handlesNamed (l.flatMap s.lostItems)
  let s := (hs.foldl State.dropRest (l.foldl State.recoverThread (s.freeBoxes k))).coreBack k
  (hs.foldl (fun s h => (s.withdraw h).replay { h with hit := .counted }) s).runDue

/-- Core `k` was the only core that served its queue: every field core serves every field queue (R623), so every other one is
stopped (R270, log 65). -/
def State.onlyServer (s : State) (k : Nat) : Bool := (List.range 6).all fun j => j = k || (s.core j).stopped

/-- Whether an F2 of core `k` ends in a field restart: it came from a full spill; it is the second of its field start and,
which is free since no time passes in the model (log 3), falls within 2^28 SCLK of the first; the core alone served its
queue; or the recovery thread ran there (R267, R270). -/
def State.endsInRestart (s : State) (k : Nat) : Bool × State :=
  if s.sys.spillStop.getLsbD k || s.onlyServer k then (true, s)
  else
    let r := if s.sys.recentF2 then s.freeCheck else (false, s)
    if r.1 then r
    else (s.party k).foldl (fun r t => if r.1 then r else r.2.isRecovery t) r

/-- An item is the heartbeat item of core `k` (R65). -/
def Item.isBeat (it : Item) (k : Nat) : Bool := decide (56 ≤ it.q) && it.words = heartWords k

/-- The heartbeat item of core `k` that stands in a queue of LC (R65). -/
def State.heartItem (s : State) (k : Nat) : Option Item := s.sow.store.find? fun it => it.isBeat k

/-- The heartbeat item of core `k` has come to LC: it stands in a queue of LC's, or a thread of LC has been dispatched with it. -/
def State.heartKnown (s : State) (k : Nat) : Bool :=
  (s.heartItem k).isSome || s.heldItems.any fun p => 120 ≤ p.2 && p.1.isBeat k

/-- LC serves the heartbeat item of core `k`, where it stands in its queue or still waits for a place there (R65, R645). -/
def State.heartServed (s : State) (k : Nat) : State :=
  ((s.sow.store.filter fun it => it.isBeat k).foldl State.serveItem s).modSow fun w =>
    { w with claims := w.claims.filter fun p => p.2 ≠ .hw (heartWords k) }

/-- CORE-FAULT-RECOVERY (R65, R266, R267, R270): LC serves the item of an expired heartbeat, or finds a core stopped by a full
spill. DEDUCED (log 65): an item left over from before a field restart is announced, and its core has nothing to recover. -/
def execCoreFaultRecovery (k : Fin 6) (s : State) : Res :=
  onLatch s fun s =>
    if s.sys.fieldUp && (s.sys.spillStop.getLsbD k.val || (s.sys.hbStop.getLsbD k.val && s.heartKnown k.val)) then
      let r := ((s.heartServed k.val).tellFault k.val).endsInRestart k.val
      if r.1 then r.2.fieldRestart 3 .counted else r.2.recoverInPlace k.val
    else if (s.heartItem k.val).isSome then (s.heartServed k.val).tellFault k.val
    else s

/-- RECOVERY-TIMEOUT: a core fault stands unrecovered after 2^24 SCLK (R267). -/
def execRecoveryTimeout (s : State) : Res :=
  onField s fun s =>
    match (List.range 6).find? s.coreFault with
    | some k => ((s.heartServed k).tellFault k).fieldRestart 3 .counted
    | none => s

end Sys2Proof.Machine
end

