-- ==== Sys2Proof/Machine/Starts.lean ====
section
/-! DEFINITION. Cold starts (R67 to R72, R92, R263, R741), the latch sequence (R76 to R78, R87, R88, R271 to R276), the
WAKE sequence (R35 to R43), and the field sequence (R79 to R82, R393 to R395, R417, R431, R633, R641, R651). -/

namespace Sys2Proof.Machine

/-! ### Cold starts -/

/-- How a fault of class F4 hits an open handle: a handle that waits for a WAKE whose field reset has not yet released is
not hit again (R268). -/
def State.coldHit (s : State) (h : Handle) : Hit :=
  if !s.sys.fieldUp && h.form.needsField && !h.running then (if h.waiting then h.hit else .none) else .counted

/-- The hits of the handles that this cold start finds open; before `^READY REPLAY` those of the last cold start stand. -/
def State.coldMarks (s : State) : List (Nat × Nat × Hit) :=
  if !s.isUp .replay then s.hnd.marks
  else s.hnd.opens.map fun h => (h.kk, h.seq, s.coldHit h)

/-- The write of a line that a cold start meets: it completes, and whether its verify would have succeeded is free; where
VSTBY does not hold it may be cut short (R263, R736, R741). -/
def State.cutLine (s : State) (clean : Bool) (line : Nat) (b : List Byte) : State :=
  let d := s.draw
  if clean && (Config.freeWord d.1).getLsbD 0 then d.2.furStore line b else d.2.furDamage line

/-- The furrow write in progress at a cold start (R263, R741). Whether a line that waits had been started is free. -/
def State.cutFurrow (s : State) (clean : Bool) : State :=
  match s.jrn.writing, s.fur.op, s.fur.pendingLines with
  | some (slot, seq, r), _, _ => s.cutLine clean slot (r.bytes seq)
  | none, some .write, _ => s.cutLine clean s.fur.opLine (bytesOf s.fur.buf.toList)
  | none, none, (line, b, _) :: _ =>
    let d := s.draw
    if !s.jrn.lineTurn then s
    else if (Config.freeWord d.1).getLsbD 0 then d.2.cutLine clean line (s.asWritten line b) else d.2
  | _, _, _ => s

/-- The page whose write a cold start cuts short. -/
def State.pageCut (s : State) : Nat :=
  match s.sdb.jobBusy, s.sdb.jobs with
  | true, j :: _ => s.dueFor j
  | _, _ => s.sdb.opPage

/-- A seedbank write that a cold start cuts short (R736). -/
def State.cutSeedbank (s : State) : State := if s.sdb.op = some .write then s.pageDamage s.pageCut else s

/-- What a cold start leaves of the state: memories that hold, inputs, the model's own counter, and the JTAG port where
the standby supply held (R67, R90, R92). -/
def State.coldReset (s : State) (code : Nat) (low jtag : Bool) : State :=
  { State.reset with
    pending := s.pending
    sys := { inReset := true, vstbyLow := low || s.sys.vstbyLow, head := s.sys.head, draws := s.sys.draws
             enHold := s.sys.enHold || s.sys.fieldEn, coldCause := code }
    jtag := if jtag then s.jtag else {}
    con := { cts := s.con.cts }
    hnd := { marks := s.hnd.marks }
    fur := { mem := s.fur.mem }
    sdb := { mem := s.sdb.mem }
    ring := { holdIn := s.ring.holdIn }
    mems := { flash := s.mems.flash } }

/-- A cold start begins: reset is held (R69, R71). A source that finds reset held already does not change the cause,
except POWERON. -/
def State.coldStart (s : State) (code : Nat) (clean low : Bool) : State :=
  let s := s.modHnd fun x => { x with marks := s.coldMarks }
  let s := if s.sys.inReset then s else (s.cutFurrow clean).cutSeedbank
  s.coldReset (if s.sys.inReset && code ≠ 1 then s.sys.coldCause else code) low (code ≠ 1)

/-- POWERON: VSTBY rises through 2.90 V. -/
def execPowerOn (s : State) : Res := goOn (s.coldStart 1 true false)

/-- BROWNOUT: VSTBY falls below 2.80 V; `holdUp` says that it stays at or above 2.60 V for 24 µs (R263). -/
def execBrownout (holdUp : Bool) (s : State) : Res := goOn (s.coldStart 2 holdUp true)

/-- RESET-PIN (R70). -/
def execResetPin (s : State) : Res := goOn (s.coldStart 3 true false)

/-- TESTMODE-HIGH (R691): the table of R69 gives it no cause code, so the code is free. -/
def execTestmodeHigh (s : State) : Res :=
  let d := s.draw
  goOn (d.2.coldStart ((Config.freeWord d.1).toNat % 16) true false)

/-- CLOCK-LOSS (R32 to R34). -/
def execClockLoss (s : State) : Res := goOn (s.coldStart 4 true false)

/-- RESET-RELEASE: the inputs are sampled; a DBG_RESET that is still asserted holds the reset (R71, R314, R694). -/
def execResetRelease (head cts : Bool) (s : State) : Res :=
  goOn (if !s.sys.inReset || s.jtag.dbgReset then s
    else
      let s := s.modSys fun y => { y with inReset := false, vstbyLow := false, head := head }
      (s.modCon fun c => { c with cts := cts }).modRing fun r => { r with number := if head then some 0 else none })

/-! ### The latch sequence -/

/-- A queue's limit, urgency and group (R641). -/
def State.setQueue (s : State) (q limit urg : Nat) : State :=
  s.modQue q fun x => { x with limit := limit, urg := urg, group := 0 }

/-- The latch queues of R641. -/
def latchQueues : List (Nat × Nat × Nat) :=
  [(56, 32, 3), (57, 64, 1), (58, 16, 2), (59, 64, 1), (60, 64, 1), (61, 32, 1), (62, 16, 1), (63, 8, 3)]

/-- READY-LINE: the latch queues are configured, tick items go to Q58, session 0 opens, and the head sends its first pass
(R76, R107, R315, R641). -/
def execReadyLine (s : State) : Res :=
  goOn (if !s.latchTurn .line then s
    else
      let s := latchQueues.foldl (fun s x => s.setQueue x.1 x.2.1 x.2.2) s
      let s := s.modCal fun c => { c with tickQ := 58, post := true }
      let s := s.modSes 0 fun _ => { isOpen := true, echo := true }
      (s.announce .line "LINE 115200").startPass)

/-- READY-FACE: the face leaves its start view (R83). -/
def execReadyFace (s : State) : Res :=
  goOn (if !s.latchTurn .face then s else ((s.announce .face "FACE").modFace fun f => { f with started := true }).render)

/-- The detail of `^READY SEEDBANK` (R76, R357). -/
def State.seedbankDetail (s : State) : String :=
  words ["SEEDBANK", if s.blank then "BLANK" else "", if s.badCount = 0 then "" else "BAD " ++ decText s.badCount]

/-- READY-SEEDBANK: the settings in force, and the termination as stored (R290, R357). -/
def execReadySeedbank (s : State) : Res :=
  goOn (if !s.latchTurn .seedbank then s
    else
      let s := s.loadSeedbank
      (s.announce .seedbank s.seedbankDetail).modRing fun r => { r with term := s.sdb.term })

/-! ### The journal at a cold start (R223, R271 to R273, R738) -/

/-- A good record with its slot and SEQ. -/
structure Found where
  slot : Nat
  seq : Nat
  r : Rec
  deriving DecidableEq, Repr, Inhabited

/-- The good records of the journal ring. -/
def goodOf (l : List (Nat × Slot)) : List Found :=
  l.filterMap fun p => match p.2 with
    | .good q r => some { slot := p.1, seq := q, r := r }
    | _ => none

/-- The BAD records of the journal ring. -/
def badOf (l : List (Nat × Slot)) : Nat := (l.filter fun p => p.2 = .bad).length

/-- The newest of records, in the order of R272. -/
def newestOf (l : List Found) : Option Found :=
  l.foldl (fun (x : Option Found) f => match x with
    | none => some f
    | some g => if serialNewer f.seq g.seq then some f else some g) none

/-- The oldest of records. -/
def oldestOf (l : List Found) : Option Found :=
  l.foldl (fun (x : Option Found) f => match x with
    | none => some f
    | some g => if serialNewer g.seq f.seq then some f else some g) none

/-- An ACCEPTED record with REPLAYS 0. -/
def Found.first (f : Found) : Bool := f.r.phase = .accepted && f.r.replays = 0

/-- A record that gives a handle its state (R258, R272). -/
def Found.phased (f : Found) : Bool := f.r.phase ≠ .text && f.r.phase ≠ .queued

/-- Numeric fields of a RETIRED record (R742). -/
def numsOf (f : Form) (l : List Byte) : List Nat :=
  match f with
  | .bayOn _ _ => [unitAt l 4 1, unitAt l 5 1, unitAt l 6 1, unitAt l 7 1]
  | .bayOff _ => [unitAt l 4 1, unitAt l 5 1, unitAt l 6 1, unitAt l 7 1]
  | .envSet _ _ => [unitAt l 4 1, unitAt l 6 2]
  | .forget _ _ => [unitAt l 4 1]
  | .tag _ _ _ => [unitAt l 4 1]
  | .tagAuto _ => [unitAt l 4 1]
  | .keySet _ _ => [unitAt l 4 1]
  | .keyClear _ => [unitAt l 4 1]
  | .plotUnload _ => [unitAt l 4 1]
  | .epoch _ _ => [unitAt l 4 4]
  | .plotLoad _ _ => [unitAt l 4 1, unitAt l 8 4, unitAt l 12 1]
  | .selftest _ => [unitAt l 4 2, unitAt l 6 1]
  | _ => []

/-- The form that completion fields give where they alone hold it: ENVELOPE SET and LEDGER EPOCH (R742). -/
def formDone (f : Form) (l : List Byte) : Form :=
  match f with
  | .envSet _ _ => .envSet (envWordOf (unitAt l 4 1)) (unitAt l 6 2)
  | .epoch t _ => .epoch t (unitAt l 4 4)
  | .keySet _ k => .keySet (unitAt l 4 1) k
  | .keyClear _ => .keyClear (unitAt l 4 1)
  | .plotLoad _ a => .plotLoad (unitAt l 4 1) a
  | .plotUnload _ => .plotUnload (unitAt l 4 1)
  | f => f

/-- The completion of a RETIRED record (R229, R259, R742); `chunks` are the TEXT records of an X verb. -/
def complOf (f : Form) (r : Rec) (chunks : List Byte) : Compl :=
  let l := r.args
  match f with
  | .x _ _ _ _ =>
    { outcome := r.outcome, reason := 0, fn := 0, detail := 0, nums := [], tripped := 0#96
      text := textTo0 (chunks ++ l), replayed := r.replayedMark }
  | _ =>
    { outcome := r.outcome, reason := unitAt l 0 1, fn := unitAt l 1 1, detail := unitAt l 2 1, nums := numsOf f l
      tripped := match f with
        | .bayOn _ _ => mapAt l 8
        | _ => 0#96
      text := "", replayed := r.replayedMark }

/-- A FAILED text that LC gives an X verb itself, without TEXT records: a common reason, NOT-READY or REST (R182, R210, R742). -/
def ownText (t : String) : Bool :=
  t = "REST" || (List.range 7).any (fun i => t = commonReason (0x81 + i)) || t.toList.take 9 = "NOT-READY".toList

/-- The RETIRED record of an X verb completes TEXT records that stand before it: those of a completion that a cold start cut off
belong to none that LC has worded itself since (R259, R273, log 113). -/
def Rec.hasTexts (r : Rec) : Bool := r.outcome = oDone || (r.outcome = oFailed && !ownText (textTo0 r.args))

/-- The TEXT chunks of a handle that are newer than `q`, in their order. -/
def textsAfter (l : List Found) (q : Nat) : List Found :=
  (List.range 3).filterMap fun i => newestOf (l.filter fun f => f.r.phase = .text && f.r.step = i + 1 && serialNewer f.seq q)

/-- A handle as the journal tells it: none where its completion has been disposed of (R272, R273). `name` gives the name of
its X verb. DESIGN CHOICE (log 85): the journal does not hold which of the profiles that a PROFILE FORGET has erased were LEARNED,
so one that goes on after a cold start counts them all. -/
def handleOf (l : List Found) (name : Nat → Nat → String) : Option Handle :=
  match newestOf (l.filter Found.phased) with
  | none => none
  | some n =>
    let retired := n.r.phase = .retired
    if retired && l.any (fun f => f.r.phase = .queued && serialNewer f.seq n.seq) then none
    else
      let live := l.filter fun f => f.phased && f.r.phase ≠ .retired
      let arg := ((newestOf live).getD n).r
      let form := formOf n.r.verb n.r.tenancy n.r.replayable arg.args
      let first := match newestOf (l.filter Found.first) with
        | some f => f
        | none => (oldestOf l).getD n
      let texts := if retired && !n.r.hasTexts then [] else textsAfter l (((newestOf live).getD first).seq)
      let form := if retired && live.isEmpty then formDone form n.r.args else form
      let origin : Origin := if n.r.ring then .ring n.r.origKeeper n.r.origSession else .console
      let h := newHandle n.r.keeper n.r.handle n.r.tenancy origin "" 0 (verbName n.r.verb (name n.r.tenancy (n.r.verb - 16))) form
      some { h with
        ended := n.r.ring
        phase := match n.r.phase with
          | .accepted => .accepted
          | .step => .step
          | .committed => .committed
          | _ => .retired
        accepted := true, step := n.r.step, stepReq := n.r.step
        committing := n.r.phase = .committed || (retired && arg.phase = .committed)
        compl := if retired then some (complOf form n.r (texts.flatMap fun f => f.r.args)) else none
        replays := n.r.replays, replayed := 0 < n.r.replays, order := first.seq
        slots := first.slot :: (match newestOf live with
          | some f => if f.slot = first.slot then [] else [f.slot]
          | none => [])
        ends := texts.map Found.slot ++ (if retired then [n.slot] else [])
        cntE := match form with
          | .forget _ e => (onesOf e).length
          | _ => 0
        retSeq := if retired then n.seq else 0 }

/-- The handles named by records, each once. -/
def namesOf (l : List Found) : List (Nat × Nat) := (l.map fun f => (f.r.keeper, f.r.handle)).dedup

/-- Put a handle among others in order of acceptance (R275). -/
def insertHandle (h : Handle) : List Handle → List Handle
  | [] => [h]
  | x :: l => if serialNewer x.order h.order then h :: x :: l else x :: insertHandle h l

/-- The open handles that the journal tells of (R272, R273, R275). -/
def handlesOf (l : List Found) (name : Nat → Nat → String) : List Handle :=
  ((namesOf l).filterMap fun k => handleOf (l.filter fun f => (f.r.keeper, f.r.handle) = k) name).foldr insertHandle []

/-- LC reads the journal ring (R223, R271, R738). -/
def State.loadJournal (s : State) : State :=
  let slots := s.journalSlots
  let l := goodOf slots
  let name := fun t i => ((vget s.plots t).verbs.getD i "X")
  let s := s.modJrn fun j =>
    match newestOf l with
    | some f => { j with lastSeq := f.seq, lastSlot := f.slot, bad := badOf slots }
    | none => { j with lastSeq := 0, lastSlot := 2559, bad := badOf slots }
  s.modHnd fun x =>
    { x with opens := handlesOf l name
             nextSeq := match newestOf (l.filter Found.first) with
               | some f => nextSeqNo f.r.handle
               | none => 1 }

/-- The handles found open are in the order of seedbank writes as they were accepted (R275, R360). -/
def State.rankOpens (s : State) : State :=
  (s.hnd.opens.filter Handle.isLive).foldl (fun s h => s.ranked h.kk h.seq h.form) s

/-- READY-FURROW. -/
def execReadyFurrow (s : State) : Res :=
  goOn (if !s.latchTurn .furrow then s
    else
      let s := s.loadJournal.rankOpens
      s.announce .furrow (if s.jrn.bad = 0 then "FURROW" else "FURROW BAD " ++ decText s.jrn.bad))

/-- Ticks noted since reset release count from the value at which the calendar resumes. -/
def State.rebase (s : State) (d : Nat) : State :=
  { s with
    ses := s.ses.map fun x => { x with openTick := x.openTick + d, lastTick := x.lastTick + d }
    cal := { s.cal with utcWas := s.cal.utcWas.map fun p => (p.1 + d, p.2) }
    face := { s.face with autoTick := s.face.autoTick + d, keyTick := s.face.keyTick + d, errTick := s.face.errTick + d } }

/-- READY-CALENDAR: the count goes on from the value saved, with the ticks since reset release (R77, R363). -/
def execReadyCalendar (s : State) : Res :=
  goOn (if !s.latchTurn .calendar then s
    else
      let n := s.newestCal
      let k := s.resumeTick + s.cal.sinceReset
      let s := (s.rebase (k - s.cal.tick)).modCal fun c =>
        { c with tick := k, newestB := n.map Prod.fst, saveSeq := (n.map Prod.snd).getD 0 }
      s.announce .calendar "CALENDAR UTC-UNSET")

/-- The lock latches are set from the lock records (R427, R430, R442). -/
def State.restoreLocks (s : State) : State :=
  (List.range 96).foldl (fun s n => if (s.lockRecord n).1 then s.setLatch n true else s) s

/-- The hit that replay is to record for a handle found open. -/
def Handles.markOf (x : Handles) (h : Handle) : Hit :=
  match x.marks.find? fun m => m.1 = h.kk && m.2.1 = h.seq with
  | some m => m.2.2
  | none => .counted

/-- The handles found open, hit as the cold start found them; field forms wait for the next WAKE (R88, R268). -/
def State.markOpens (s : State) : State :=
  s.modHnd fun x =>
    { x with opens := x.opens.map fun h =>
               if h.isLive then { h with hit := x.markOf h, waiting := h.form.needsField } else h
             marks := [] }

/-- Replay at a cold start: superseded shelf forms, forms that need no field, and completions still to be queued (R273,
R276, R281). -/
def State.coldReplay (s : State) : State :=
  let s := s.markOpens.supersede fun h => h.hit
  let s := s.hnd.opens.foldl (fun s h => match s.openAt h.kk h.seq with
    | some h => if h.isLive && !h.form.needsField then s.replay h else s
    | none => s) s
  let s := s.hnd.opens.foldl (fun s h => s.finishDue h.kk h.seq) s
  State.settleAll 8192 16384 s.runDue

/-- READY-REPLAY: replay's own writes all end here, so that its completions come before the notice (log 13). -/
def execReadyReplay (s : State) : Res :=
  goOn (if !s.latchTurn .replay then s
    else
      let s := s.restoreLocks.loadLedger
      let s := ({ s with up := s.up ++ [Fn.replay] } : State).coldReplay
      ({ s with up := s.up.filter fun f => f ≠ Fn.replay } : State).announce .replay ("REPLAY " ++ decText s.replayWaiting))

/-- READY-KEYS (R87, R470): LC announces once the scanner is armed, with KSC_BASE as the baseline; until then it writes POST 1, and
the next frame start arms the scanner and takes the baseline. -/
def execReadyKeys (s : State) : Res :=
  goOn (if !s.latchTurn .keys then s
    else if s.keys.armed then (s.announce .keys "KEYS").showTags else s.modKeys fun x => { x with post := true })

/-! ### The WAKE sequence -/

/-- FIELD-EN-HOLD-END: FIELD_EN has been low for 100 ms (R39). -/
def execFieldEnHoldEnd (s : State) : Res :=
  goOn (if s.sys.fieldEn then s else s.modSys fun y => { y with enHold := false })

/-- The tenancy that a WAKE counts toward (R369). -/
def WakeCause.ten : WakeCause → Nat
  | .verb t => t
  | .panel => 0
  | .plot t => t
  | .form t => t

/-- The codes of the JTAG instructions (R694). -/
def Jtag.code : Jtag → BitVec 6
  | .extest => 0x00#6
  | .sample => 0x01#6
  | .dbgStatus => 0x20#6
  | .dbgRead => 0x21#6
  | .dbgWrite => 0x22#6
  | .dbgResume => 0x23#6
  | .dbgReset => 0x2A#6
  | .bypass => 0x3F#6

/-- The instruction that a code selects: BYPASS where it is not listed (R694). -/
def jtagOf (c : BitVec 6) : Jtag :=
  ([.extest, .sample, .dbgStatus, .dbgRead, .dbgWrite, .dbgResume, .dbgReset].find? fun i => i.code = c).getD .bypass

/-- The instruction that is loaded. -/
def JtagPort.ins (j : JtagPort) : Jtag := jtagOf j.ir

/-- The WAKE asked for may take step 1: the cause that asked first (R39, R44, R699). -/
def State.wakeReady (s : State) : Option WakeCause :=
  if s.sys.inReset || s.sys.kst ≠ .latch || s.sys.enHold || s.jtag.ins = .extest then none else s.sys.wakePend.head?

/-- WAKE-START: step 1 (R35, R41). Every cause that waits is served by this sequence, and it counts toward the tenancy of the one
that asked first, since the others join it (R369). -/
def execWakeStart (s : State) : Res :=
  goOn (match s.wakeReady with
    | none => s
    | some c =>
      let s := s.modSys fun y =>
        { y with fieldEn := true, kst := .waking, wakeCause := y.wakePend, wakePend := [], nextFieldCause := 1 }
      (s.accrue s.cal.tick c.ten 3 1).runDue)

/-- FIELD-PG-RISE: step 2 (R41). -/
def execFieldPgRise (s : State) : Res :=
  goOn (if s.sys.kst = .waking && s.sys.fieldEn && s.sys.pll = .off then
      s.modSys fun y => { y with fieldPg := true, pll := .locking }
    else s)

/-- FIELD-PG-DROP-IN-LOCK (R42). -/
def execFieldPgDropInLock (s : State) : Res :=
  goOn (if s.sys.kst = .waking && s.sys.pll = .locking then s.modSys fun y => { y with fieldPg := false, pll := .off } else s)

/-- PLL-LOCK: step 3 (R27, R41). -/
def execPllLock (s : State) : Res :=
  goOn (if s.sys.kst = .waking && s.sys.pll = .locking then s.modSys fun y => { y with pll := .locked, fastClk := true } else s)

/-- A bay's channel at field reset release (R417, and the port tables of R412 on). -/
def Bay.fieldStart (b : Bay) (st : BState) : Bay := { st := st, trips := b.trips, locate := b.locate }

/-- The hinge at field reset release: mailbox words and notification queues stay, and so does LC's transfer that waits (R673, log
100). -/
def Hinge.fieldStart (x : Hinge) : Hinge :=
  { l2f := x.l2f.freed, f2l := x.f2l.freed, l2fQ := x.l2fQ, f2lQ := x.f2lQ, waiting := x.waiting.filter Transfer.dark }

/-- A plot at field reset release: loading where an image is recorded (R81, R201, R514). -/
def Plot.fieldStart (p : Plot) : Plot :=
  { p with st := if p.addr.isSome then .loading else .none, blocks := 0#24, ro := 0#24, bays := 0#96, ibase := 0, isize := 0
           dbase := 0, dsize := 0 }

/-- Field reset releases (R15, R41 step 4, R69, R90, R92, R399, R417, R612, R646, R670); what CAL_LOAD and CAL_UTC_SET hold for
the next tick goes, by their Field restart values (R388), but for the UTC of a TIME SET (R200, log 62). -/
def State.releaseField (s : State) : State :=
  let s := s.modSys fun y =>
    { y with fieldUp := true, fieldCause := y.nextFieldCause, fieldStarts := satInc 255 y.fieldStarts, clamps := 0xFFF#12 }
  { s with
    hng := s.hng.fieldStart, sow := s.sow.fieldReset true, gran := Granary.cold, env := {}, spi := {}, fans := {}
    tags := { ovr := s.tags.ovr }, mems := { s.mems with data := [], plotRam := [] }
    cal := { s.cal with loadLo := 0, load := none, utcLoad := s.cal.timeSet }
    bays := { unlocking := s.bays.unlocking, lockNotes := s.bays.lockNotes
              bay := Vector.ofFn fun i =>
                (vget s.bays.bay i.val).fieldStart (if s.locked i.val then .locked else s.restingState i.val) }
    plots := s.plots.map Plot.fieldStart }

/-- FIELD-RESET-RELEASE. -/
def execFieldResetRelease (s : State) : Res :=
  goOn (if s.sys.kst = .waking && s.sys.pll = .locked && !s.sys.fieldUp then s.releaseField else s)

/-! ### The field sequence -/

/-- The field functions in the order of R76, without the plots. -/
def fieldOrder : List Fn :=
  [.field, .sower, .granary] ++ (List.range 12).map Fn.baysRow ++ [.envelope, .ledger, .tenancy]

/-- The field function is the next to announce. -/
def State.fieldTurn (s : State) (f : Fn) : Bool := s.sys.fieldUp && s.turnOf fieldOrder f

/-! #### The board descriptor -/

/-- What the board's SPI NOR reads as where it is erased. -/
def flashByte : Nat → Byte := fun _ => 0xFF#8

/-- The descriptor is valid (R394). -/
def boardOk (l : List Byte) : Bool :=
  l.take 4 = [0x57#8, 0x5A#8, 0x42#8, 0x44#8] && unitAt l 4 2 = 1 && crc32c (l.take 124) = unitAt l 124 4
    && (List.range 24).all fun i => unitAt l (8 + 2 * i) 2 ≠ 0

/-- The largest code whose threshold does not exceed the current, 1 to `top` (R395): `i` in 0.01 A, `sh` the shunt code,
`d` the code's weight. -/
def threshold (i sh d top : Nat) : Nat := max 1 (min top (i * sh / d))

/-- The registers of a rail from the descriptor's words at `o`, over shunt code `sh` (R395, R411). -/
def boardChan (l : List Byte) (o sh : Nat) : Chan :=
  { isrc := min 63 (unitAt l (o + 8) 1 - 1), fast := threshold (unitAt l o 2) sh 32000 63
    slow := threshold (unitAt l (o + 2) 2) sh 4000 255, blank := min 4095 (unitAt l (o + 4) 2)
    dly := max 1 (min 1023 (unitAt l (o + 6) 2)) }

/-- The registers of a rail without a valid descriptor (R394), at 5.00 mΩ. -/
def defaultChan (r : Rail) : Chan :=
  match r with
  | .main => { isrc := 9, fast := threshold 3000 500 32000 63, slow := threshold 300 500 4000 255, blank := 2000, dly := 500 }
  | .aux => { isrc := 9, fast := threshold 1000 500 32000 63, slow := threshold 200 500 4000 255, blank := 2000, dly := 500 }

/-- Every channel takes its registers, and every row its shunts (R394, R395). -/
def State.setBoard (s : State) (main aux : Nat → Chan) (sm sa : Nat → Nat) : State :=
  let s := (List.range 96).foldl (fun s n =>
    (s.programAll n .main (main (n / 8))).programAll n .aux (aux (n / 8))) s
  s.modBays fun b => { b with shuntM := Vector.ofFn fun i => sm i.val, shuntA := Vector.ofFn fun i => sa i.val }

/-- Firmware reads the board descriptor, writes every row's registers, and begins to prove the rails on demand, bay 0 first
(R393 to R395, R424). -/
def State.readBoard (s : State) : State :=
  let l := Mem.gets flashByte s.mems.flash 0 128
  let sm := fun r => unitAt l (8 + 4 * r) 2
  let sa := fun r => unitAt l (10 + 4 * r) 2
  let s := if boardOk l then s.setBoard (fun r => boardChan l 56 (sm r)) (fun r => boardChan l 72 (sa r)) sm sa
    else (s.setBoard (fun _ => defaultChan .main) (fun _ => defaultChan .aux) (fun _ => 500) (fun _ => 500)).notice "^BOARD DEFAULT"
  (s.modBays fun b => { b with bay := b.bay.map fun x => { x with proofDone := false } }).proofRun 0

/-! #### FIELD -/

/-- Handles that wait run again in this field start: those that a fault has hit are replayed, the others begin (R88, R274,
R276). -/
def State.replayField (s : State) : State :=
  s.hnd.opens.foldl (fun s h => match s.openAt h.kk h.seq with
    | some h =>
      if !h.waiting || !h.isLive then s
      else if h.hit = .none then s.modOpen h.kk h.seq fun h => { h with waiting := false }
      else s.replay h
    | none => s) s

/-- The plots that this field start loads. -/
def State.recordedPlots (s : State) : List Nat := (List.range 16).filter fun t => (s.plotAt t).addr.isSome

/-- Every field function after FIELD goes down with it (R75). -/
def State.needField (s : State) : State :=
  (fieldOrder.drop 1 ++ s.recordedPlots.map Fn.plot).foldl (fun s f => s.isDown f (f.name ++ " NEEDS FIELD")) s

/-- A replayed handle whose last function is `f` has a copy that is not durable yet, so that it cannot be posted before the
function's notice (R274, R276). -/
def State.copyDue (s : State) (f : Fn) : Bool :=
  s.hnd.opens.any fun h =>
    h.copying && h.compl.isNone && (s.needsOf h.form).contains f && s.allUp ((s.needsOf h.form).filter fun g => g ≠ f)

/-- A field function announces: the handles that wait for it are posted before its notice (R276). -/
def State.announceField (s : State) (f : Fn) : State :=
  (({ s with up := s.up ++ [f] } : State).runDue).notice ("^READY " ++ f.name)

/-- No pulse of a fan has been seen in this field start, and its time runs from now (R174). The count of R177 begins anew too: DESIGN
CHOICE (log 114), since no rule says what the ticks between field reset release and `^READY FIELD` count. -/
def Fans.timed (f : Fans) (k : Nat) : Fans := { f with readyTick := some k, fan := f.fan.map fun x => { x with seen := false, low := 0 } }

/-- FIELD announces: the state becomes FIELD, the tags are shown, the board descriptor is read, and the handles that wait
run (R41 step 5, R79, R83, R174, R394). -/
def State.fieldReady (s : State) : State :=
  let s := (s.modSys fun y => { y with kst := .field }).modTags fun t => { t with en := true }
  ((s.showTags.announceField .field).modFans fun f => f.timed s.cal.tick).readBoard.runDue

/-- READY-FIELD: the handles that wait are replayed, and the notice follows once the copies of those that need nothing more
are durable (R276). Without a good keeper ROM and boot test, REST steps 5 to 7 follow, and the WAKE fails (R75, R79). -/
def execReadyField (romOk : Bool) (s : State) : Res :=
  goOn (if !s.fieldTurn .field || s.sys.kst ≠ .waking then s
    else if romOk then
      let s := s.replayField
      if s.copyDue .field then s else s.fieldReady
    else ((s.isDown .field "FIELD ROM-CHECK").needField).wakeFails 3 0x87)

/-! #### SOWER, GRANARY, BAYS, ENVELOPE, LEDGER, TENANCY, PLOT -/

/-- The field queues of R641: queue, limit, urgency. -/
def fieldQueues : List (Nat × Nat × Nat) :=
  [(0, 16, 2), (1, 256, 1), (2, 64, 2), (3, 64, 2), (4, 64, 1), (5, 128, 1), (6, 128, 3), (54, 64, 3), (55, 64, 2)]
    ++ (List.range 16).map fun p => (24 + p, 64, 1)

/-- The field queues are configured; those not listed have limit 1 (R641). -/
def State.setFieldQueues (s : State) : State :=
  let s := (List.range 56).foldl (fun s q => s.setQueue q 1 0) s
  fieldQueues.foldl (fun s x => s.setQueue x.1 x.2.1 x.2.2) s

/-- READY-SOWER (R633, R641, R352): the tick items of Q58 from before are served without copies. -/
def execReadySower (s : State) : Res :=
  goOn (if !s.fieldTurn .sower then s
    else (s.lcTicks.setFieldQueues.writeGroups.modSow fun w => { w with dispatch := true }).announceField .sower)

/-- The quotas of T0 to T15 as stored, for the mode (R197, R654). -/
def State.setQuotas (s : State) (g : Granary) : Granary :=
  (List.range 16).foldl (fun g t =>
    let q := (vget s.sdb.ten t).quotas
    if g.sized then (List.range 4).foldl (fun g p => g.setQuota t p (vget q (p + 1))) g else g.setQuota t 0 (vget q 0)) g

/-- The minima of the keeper units (R653). -/
def Granary.setMinima (g : Granary) : Granary :=
  keeperMinima.foldl (fun g x =>
    if g.sized then x.2.2.zipIdx.foldl (fun g y => g.setMin x.1 y.2 y.1) g else g.setMin x.1 0 x.2.1) g

/-- READY-GRANARY (R651, R653, R654). -/
def execReadyGranary (s : State) : Res :=
  goOn (if !s.fieldTurn .granary then s
    else ({ s with gran := (s.setQuotas (s.gran.setMode s.sdb.granSized)).setMinima } : State).announceField .granary)

/-- Each rail of the row has been proved on demand in this field start, whatever its bay's state, and a lock-out that came of
one has been noticed (R80, R424). What the checker's agreement reads does not hold the notice back (R80). -/
def State.rowProved (s : State) (r : Nat) : Bool :=
  (List.range 8).all fun j => (s.bayAt (8 * r + j)).proofDone && !s.lockOutDue (8 * r + j)

/-- READY-BAYS-ROW: once the row's rails are proved; the row's clamps release (R41 step 6, R80, R399, R424). -/
def execReadyBaysRow (r : Fin 12) (s : State) : Res :=
  goOn (if !s.fieldTurn (.baysRow r.val) || !s.rowProved r.val || s.copyDue (.baysRow r.val) then s
    else
      let s := s.announceField (.baysRow r.val)
      (s.modSys fun y => { y with clamps := putBit y.clamps r.val false }).runDue)

/-- READY-ENVELOPE: the guard's registers hold the stored values (R431). -/
def execReadyEnvelope (s : State) : Res :=
  goOn (if !s.fieldTurn .envelope || s.copyDue .envelope then s else s.guardWords.announceField .envelope)

/-- READY-LEDGER (R76). -/
def execReadyLedger (s : State) : Res :=
  goOn (if !s.fieldTurn .ledger || s.copyDue .ledger then s else s.announceField .ledger)

/-- WAKE handles complete DONE at TENANCY (R82, R143): those whose COMMITTED record is durable now, the others with it (R261,
`State.advance`). -/
def State.wakesDone (s : State) : State :=
  s.hnd.opens.foldl (fun s h =>
    if h.form = .wake && h.running && h.phase = .committed && !s.recordsDue h.kk h.seq then s.retire h.kk h.seq (complDone [] false)
    else s) s

/-- READY-TENANCY: the grants of bay ports are written (R82, R516). -/
def execReadyTenancy (s : State) : Res :=
  goOn (if !s.fieldTurn .tenancy || s.copyDue .tenancy then s else (s.writeBayGrants.announceField .tenancy).wakesDone.runDue)

/-- A PLOT LOAD or PLOT UNLOAD of Tt is under way. -/
def State.plotBusy (s : State) (t : Nat) : Bool :=
  s.hnd.opens.any fun h => h.running && h.compl.isNone && (match h.form with
    | .plotLoad u _ => u = t
    | .plotUnload u => u = t
    | _ => false)

/-- Plot `t` waits for its image of this field start. -/
def State.plotLoading (s : State) (t : Nat) : Bool :=
  (s.plotAt t).addr.isSome && (s.plotAt t).st = .loading && !s.plotBusy t

/-- Plot `t` is the next to be loaded (R76). -/
def State.plotTurn (s : State) (t : Nat) : Bool :=
  s.sys.fieldUp && s.isUp .tenancy && s.plotLoading t && !(List.range t).any s.plotLoading

/-- A plot whose wake request caused this field start learns why (R209). -/
def State.tellWoken (s : State) (t : Nat) : State :=
  if s.sys.wakeCause.contains (.plot t) then
    let w := [header 0 (0x61 + t) t 0x0203]
    s.hwPost (24 + t) (.hw w) w
  else s

/-- READY-PLOT: the image is loaded, or the plot is down (R81, R522). -/
def execReadyPlot (p : Ten) (s : State) : Res :=
  let t := p.val
  goOn (if !s.plotTurn t || s.copyDue (.plot t) then s
    else
      let a := ((s.plotAt t).addr).getD 0
      let r := s.findImage t a
      if r.1 ≠ 0 then
        ((s.modPlot t fun x => { x with st := .down (imageReason r.1) }).isDown (.plot t)
          ("PLOT " ++ decText t ++ " " ++ imageReason r.1)).runDue
      else (((s.startPlot t a r.2.1 r.2.2).announceField (.plot t)).tellWoken t).runDue)

end Sys2Proof.Machine
end

