-- ==== Sys2Proof/Machine/Ports.lean ====
section
/-! DEFINITION. The I/O port map (R671 to R673): which accesses are refused, which ports lie in which domain, and what a
read or a write of each port does, under the table that lists it. Core 6 is LC; `t` is the accessing thread. -/

namespace Sys2Proof.Machine

/-! ### Domains and refusals -/

/-- Ports of the latch domain (R646, R671). -/
def latchPort (p : Nat) : Bool :=
  p < 0x40 || (0x100 ≤ p && p < 0x200) || (0x278 ≤ p && p < 0x280) || (0x2F8 ≤ p && p < 0x300)
    || (0x3F0 ≤ p && p < 0x400) || (0x600 ≤ p && p < 0xB00) || (0xC00 ≤ p && p < 0xD00) || (0xE00 ≤ p && p < 0xF00)

/-- Ports of the field domain. -/
def fieldPort (p : Nat) : Bool := p < 0x1800 && !latchPort p

/-- Blocks that a plot may hold, all of them read-only but the Granary (R671, R678). -/
def plotBlock (b : Nat) : Bool := [0x04, 0x05, 0x0A, 0x0D, 0x0F, 0x16, 0x17].contains b

/-- The Granary ports that a plot may use (R668). -/
def plotGranary (p : Nat) (write : Bool) : Bool :=
  if write then 0x440 ≤ p && p < 0x460 else (0x404 ≤ p && p < 0x408) || (0x480 ≤ p && p < 0x500)

/-- An access of plot thread `t` is refused (R512, R515, R516, R668, R671). -/
def State.plotRefuses (s : State) (t p : Nat) (write : Bool) : Bool :=
  let g := vget s.plots (plotOf t)
  let b := p / 256
  if 0x10 ≤ b ∧ b < 0x16 then write || !g.bays.getLsbD ((p - 0x1000) / 16)
  else !plotBlock b || !g.blocks.getLsbD b
    || (write && (g.ro.getLsbD b || b ≠ 4)) || (b = 4 && !plotGranary p write)

/-- R671 or a port table refuses a field core's access. -/
def coreRefuses (p : Nat) (write : Bool) : Bool :=
  p = 0x106 || (0x3F0 ≤ p && p < 0x400) || (0x600 ≤ p && p < 0xA00) || (0xE00 ≤ p && p < 0xF00)
    || (write && ((8 ≤ p && p ≤ 10) || (0xA00 ≤ p && p < 0xB00) || (0xC00 ≤ p && p < 0xD00)))

/-- The access traps PORT (R555, R672). -/
def State.refuses (s : State) (k t p : Nat) (write : Bool) : Bool :=
  (isPlot t && s.plotRefuses t p write) || (k < 6 && coreRefuses p write)

/-- The access is a hinge transfer (R50, R545). -/
def hingePort (k p : Nat) : Bool := (0x100 ≤ p && p < 0x200) || (if k = 6 then fieldPort p else latchPort p)

/-- A field core's hinge transfer moves the round robin (R54). -/
def State.granted (s : State) (k : Nat) : State := if k < 6 then s.modHng fun x => { x with lastFc := k } else s

/-- The side of the hinge that core `k` is on. -/
def whoOf (k : Nat) : Who := if h : k < 6 then .fc ⟨k, h⟩ else .lc

/-! ### System ports -/

/-- SYS_STATUS STATE. -/
def KState.code : KState → Nat
  | .latch => 0
  | .waking => 1
  | .field => 2
  | .resting => 3

/-- SYS_STATUS. -/
def State.sysStatus (s : State) : Nat :=
  s.sys.kst.code + 4 * bitNat s.sys.fieldUp + 8 * bitNat s.sys.head + 16 * bitNat (s.sys.clamps ≠ 0#12)

/-- SYS_CAUSE. -/
def State.sysCause (s : State) : Nat :=
  s.sys.coldCause + 16 * s.sys.fieldCause + 256 * s.sys.fieldStarts + 65536 * s.sys.lastLoss

/-- SYS_ID. -/
def sysId : Nat := 0x4896 + 0xA1 * 65536 + bitNat Config.ext * 2 ^ 24

/-- SYS_ALERT: PIN reads 0 while the keeper asserts; released, it is an input, and free (R692, log 15). -/
def State.readAlert (s : State) : Nat × State :=
  if s.sys.alert then (1, s)
  else
    let d := s.draw
    (2 * bitNat ((Config.freeWord d.1).getLsbD 0), d.2)

/-- A read of a system port. -/
def State.readSystem (s : State) (p : Nat) : Nat × State :=
  match p with
  | 0 => (s.sysStatus, s)
  | 1 => (s.sysCause, s)
  | 2 => (Config.serial.toNat % pow32, s)
  | 3 => (Config.serial.toNat / pow32, s)
  | 4 => (sysId, s)
  | 5 => s.readAlert
  | 8 => (fieldAt s.sys.lockLatch.toNat 0 32, s)
  | 9 => (fieldAt s.sys.lockLatch.toNat 32 32, s)
  | 10 => (fieldAt s.sys.lockLatch.toNat 64 32, s)
  | _ => (0, s)

/-- A write of SYS_LOCKi: each bit that the write changes is a set or a clear (R430). -/
def State.writeLocks (s : State) (i v : Nat) : State :=
  (List.range 32).foldl (fun s j => s.writeLock (32 * i + j) (bitAt v j)) s

/-- A write of a system port by core `k`. -/
def State.writeSystem (s : State) (k p v : Nat) : State :=
  match p with
  | 5 => if k = 6 then s.modSys fun y => { y with alert := bitAt v 0 } else s
  | 8 => s.writeLocks 0 v
  | 9 => s.writeLocks 1 v
  | 10 => s.writeLocks 2 v
  | _ => s

/-! ### Plot grants and windows -/

/-- Offset `o` of plot `p`'s ports, as read (R514). -/
def Plot.readGrant (g : Plot) (o : Nat) : Nat :=
  match o with
  | 0 => g.blocks.toNat
  | 1 => g.ro.toNat
  | 2 => fieldAt g.bays.toNat 0 32
  | 3 => fieldAt g.bays.toNat 32 32
  | 4 => fieldAt g.bays.toNat 64 32
  | 5 => g.ibase + 256 * g.isize
  | 6 => g.dbase + 256 * g.dsize
  | _ => 0

/-- Word `i` of a bay map replaced. -/
def putWord (m : BitVec 96) (i v : Nat) : BitVec 96 :=
  (m &&& ~~~(BitVec.ofNat 96 ((pow32 - 1) * pow32 ^ i))) ||| BitVec.ofNat 96 (v % pow32 * pow32 ^ i)

/-- Offset `o` of a plot's ports, as written (R515, R516). -/
def Plot.writeGrant (g : Plot) (o v : Nat) : Plot :=
  match o with
  | 0 => { g with blocks := BitVec.ofNat 24 v &&& BitVec.ofNat 24 grantMask }
  | 1 => { g with ro := BitVec.ofNat 24 v }
  | 2 => { g with bays := putWord g.bays 0 v }
  | 3 => { g with bays := putWord g.bays 1 v }
  | 4 => { g with bays := putWord g.bays 2 v }
  | 5 => { g with ibase := fieldAt v 0 5, isize := fieldAt v 8 6 }
  | 6 => { g with dbase := fieldAt v 0 8, dsize := fieldAt v 8 9 }
  | _ => g

/-! ### Sower ports -/

/-- SOW_SPILL. -/
def Sower.spillPort (w : Sower) : Nat := w.spill.length + 256 * w.spilled

/-- A read of a Sower port by core `k`. -/
def State.readSower (s : State) (k p : Nat) : Nat × State :=
  let c := s.core k
  if 0x240 ≤ p ∧ p < 0x280 then (s.readSowQ (p - 0x240), s)
  else if 0x280 ≤ p ∧ p < 0x300 then (s.readSowT (p - 0x280), s)
  else if 0x300 ≤ p ∧ p < 0x378 then (fieldAt (s.th (p - 0x300)).listen.toNat 0 32, s)
  else if 0x378 ≤ p ∧ p < 0x3F0 then (fieldAt (s.th (p - 0x378)).listen.toNat 32 24, s)
  else if 0x208 ≤ p ∧ p < 0x210 then (vget s.sow.weights (p - 0x208), s)
  else if 0x211 ≤ p ∧ p < 0x217 then ((vget c.stVal (p - 0x211)).toNat, s)
  else if 0x228 ≤ p ∧ p < 0x22E then (s.readCore (p - 0x228), s)
  else match p with
    | 0x200 => (s.readSowCtl, s)
    | 0x201 => (s.used true + 65536 * s.limitSum true 64 0, s)
    | 0x203 => (s.sow.flushed + 65536 * s.sow.rej, s)
    | 0x204 => (s.sow.spillPort, s)
    | 0x210 => (c.stSel, s)
    | 0x218 => (c.cxTid + 256 * c.cxWord, s)
    | 0x219 => let r := s.contextAccess k false none
               (r.1.toNat, r.2)
    | 0x21C => (c.flSel, s)
    | 0x21D => (s.flowStat c.flSel, s)
    | 0x220 => (s.readTrCtl, s)
    | 0x221 => (s.sow.trace.length + 65536 * s.sow.trMissed, s)
    | 0x222 => (s.sow.trIdx, s)
    | 0x223 => let r := s.readTrLo
               (r.1.toNat, r.2)
    | 0x224 => (s.sow.trHi.toNat, s)
    | 0x3F0 => (s.used false + 65536 * s.limitSum false 64 0, s)
    | 0x3F1 => (s.sow.lcxTid + 256 * s.sow.lcxWord, s)
    | 0x3F2 => let r := s.contextAccess k true none
               (r.1.toNat, r.2)
    | 0x3F3 => (s.sow.dropped + 65536 * s.sow.rejL + 2 ^ 24 * s.sow.flushedL, s)
    | 0x3F5 => (s.readCore 6, s)
    | _ => (0, s)

/-- Replace word `i` of a listen mask. -/
def putListen (m : BitVec 64) (hi : Bool) (v : Nat) : BitVec 64 :=
  if hi then BitVec.ofNat 64 (m.toNat % pow32 + v % 2 ^ 24 * pow32) else BitVec.ofNat 64 (m.toNat / pow32 * pow32 + v % pow32)

/-- A write of a Sower port by core `k`; WORD 46..63 of a context selection selects no word. -/
def State.writeSower (s : State) (k p v : Nat) : State :=
  if 0x240 ≤ p ∧ p < 0x280 then s.writeSowQ (p - 0x240) v
  else if 0x280 ≤ p ∧ p < 0x300 then s.writeSowT (p - 0x280) k v
  else if 0x300 ≤ p ∧ p < 0x378 then s.modTh (p - 0x300) fun h => { h with listen := putListen h.listen false v }
  else if 0x378 ≤ p ∧ p < 0x3F0 then s.modTh (p - 0x378) fun h => { h with listen := putListen h.listen true v }
  else if 0x208 ≤ p ∧ p < 0x210 then s.writeWeight (p - 0x208) v
  else match p with
    | 0x200 => s.writeSowCtl k v
    | 0x202 => if bitAt v 8 && fieldAt v 0 6 < 56 then s.flush (fieldAt v 0 6) k else s
    | 0x210 => s.writeStSel k v
    | 0x218 => s.modCore k fun c => { c with cxTid := fieldAt v 0 7, cxWord := fieldAt v 8 6 }
    | 0x219 => (s.contextAccess k false (some (wordOf v))).2
    | 0x21C => s.modCore k fun c => { c with flSel := fieldAt v 0 10 }
    | 0x220 => s.writeTrCtl v
    | 0x222 => s.modSow fun w => { w with trIdx := fieldAt v 0 12 }
    | 0x3F1 => s.modSow fun w => { w with lcxTid := fieldAt v 0 7, lcxWord := fieldAt v 8 6 }
    | 0x3F2 => (s.contextAccess k true (some (wordOf v))).2
    | 0x3F4 => if bitAt v 8 && 56 ≤ fieldAt v 0 6 then s.flush (fieldAt v 0 6) k else s
    | _ => s

/-! ### Granary ports -/

/-- The requester of a TAKE or GIVE: a plot's own number, whatever the port names (R668). -/
def requester (t r : Nat) : Nat := if isPlot t then plotOf t else r

/-- GRN_MAP: word `w` of pool `p`'s bitmap, 0 beyond the pool's count. -/
def Granary.mapWord (g : Granary) (p w : Nat) : Nat :=
  if poolUsed g.sized p then
    (List.range 32).foldl (fun n i => n + (if 32 * w + i < poolBuffers p && g.bit p (32 * w + i) then 2 ^ i else 0)) 0
  else 0

/-- The pool that a selection names: in single mode only pool 0 is used. -/
def Granary.poolSel (g : Granary) (p : Nat) : Nat := if g.sized then p else 0

/-- A read of a Granary port by thread `t` of core `k` (R656, R669, R670). -/
def State.readGranary (s : State) (k t p : Nat) : Nat × State :=
  let c := s.core k
  let g := s.gran
  if 0x480 ≤ p ∧ p < 0x500 then
    if k = 6 then (0, s)
    else
      let r := g.take (requester t ((p - 0x480) / 4)) (p % 4)
      (r.1.toNat, s.modGran fun _ => r.2)
  else if 0x404 ≤ p ∧ p < 0x408 then (g.free (p - 0x404), s)
  else match p with
    | 0x400 => (bitNat g.sized, s)
    | 0x401 => (g.fails + 65536 * g.rej, s)
    | 0x410 => (c.rsReq + 256 * c.rsPool, s)
    | 0x411 => (g.quotaOf c.rsReq (g.poolSel c.rsPool), s)
    | 0x412 => (g.minOf c.rsReq (g.poolSel c.rsPool), s)
    | 0x413 => (g.inuseOf c.rsReq (g.poolSel c.rsPool), s)
    | 0x414 => (c.msWord + 256 * c.msPool, s)
    | 0x415 => (g.mapWord c.msPool c.msWord, s)
    | _ => (0, s)

/-- A write of a Granary port by thread `t` of core `k` (R651, R655, R661): LC may only read the block, and its GIVE has no effect
(R669, R671). -/
def State.writeGranary (s : State) (k t p v : Nat) : State :=
  let c := s.core k
  if k = 6 then s
  else if 0x440 ≤ p ∧ p < 0x460 then s.modGran fun g => g.give (requester t (p - 0x440)) (wordOf v)
  else match p with
    | 0x400 => s.modGran fun g => g.setMode (bitAt v 0)
    | 0x410 => s.modCore k fun c => { c with rsReq := fieldAt v 0 5, rsPool := fieldAt v 8 2 }
    | 0x411 => s.modGran fun g => g.setQuota c.rsReq (g.poolSel c.rsPool) (fieldAt v 0 13)
    | 0x412 => s.modGran fun g => g.setMin c.rsReq (g.poolSel c.rsPool) (fieldAt v 0 13)
    | 0x414 => s.modCore k fun c => { c with msWord := fieldAt v 0 7, msPool := fieldAt v 8 2 }
    | _ => s

/-! ### Console and ring ports -/

/-- A read of a console port (R674). -/
def State.readConsole (s : State) (p : Nat) : Nat × State :=
  let x := s.con
  match p with
  | 0x600 => (x.rx.length + (16 - x.txUsed) * 65536 + bitNat x.rts * 2 ^ 24 + bitNat x.cts * 2 ^ 25, s)
  | 0x601 => (x.baud + 4 * bitNat x.xon, s)
  | 0x602 => (match x.rx with
    | [] => (0, s)
    | c :: _ => (c.toNat + 256, s.readConRx))
  | 0x604 => (x.framing, s)
  | 0x605 => (x.overrun, s)
  | _ => (0, s)

/-- A write of a console port (R674). Turning XON off ends the effect of an XOFF received (R99), and no flow character is due any
longer (R96). -/
def State.writeConsole (s : State) (p v : Nat) : State :=
  match p with
  | 0x601 =>
    s.modCon fun x =>
      { x with baud := fieldAt v 0 2, xon := bitAt v 2, stopped := x.stopped && bitAt v 2
               flowDue := if bitAt v 2 then x.flowDue else none }
  | 0x603 => s.modCon fun x => x.writeTx (BitVec.ofNat 8 v)
  | _ => s

/-- RNG_STATUS STATE. -/
def State.ringCode (s : State) : Nat :=
  if !s.isUp .ring then 0
  else if s.ringBroken then 2
  else match s.ring.st with
    | .pending => 0
    | .ok => 1
    | .broken => 2
    | .alone => 3
    | .overflow => 4

/-- RNG_STATUS. -/
def State.rngStatus (s : State) : Nat :=
  let r := s.ring
  r.number.getD 0 + 256 * bitNat r.number.isSome + 512 * bitNat s.sys.head + 1024 * s.ringCode + 8192 * bitNat r.upDead
    + 16384 * bitNat r.holdIn + 32768 * bitNat r.holdOut + 65536 * bitNat r.passOut + 131072 * r.count

/-- A read of a ring port (R328). -/
def State.readRing (s : State) (p : Nat) : Nat × State :=
  let r := s.ring
  match p with
  | 0x700 => (s.rngStatus, s)
  | 0x701 => (bitNat r.term + 2 * bitNat r.bypass, s)
  | 0x702 => (r.after + 256 * bitNat r.known + 512 * bitNat r.event, s)
  | 0x703 => (r.dropped, s)
  | 0x704 => (r.overrun + 65536 * r.looped, s)
  | 0x705 => (r.returned + 65536 * r.stale, s)
  | 0x706 => (r.notices, s)
  | 0x708 => (match r.rx with
    | [] => (0, s)
    | x :: _ => (x.toNat + 512, s.modRing Ring.readRx))
  | 0x70A => (2048 - r.insUsed, s)
  | _ => (0, s)

/-- A write of a ring port (R329). -/
def State.writeRing (s : State) (p v : Nat) : State :=
  match p with
  | 0x701 =>
    let s := s.modRing fun r => { r with term := bitAt v 0, bypass := bitAt v 1 }
    if bitAt v 2 then s.startPass else s
  | 0x702 => s.modRing fun r => { r with event := r.event && !bitAt v 9 }
  | 0x709 => if bitAt v 9 then s.cancelTx else s.writeTx (BitVec.ofNat 9 v)
  | _ => s

/-! ### Furrow, seedbank and calendar ports -/

/-- A read of a furrow port (R284). -/
def State.readFurrow (s : State) (p : Nat) : Nat :=
  if 0x810 ≤ p ∧ p < 0x820 then (vget s.fur.buf (p - 0x810)).toNat
  else if p = 0x800 then s.furStatus
  else if p = 0x801 then s.fur.line
  else if p = 0x803 then s.fur.writes
  else 0

/-- A write of a furrow port (R284, R285). -/
def State.writeFurrow (s : State) (p v : Nat) : State :=
  if 0x810 ≤ p ∧ p < 0x820 then s.modFur fun f => { f with buf := vset f.buf (p - 0x810) (wordOf v) }
  else if p = 0x800 then s.modFur fun f => { f with verifyFail := f.verifyFail && !bitAt v 2 }
  else if p = 0x801 then s.modFur fun f => { f with line := fieldAt v 0 12 }
  else if p = 0x802 then s.furCmd v
  else s

/-- A read of a seedbank port. -/
def State.readSeedbank (s : State) (p : Nat) : Nat :=
  if 0x940 ≤ p ∧ p < 0x980 then (vget s.sdb.buf (p - 0x940)).toNat
  else if p = 0x900 then s.sdbStatus
  else if p = 0x901 then s.sdb.page
  else 0

/-- A write of a seedbank port (R361). -/
def State.writeSeedbank (s : State) (p v : Nat) : State :=
  if 0x940 ≤ p ∧ p < 0x980 then s.modSdb fun d => { d with buf := vset d.buf (p - 0x940) (wordOf v) }
  else if p = 0x900 then s.modSdb fun d => { d with verifyFail := d.verifyFail && !bitAt v 1 }
  else if p = 0x901 then s.modSdb fun d => { d with page := fieldAt v 0 8 }
  else if p = 0x902 then s.sdbCmd v
  else s

/-- A read of a calendar port by thread `t` (R388). -/
def State.readCalendar (s : State) (t p : Nat) : Nat × State :=
  let c := s.cal
  match p with
  | 0xA00 => s.readTickLo t
  | 0xA01 => (vget c.capture t, s)
  | 0xA02 => (if c.utcSet then c.utc else 0, s)
  | 0xA03 => (bitNat c.utcSet + 2 * bitNat c.ticked, s)
  | 0xA07 => (c.tickQ + 256 * bitNat c.post, s)
  | _ => (0, s)

/-- A write of a calendar port (R388). -/
def State.writeCalendar (s : State) (p v : Nat) : State :=
  match p with
  | 0xA03 => s.modCal fun c => { c with ticked := c.ticked && !bitAt v 1 }
  | 0xA04 => s.modCal fun c => { c with loadLo := v }
  | 0xA05 => s.loadCount v
  | 0xA06 => s.setUtc v
  | 0xA07 => s.modCal fun c => { c with tickQ := fieldAt v 0 6, post := bitAt v 8 }
  | _ => s

/-! ### SPI (R675, R676) -/

def State.modSpi (s : State) (f : Spi → Spi) : State := { s with spi := f s.spi }

/-- A GO that starts no transfer (R676). -/
def Spi.badGo (x : Spi) : Bool :=
  x.len < 4 || 4096 < x.len || x.len % 4 ≠ 0 || x.dest % 4 ≠ 0
    || !(x.dest < 0x40000 || (0x10000000 ≤ x.dest && x.dest < 0x10100000))

/-- A write of GO (R676). -/
def Spi.go (x : Spi) : Spi :=
  if x.job.isSome then x else if x.badGo then { x with err := true } else { x with job := some (x.addr, x.dest, x.len) }

/-- Where a word of a transfer goes, as a core's store would. -/
def spiPlace (a : Nat) : Option DataAt :=
  if a < 0x40000 then some (.sram a)
  else if 0x10000000 ≤ a ∧ a < 0x10100000 then some (.granary (a - 0x10000000))
  else none

/-- The flash byte at `a`; beyond 16 MiB, where the port does not reach, free event `d` gives it (log 16). -/
def State.flashAt (s : State) (d a : Nat) : Byte :=
  if a < 16777216 then Mem.get flashByte s.mems.flash a else Config.damagedByte d (a - 16777216)

/-- Move `n` words from flash address `a` to data address `b`; a word beyond the memories goes nowhere (log 16). -/
def State.spiMove (s : State) (d a b : Nat) : Nat → State
  | 0 => s
  | n + 1 =>
    let v := leNat ((List.range 4).map fun i => s.flashAt d (a + i))
    let s := match spiPlace b with
      | some x => s.writeData x 4 v
      | none => s
    s.spiMove d (a + 4) (b + 4) n

/-- The transfer ends (R676). -/
def State.spiEnds (s : State) : State :=
  match s.spi.job with
  | none => s
  | some (a, b, n) =>
    let d := s.draw
    (d.2.spiMove d.1 a b (n / 4)).modSpi fun x => { x with job := none, done := true }

/-- A read of an SPI port. -/
def Spi.read (x : Spi) (p : Nat) : Nat :=
  match p with
  | 0xB00 => bitNat x.job.isSome + 2 * bitNat x.done + 4 * bitNat x.err
  | 0xB01 => x.cmd
  | 0xB02 => x.addr
  | 0xB03 => x.dest
  | 0xB04 => x.len
  | _ => 0

/-- A write of an SPI port. -/
def Spi.write (x : Spi) (p v : Nat) : Spi :=
  match p with
  | 0xB00 => { x with done := x.done && !bitAt v 1, err := x.err && !bitAt v 2 }
  | 0xB01 =>
    let x := { x with cmd := fieldAt v 0 2 }
    if bitAt v 8 then x.go else x
  | 0xB02 => { x with addr := fieldAt v 0 24 }
  | 0xB03 => { x with dest := v }
  | 0xB04 => { x with len := fieldAt v 0 13 }
  | _ => x

/-! ### The map (R671) -/

/-- TRC_STAMP. -/
def State.readStamp (s : State) : Nat × State :=
  let s := s.stamped
  (s.sow.stampTime, s)

/-- Row ADC ports as read. -/
def State.readAdc (s : State) (p : Nat) : Nat :=
  if p < 0x16C0 then s.readVmeas ((p - 0x1600) / 16) (p % 16)
  else if p < 0x16CC then vget s.bays.shuntM (p - 0x16C0) + 65536 * vget s.bays.shuntA (p - 0x16C0)
  else 0

/-- A read of port `p` that is not refused, by thread `t` of core `k`. -/
def State.readPort (s : State) (k t p : Nat) : Nat × State :=
  if p < 0x40 then s.readSystem p
  else if p < 0xC0 then ((vget s.plots ((p - 0x40) / 8)).readGrant (p % 8), s)
  else if 0x1000 ≤ p ∧ p < 0x1600 then 
    let s := if p % 16 = 1 then s.lookBay ((p - 0x1000) / 16) else s
    (s.readBayPort ((p - 0x1000) / 16) (p % 16), s)
  else match p / 256 with
    | 0x01 => (s.hng.read p, s)
    | 0x02 => s.readSower k p
    | 0x03 => s.readSower k p
    | 0x04 => s.readGranary k t p
    | 0x05 => if p = 0x500 then s.readStamp else (0, s)
    | 0x06 => s.readConsole p
    | 0x07 => s.readRing p
    | 0x08 => (s.readFurrow p, s)
    | 0x09 => (s.readSeedbank p, s)
    | 0x0A => s.readCalendar t p
    | 0x0B => (s.spi.read p, s)
    | 0x0C => (s.readKeyPort (p - 0xC00), s)
    | 0x0D => (s.readTagPort (p - 0xD00), s)
    | 0x0E => (s.readFacePort (p - 0xE00), s)
    | 0x0F => (s.readFanPort (p - 0xF00), s)
    | 0x16 => (s.readAdc p, s)
    | 0x17 => s.readEnvPort (p - 0x1700)
    | _ => (0, s)

/-- A write of port `p` that is not refused, by thread `t` of core `k`. -/
def State.writePort (s : State) (k t p : Nat) (w : Word) : State :=
  let v := w.toNat
  if p < 0x40 then s.writeSystem k p v
  else if p < 0xC0 then s.modPlot ((p - 0x40) / 8) fun g => g.writeGrant (p % 8) v
  else if 0x1000 ≤ p ∧ p < 0x1600 then s.writeBayPort ((p - 0x1000) / 16) (p % 16) v
  else match p / 256 with
    | 0x01 => if s.sys.fieldUp then s.writeHinge (whoOf k) p w else s
    | 0x02 => s.writeSower k p v
    | 0x03 => s.writeSower k p v
    | 0x04 => s.writeGranary k t p v
    | 0x06 => s.writeConsole p v
    | 0x07 => s.writeRing p v
    | 0x08 => s.writeFurrow p v
    | 0x09 => s.writeSeedbank p v
    | 0x0A => s.writeCalendar p v
    | 0x0B => s.modSpi fun x => x.write p v
    | 0x0C => s.writeKeyPort (p - 0xC00) v
    | 0x0D => s.writeTagPort (p - 0xD00) v
    | 0x0E => s.writeFacePort (p - 0xE00) v
    | 0x0F => s.writeFanPort (p - 0xF00) v
    | 0x16 => if 0x16C0 ≤ p ∧ p < 0x16CC then s.writeShunt (p - 0x16C0) v else s
    | 0x17 => s.writeEnvPort (p - 0x1700) v
    | _ => s

/-- LC's access to a field-domain port while the field is down: a read returns 0 and a write is ignored (R545, R672). -/
def State.portDark (s : State) (k p : Nat) : Bool := k = 6 && fieldPort p && !s.sys.fieldUp

/-- The access as the keeper serves it: the word read, and the state. -/
def State.inPort (s : State) (k t p : Nat) : Word × State :=
  if s.portDark k p then (0#32, s)
  else
    let r := (if hingePort k p then s.granted k else s).readPort k t p
    (wordOf r.1, r.2)

def State.outPort (s : State) (k t p : Nat) (w : Word) : State :=
  if s.portDark k p then s else (if hingePort k p then s.granted k else s).writePort k t p w

/-- The core of a side of the hinge. -/
def coreOfWho : Who → Nat
  | .lc => 6
  | .fc k => k.val

/-! ### SPI as a command -/

/-- SPI-DONE (R676). -/
def execSpiDone (s : State) : Res := onField s State.spiEnds

end Sys2Proof.Machine
end

