-- ==== Sys2Proof/Machine/Arbiter.lean ====
section
/-! DEFINITION. The hinge arbiter: transfers of LC and of the field cores, in one cycle or held (R50 to R57, R545), the
posts that cross the hinge (R580), and the accesses of either side as commands. -/

namespace Sys2Proof.Machine

/-! ### POST and POSTE -/

/-- The oldest entry of core `k`'s port write buffer takes effect (R554). -/
def State.drainOne (s : State) (k : Nat) : State :=
  match (s.core k).wbuf with
  | [] => s
  | (p, w) :: l => (s.modCore k fun c => { c with wbuf := l }).outPort k k p.toNat w

/-- Entries take effect in their order. -/
def State.drain (k : Nat) : Nat → State → State
  | 0, s => s
  | n + 1, s => State.drain k n (s.drainOne k)

/-- The other cores whose buffers may hold entries of the thread that core `k` runs, which ran there before. -/
def State.leftOn (s : State) (k : Nat) : List Nat :=
  (List.range 6).filter fun j => j ≠ k && (s.core k).run.any fun t => (s.core j).leftBy.contains t

/-- Every entry of core `k` takes effect, and those that its thread left on other cores: what an IN, a FENCE and the end of an
item wait for (R554, R556, R572). -/
def State.drainAll (s : State) (k : Nat) : State :=
  let s := (s.leftOn k).foldl (fun s j => State.drain j (s.core j).wbuf.length s) s
  State.drain k (s.core k).wbuf.length s

/-- The words of an item as it becomes visible: the header's LEN, and its TENANCY for a plot (R571). -/
def sealed (t : Nat) (words : List Word) : List Word :=
  match words with
  | [] => []
  | w :: l =>
    header l.length (fieldAt w.toNat 20 10) (if isPlot t then plotOf t else fieldAt w.toNat 16 4) (fieldAt w.toNat 0 16) :: l

/-- LC posts toward a field queue while the field is down (R580). -/
def State.postDark (s : State) (k q : Nat) : Bool := k = 6 && fieldQ q && !s.sys.fieldUp

/-- A post to the queue crosses the hinge (R580). -/
def crosses (k q : Nat) : Bool := if k = 6 then fieldQ q else !fieldQ q

/-- A plot may post to the queue (R512). -/
def postAllowed (t q : Nat) : Bool := !isPlot t || q = 24 + plotOf t || q = 55

def State.setOpen (s : State) (t : Nat) (o : Option OpenItem) : State := s.modTh t fun h => { h with openItem := o }

/-- A word joins the open item `o` of thread `t`; `last` where POSTE posts it (R570 to R573, R580). -/
def State.append (s : State) (k t : Nat) (o : OpenItem) (w : Word) (last : Bool) : State :=
  match o.flushed with
  | some (p, n) =>
    if last || p + n + 1 = 4 then s.flushEnd k t o p (n + 1) else s.setOpen t (some { o with flushed := some (p, n + 1) })
  | none =>
    let words := o.words ++ [w]
    let ends := last || words.length = 4
    if o.dropped || s.postDark k o.q then
      if ends then (s.setOpen t none).modSow fun x => { x with dropped := satInc 65535 x.dropped }
      else s.setOpen t (some { o with words := words, dropped := true })
    else if ends then ((s.drainAll k).setOpen t none).visible o.q (sealed t words)
    else s.setOpen t (some { o with words := words })

/-- DETAIL of WAITSPACE: 0 the depth limit, 1 the store part (R643). DESIGN CHOICE (log 83): 0 where both leave room and the
thread waits behind an earlier claimant alone. -/
def State.lacks (s : State) (q : Nat) : Nat :=
  if (s.que q).limit ≤ s.placeCount q then 0 else if partSize (fieldQ q) ≤ s.used (fieldQ q) then 1 else 0

/-- The thread enters WAITSPACE at its POST (R570, R634). -/
def State.waitSpace (s : State) (k t q : Nat) (w : Word) (last : Bool) : State :=
  let s := if last then s.drainAll k else s
  let s := s.trace k 5 t q (fieldAt w.toNat 20 10) (s.lacks q)
  let s := s.modTh t fun h => { h.settle with st := .waitspace, wait := some { q := q, w := w, last := last } }
  (s.await q (.thread t)).freeCore k

/-- POST and POSTE of word `w` naming queue `q`. -/
def State.post (s : State) (k t q : Nat) (w : Word) (last : Bool) : Did :=
  match (s.th t).openItem with
  | some o => .went (s.append k t o w last)
  | none =>
    let o : OpenItem := { q := q, words := [], flushed := none, dropped := false }
    if !postAllowed t q then .trapped 2 (wordOf (q + 131072))
    else if s.postDark k q || (s.hasRoom q && (s.waiter q).isNone) then .went (s.append k t o w last)
    else .left (s.waitSpace k t q w last)

/-! ### Transfers -/

/-- The port of an access. -/
def Move.port : Move → Nat
  | .read p _ => p
  | .write p _ => p
  | .post q _ _ => q

/-- The word of a read reaches its register: after two delay slots, which count from here, of the thread that runs on its
core; a thread stopped meanwhile has it at once (R57, R504). A read for no register, or for g0, writes none. -/
def State.toReg (s : State) (k t rd : Nat) (v : Word) : State :=
  if rd = 0 then s
  else s.modTh t fun h => if (s.core k).run = some t then h.delay rd v 2 else h.putReg rd v

/-- The instruction that made a transfer has completed: its thread goes on at the next one (R57). -/
def State.completes (s : State) (x : Transfer) : State :=
  if x.ins && (s.th x.tid).st ≠ .idle then s.goPc x.tid (s.th x.tid).pc (nextPc (s.th x.tid).pc) else s

/-- Field reset has been asserted since the transfer was asked for, and its port lies in the field domain (R673). -/
def Transfer.lost (x : Transfer) : Bool := x.dark && fieldPort x.move.port

/-- A transfer moves its word and completes (R53, R54); where field reset has been asserted meanwhile, a read of a field-domain
port gives 0 and a write has no effect (R673). -/
def State.hingeGrant (s : State) (x : Transfer) : State :=
  match x.move with
  | .read p rd =>
    let r := if x.lost then (0#32, s) else s.inPort x.core x.tid p
    (r.2.toReg x.core x.tid rd r.1).completes x
  | .write p w => (if x.lost then s else s.outPort x.core x.tid p w).completes x
  | .post q w last =>
    match (s.granted x.core).post x.core x.tid q w last with
    | .went s => s.completes x
    | .left s => s
    | _ => s

/-- The transfer that a core stalled at has completed, which is an instruction boundary: the stop of its core or of its thread
that waited for one comes about (R57, R65, R614). -/
def State.boundary (s : State) (x : Transfer) : State :=
  if s.stalled x.core then s
  else
    let s := if (s.core x.core).halting then s.expire x.core else s
    if (s.th x.tid).stopping then s.stopNow x.tid x.core else s

/-- A transfer that waited is granted. -/
def State.lateGrant (s : State) (x : Transfer) : State := (s.hingeGrant x).boundary x

/-- The first held transfer is granted; where none is held, the first that waits its turn (R54, R56). -/
def State.heldGrant (s : State) : State :=
  match s.hng.waiting with
  | x :: l => (s.modHng fun h => { h with waiting := l }).lateGrant x
  | [] =>
    match s.hng.asking with
    | x :: l => (s.modHng fun h => { h with asking := l }).lateGrant x
    | [] => s

/-- Every held transfer is granted, ahead of later requests (R56). -/
def State.heldGrants (s : State) : State := s.hng.waiting.foldl (fun s _ => s.heldGrant) s

/-- Requests of field cores that fall in the same cycle, in the order of R54. -/
def robin (last : Nat) (l : List Transfer) : List Transfer :=
  (List.range 6).flatMap fun i => l.filter fun x => x.core = (last + 1 + i) % 6

/-- One grant among the requests of LC and of the field cores, in their order (R53 to R56): a tie goes to the side that
TIE_NEXT names; the side that loses it is held, and the other field cores wait their turn. -/
def State.arbitrate (s : State) (lat : Option Transfer) (fld : List Transfer) : State :=
  let late := s.hng.asking
  match lat, fld with
  | none, [] => s
  | some a, [] => s.hingeGrant a
  | none, b :: l =>
    let s := s.modHng fun x => { x with asking := l }
    if late.contains b then s.lateGrant b else s.hingeGrant b
  | some a, b :: l =>
    let field := s.hng.tieField
    let s := s.modHng fun x =>
      { x with tieField := !field, ties := (x.ties + 1) % 65536, waiting := [if field then a else b], asking := l }
    if field && late.contains b then s.lateGrant b else s.hingeGrant (if field then b else a)

/-- Requests of one cycle: held transfers go before them (R56), and a request of LC meets those of field cores that still
wait their turn in a tie (R55). -/
def State.atCycle (s : State) (lat : Option Transfer) (fld : List Transfer) : State :=
  let s := s.heldGrants
  s.arbitrate lat (s.hng.asking ++ robin s.hng.lastFc fld)

/-- One request, of core `x.core` (R53 to R56). -/
def State.transfer (s : State) (x : Transfer) : State := if x.core = 6 then s.atCycle (some x) [] else s.atCycle none [x]

/-- An access that nothing refuses: a hinge transfer where it crosses the hinge in field state (R51, R545), otherwise served
at once. -/
def State.accessed (s : State) (x : Transfer) : State :=
  if s.sys.fieldUp && hingePort x.core x.move.port then s.transfer x else s.hingeGrant x

/-! ### Accesses as commands -/

/-- The thread that makes an access of core `k`: the one that runs there, otherwise the core's first keeper thread. -/
def State.accessor (s : State) (k : Nat) : Nat := (s.core k).run.getD (if k = 6 then 120 else k)

/-- The side can access port `p`: it runs, its core is not stopped (R65), no access of it waits (R57), and nothing refuses the access. A refused access is a
trap of its instruction, and no access (R526, R555). -/
def State.mayAccess (s : State) (k p : Nat) (write : Bool) : Bool :=
  !s.sys.inReset && (k = 6 || s.sys.fieldUp) && !s.stalled k && !(s.core k).stopped && !s.refuses k (s.accessor k) p write

/-- An access of core `k` outside any instruction of the model. -/
def State.accessOf (s : State) (k : Nat) (m : Move) : Transfer := { core := k, tid := s.accessor k, move := m, ins := false }

/-- A write of a port by a side of the hinge: the entries of its write buffer take effect before it (R554, R660), and the word written
may depend on what they leave. -/
def State.wroteOf (s : State) (who : Who) (p : Nat) (v : State → Nat) : State :=
  let k := coreOfWho who
  if s.mayAccess k p true then (s.drainAll k).accessed (s.accessOf k (.write p (wordOf (v (s.drainAll k))))) else s

def State.wrote (s : State) (who : Who) (p v : Nat) : State := s.wroteOf who p fun _ => v

/-- A read of a port by a side of the hinge, which waits for the entries of its write buffer (R554, R660). -/
def State.didRead (s : State) (who : Who) (p : Nat) : State :=
  let k := coreOfWho who
  if s.mayAccess k p false then (s.drainAll k).accessed (s.accessOf k (.read p 0)) else s

/-- The transfer that a request of core `k` asks for. -/
def State.asked (s : State) (k : Nat) (a : Access) : Transfer :=
  s.accessOf k (match a.write with
    | some w => .write a.port.toNat w
    | none => .read a.port.toNat a.rd.val)

/-- The request is for a hinge transfer that nothing refuses (R50, R545). In latch state there is none (R51). -/
def State.requests (s : State) (who : Who) (a : Access) : Bool :=
  let k := coreOfWho who
  s.sys.fieldUp && hingePort k a.port.toNat && s.mayAccess k a.port.toNat a.write.isSome

/-- The write buffers of some field cores drain, by core number: which core's entries come first the spec leaves open (log 95). -/
def State.drainCores (s : State) (l : List Nat) : State :=
  (List.range 6).foldl (fun s n => if l.contains n then s.drainAll n else s) s

/-- HINGE-TRANSFER-REQUEST: requests of LC and of field cores in one cycle. Earlier port writes of these field cores have taken effect
(R554). -/
def execHingeTransferRequest (lat : Option Access) (fld : List (Fin 6 × Access)) (s : State) : Res :=
  onLatch s fun s =>
    let l := fld.filter fun p => s.requests (.fc p.1) p.2
    (s.drainCores (l.map fun p => p.1.val)).atCycle ((lat.filter fun a => s.requests .lc a).map (s.asked 6))
      (l.map fun p => s.asked p.1.val p.2)

/-- HINGE-HELD-GRANT. -/
def execHingeHeldGrant (s : State) : Res := onLatch s State.heldGrant

/-! #### Mailboxes and the heartbeat -/

/-- The control port and the first word port of a mailbox. -/
def boxCtlPort (b : Box) : Nat := if b = .l2f then 0x101 else 0x102
def boxWordPort (b : Box) : Nat := if b = .l2f then 0x110 else 0x120

def execMailboxClaim (who : Who) (box : Box) (s : State) : Res := goOn (s.wrote who (boxCtlPort box) 1)
def execMailboxPost (who : Who) (box : Box) (count : BitVec 5) (s : State) : Res :=
  goOn (s.wrote who (boxCtlPort box) (2 + 16 * count.toNat))
def execMailboxRelease (who : Who) (box : Box) (s : State) : Res := goOn (s.wrote who (boxCtlPort box) 4)
def execMailboxWordWrite (who : Who) (box : Box) (i : Fin 16) (w : Word) (s : State) : Res :=
  goOn (s.wrote who (boxWordPort box + i.val) w.toNat)
def execMailboxForceFree (box : Box) (s : State) : Res := goOn (s.wrote .lc 0x106 (if box = .l2f then 1 else 2))

/-- HEARTBEAT-TOUCH: a write of HNG_HEART, which traps in a plot and touches nothing (R52, R66). -/
def execHeartbeatTouch (k : Fin 6) (s : State) : Res := goOn (s.wrote (.fc k) 0x103 1)

/-! #### Registers -/

/-- REGISTER-WRITE (R14). -/
def execRegisterWrite (who : Who) (port : BitVec 16) (v : Word) (s : State) : Res := goOn (s.wrote who port.toNat v.toNat)

/-- ALERT-WRITE: LC writes SYS_ALERT ASSERT (R692). -/
def execAlertWrite (on : Bool) (s : State) : Res := goOn (s.wrote .lc 5 (bitNat on))

/-- QUEUE-FLUSH (R636). -/
def execQueueFlush (who : Who) (q : Fin 64) (s : State) : Res :=
  goOn (s.wrote who (if q.val < 56 then 0x202 else 0x3F4) (q.val + 256))

def execSowQWrite (who : Who) (q : Fin 64) (v : Word) (s : State) : Res := goOn (s.wrote who (0x240 + q.val) v.toNat)

/-- SOW_CTL with its MODE, DISPATCH and PREEMPT. -/
def sowCtlOf (mode on : Bool) (mask : BitVec 6) : Nat := bitNat mode + 2 * bitNat on + 256 * mask.toNat

def execSowModeWrite (who : Who) (affinity : Bool) (s : State) : Res :=
  goOn (s.wroteOf who 0x200 fun d => sowCtlOf affinity d.sow.dispatch d.sow.preempt)

def execSowDispatchWrite (who : Who) (on : Bool) (s : State) : Res :=
  goOn (s.wroteOf who 0x200 fun d => sowCtlOf d.sow.affinity on d.sow.preempt)

def execSowPreemptWrite (who : Who) (mask : BitVec 6) (s : State) : Res :=
  goOn (s.wroteOf who 0x200 fun d => sowCtlOf d.sow.affinity d.sow.dispatch mask)

def execSowWeightWrite (who : Who) (g : Fin 8) (w : Byte) (s : State) : Res := goOn (s.wrote who (0x208 + g.val) w.toNat)

def execSowStatsSelect (who : Who) (sel : BitVec 7) (s : State) : Res := goOn (s.wrote who 0x210 sel.toNat)

/-- SOW-STATS-CLEAR: CLEAR written with the selection that the core holds. -/
def execSowStatsClear (who : Who) (s : State) : Res := goOn (s.wroteOf who 0x210 fun d => (d.core (coreOfWho who)).stSel + 256)

def execContextWindowAccess (who : Who) (latch : Bool) (write : Option Word) (s : State) : Res :=
  let p := if latch then 0x3F2 else 0x219
  goOn (match write with
    | some w => s.wrote who p w.toNat
    | none => s.didRead who p)

def execTracePortClear (who : Who) (s : State) : Res := goOn (s.wroteOf who 0x220 fun d => d.readTrCtl + 512)

def execTraceRead (who : Who) (s : State) : Res := goOn (s.didRead who 0x223)

def execGranaryTake (k : CoreId) (r : Fin 32) (sl : Fin 4) (s : State) : Res :=
  goOn (s.didRead (whoOf k.val) (0x480 + 4 * r.val + sl.val))

def execGranaryGive (k : CoreId) (r : Fin 32) (addr : Word) (s : State) : Res :=
  goOn (s.wrote (whoOf k.val) (0x440 + r.val) addr.toNat)

def execGranaryModeWrite (who : Who) (sized : Bool) (s : State) : Res := goOn (s.wrote who 0x400 (bitNat sized))

/-- A write of a quota or minimum: the selection, which finds the write buffer drained, then the value. -/
def State.wroteSel (s : State) (who : Who) (r p port v : Nat) : State :=
  let k := coreOfWho who
  let s := s.wrote who 0x410 (r + 256 * p)
  if s.mayAccess k port true then s.accessed (s.accessOf k (.write port (wordOf v))) else s

def execGranaryMinWrite (who : Who) (r : Fin 32) (p : Fin 4) (v : BitVec 13) (s : State) : Res :=
  goOn (s.wroteSel who r.val p.val 0x412 v.toNat)

def execGranaryQuotaWrite (who : Who) (r : Fin 32) (p : Fin 4) (v : BitVec 13) (s : State) : Res :=
  goOn (s.wroteSel who r.val p.val 0x411 v.toNat)

/-- SPI-GO: SPI_CTL with its CMD and GO. -/
def execSpiGo (who : Who) (s : State) : Res := goOn (s.wroteOf who 0xB01 fun d => d.spi.cmd + 256)

end Sys2Proof.Machine
end

