-- ==== Sys2Proof/Machine/Arith.lean ====
section
/-! DEFINITION. The multiply and divide instructions (R586 to R591) and the decimal instructions (R592 to R596). -/

namespace Sys2Proof.Machine

/-- An interlocked result of one register, with no flags. -/
def plainInter (u : Unit') (rd : Nat) (v : Word) (pc : Nat) : Inter :=
  { unit := u, rd := rd, lo := v, hi := none, dc := none, dinv := false, flags := 0#5, pc := pc }

/-- The instruction makes an interlocked result of its thread. -/
def making (f : Thread → Inter) (s : State) (t : Nat) : Did := .went (s.modTh t fun h => h.interlock (f h))

/-- A multiply of one result word. -/
def mulTo (f : Word → Word → Word) (rd ra rb : Reg) : State → Nat → Did :=
  making fun h => plainInter .mul rd (f (h.reg ra) (h.reg rb)) h.pc

/-- A multiply of a pair: low word to rd, high word to rd + 1 (R541, R587). -/
def mulPair (f : Word → Word → BitVec 64) (rd ra rb : Reg) : State → Nat → Did :=
  making fun h =>
    let p := f (h.reg ra) (h.reg rb)
    { plainInter .mul rd (lowWord p) h.pc with hi := some (highWord p) }

/-- A pair needs an even rd (R541). -/
def oddPair (rd : Reg) (w : Word) : Nat → Option Word := undefIf (rd.val % 2 = 1) w

/-- MUL. -/
def execMul (k : CoreId) (rd ra rb : Reg) (s : State) : Res :=
  oluique s k always (mulTo (fun a b => lowWord (mulUnsigned a b)) rd ra rb)

/-- MULHS. -/
def execMulhs (k : CoreId) (rd ra rb : Reg) (s : State) : Res :=
  oluique s k always (mulTo (fun a b => highWord (mulSigned a b)) rd ra rb)

/-- MULHU. -/
def execMulhu (k : CoreId) (rd ra rb : Reg) (s : State) : Res :=
  oluique s k always (mulTo (fun a b => highWord (mulUnsigned a b)) rd ra rb)

/-- MULWS. -/
def execMulws (k : CoreId) (rd ra rb : Reg) (s : State) : Res :=
  oluique s k (oddPair rd (rWord 0x28 rd ra rb 0 3)) (mulPair mulSigned rd ra rb)

/-- MULWU. -/
def execMulwu (k : CoreId) (rd ra rb : Reg) (s : State) : Res :=
  oluique s k (oddPair rd (rWord 0x28 rd ra rb 0 4)) (mulPair mulUnsigned rd ra rb)

/-- A divide: IDIVZ at issue with dze 1 and a divisor of 0 (R589, R590). -/
def divTo (f : Word → Word → Word) (rd ra rb : Reg) (s : State) (t : Nat) : Did :=
  let h := s.th t
  if h.reg rb = 0#32 && h.flag tsDze then .trapped 7 (h.reg ra)
  else making (fun h => plainInter .div rd (f (h.reg ra) (h.reg rb)) h.pc) s t

/-- DIVS. -/
def execDivs (k : CoreId) (rd ra rb : Reg) (s : State) : Res := oluique s k always (divTo divSigned rd ra rb)

/-- DIVU. -/
def execDivu (k : CoreId) (rd ra rb : Reg) (s : State) : Res := oluique s k always (divTo divUnsigned rd ra rb)

/-- REMS. -/
def execRems (k : CoreId) (rd ra rb : Reg) (s : State) : Res := oluique s k always (divTo remSigned rd ra rb)

/-- REMU. -/
def execRemu (k : CoreId) (rd ra rb : Reg) (s : State) : Res := oluique s k always (divTo remUnsigned rd ra rb)

/-! ### Decimal -/

/-- A decimal instruction over its BCD operands: DINV at issue with dinve 1, otherwise dinv with the result (R593). -/
def decimal (ops : Thread → List Word) (f : Thread → Inter) (s : State) (t : Nat) : Did :=
  let h := s.th t
  match badOperand (ops h) with
  | some w =>
    if h.flag tsDinve then .trapped 13 w else making (fun h => { f h with dinv := true }) s t
  | none => making f s t

/-- DADD, DADDC, DSUB and DSUBC: the result and dc (R594, R596). -/
def decCarry (op : Word → Word → Bool → Word × Bool) (useDc : Bool) (rd ra rb : Reg) : State → Nat → Did :=
  decimal (fun h => [h.reg ra, h.reg rb]) fun h =>
    let r := op (h.reg ra) (h.reg rb) (useDc && h.flag tsDc)
    { plainInter .dec rd r.1 h.pc with dc := some r.2 }

/-- A decimal instruction of one operand and one result word. -/
def decOne (f : Word → Word) (rd ra : Reg) : State → Nat → Did :=
  decimal (fun h => [h.reg ra]) fun h => plainInter .dec rd (f (h.reg ra)) h.pc

/-- A result of 16 digits as a pair. -/
def decPair (rd : Nat) (n pc : Nat) : Inter :=
  { plainInter .dec rd (decWord (n % ten8)) pc with hi := some (decWord (n / ten8)) }

/-- DADD. -/
def execDadd (k : CoreId) (rd ra rb : Reg) (s : State) : Res := oluique s k always (decCarry decAdd false rd ra rb)

/-- DADDC. -/
def execDaddc (k : CoreId) (rd ra rb : Reg) (s : State) : Res := oluique s k always (decCarry decAdd true rd ra rb)

/-- DSUB. -/
def execDsub (k : CoreId) (rd ra rb : Reg) (s : State) : Res := oluique s k always (decCarry decSub false rd ra rb)

/-- DSUBC. -/
def execDsubc (k : CoreId) (rd ra rb : Reg) (s : State) : Res := oluique s k always (decCarry decSub true rd ra rb)

/-- DMULW. -/
def execDmulw (k : CoreId) (rd ra rb : Reg) (s : State) : Res :=
  oluique s k (oddPair rd (rWord 0x29 rd ra rb 0 4))
    (decimal (fun h => [h.reg ra, h.reg rb]) fun h => decPair rd (decOf (h.reg ra) * decOf (h.reg rb)) h.pc)

/-- DCVB reads a binary operand (R593, R594). -/
def execDcvb (k : CoreId) (rd ra : Reg) (s : State) : Res :=
  oluique s k (oddPair rd (rWord 0x29 rd ra 0 0 5)) (making fun h => decPair rd (h.reg ra).toNat h.pc)

/-- DCVD. -/
def execDcvd (k : CoreId) (rd ra : Reg) (s : State) : Res := oluique s k always (decOne (fun a => wordOf (decOf a)) rd ra)

/-- DSHL: a digit count above 8 is unassigned (R541). -/
def execDshl (k : CoreId) (rd ra : Reg) (n : Fin 32) (s : State) : Res :=
  oluique s k (undefIf (8 < n.val) (rWord 0x29 rd ra 0 n.val 7))
    (decOne (fun a => decWord (decOf a * 10 ^ n.val % ten8)) rd ra)

/-- DSHR. -/
def execDshr (k : CoreId) (rd ra : Reg) (n : Fin 32) (s : State) : Res :=
  oluique s k (undefIf (8 < n.val) (rWord 0x29 rd ra 0 n.val 8))
    (decOne (fun a => decWord (decOf a / 10 ^ n.val)) rd ra)

end Sys2Proof.Machine
end

