-- ==== Sys2Proof/Machine/Control.lean ====
section
/-! DEFINITION. Control transfers (R562 to R564), thread status (R565 to R568) and BRK (R569). -/

namespace Sys2Proof.Machine

/-- A branch taken where `test` holds of ra and rb (R562, R563). -/
def branch (test : Word → Word → Bool) (ra rb : Reg) (off : BitVec 16) (s : State) (t : Nat) : Did :=
  let h := s.th t
  if test (h.reg ra) (h.reg rb) then .jumped s (branchTarget h.pc off) else .went s

/-- A call: RSOVF at depth 12 with rsw 0, otherwise push and jump (R509 to R511). -/
def callTo (target : Thread → Nat) (s : State) (t : Nat) : Did :=
  let h := s.th t
  if h.rsd = 12 && !h.flag tsRsw then .trapped 5 12#32
  else .jumped (s.modTh t fun h => h.push (nextPc h.pc)) (target h)

/-- BEQ. -/
def execBeq (k : CoreId) (ra rb : Reg) (off : BitVec 16) (s : State) : Res :=
  oluique s k always (branch (fun a b => a == b) ra rb off)

/-- BNE. -/
def execBne (k : CoreId) (ra rb : Reg) (off : BitVec 16) (s : State) : Res :=
  oluique s k always (branch (fun a b => a != b) ra rb off)

/-- BLT. -/
def execBlt (k : CoreId) (ra rb : Reg) (off : BitVec 16) (s : State) : Res :=
  oluique s k always (branch (fun a b => a.slt b) ra rb off)

/-- BGE. -/
def execBge (k : CoreId) (ra rb : Reg) (off : BitVec 16) (s : State) : Res :=
  oluique s k always (branch (fun a b => !a.slt b) ra rb off)

/-- BLTU. -/
def execBltu (k : CoreId) (ra rb : Reg) (off : BitVec 16) (s : State) : Res :=
  oluique s k always (branch (fun a b => a.ult b) ra rb off)

/-- BGEU. -/
def execBgeu (k : CoreId) (ra rb : Reg) (off : BitVec 16) (s : State) : Res :=
  oluique s k always (branch (fun a b => !a.ult b) ra rb off)

/-- JMP. -/
def execJmp (k : CoreId) (off : BitVec 26) (s : State) : Res :=
  oluique s k always fun s t => .jumped s (jumpTarget (s.th t).pc off)

/-- CALL. -/
def execCall (k : CoreId) (off : BitVec 26) (s : State) : Res :=
  oluique s k always (callTo fun h => jumpTarget h.pc off)

/-- JR. -/
def execJr (k : CoreId) (ra : Reg) (s : State) : Res :=
  oluique s k always fun s t => .jumped s (registerTarget ((s.th t).reg ra))

/-- CALLR. -/
def execCallr (k : CoreId) (ra : Reg) (s : State) : Res :=
  oluique s k always (callTo fun h => registerTarget (h.reg ra))

/-- RET: RSUNF at depth 0 with rsw 0, otherwise jump to the entry at the pointer (R509 to R511). -/
def execRet (k : CoreId) (s : State) : Res :=
  oluique s k always fun s t =>
    let h := s.th t
    if h.rsd = 0 && !h.flag tsRsw then .trapped 6 0#32
    else .jumped (s.modTh t Thread.pop) h.top

/-- TSR (R565). -/
def execTsr (k : CoreId) (rd : Reg) (s : State) : Res :=
  oluique s k always fun s t => .went (s.modTh t fun h => h.putReg rd (tsWord t h))

/-- TS after TSW of `a` under mask `b` (R494, R495, R566). -/
def tsMerge (t : Nat) (ts : BitVec 20) (a b : Word) : BitVec 20 :=
  let m : BitVec 20 := b.setWidth 20 &&& (if 120 ≤ t then lcTsMask else 0xFFFFF#20)
  (ts &&& ~~~m) ||| (a.setWidth 20 &&& m)

/-- TSW (R566). -/
def execTsw (k : CoreId) (ra rb : Reg) (s : State) : Res :=
  oluique s k always fun s t => .went (s.modTh t fun h => { h with ts := tsMerge t h.ts (h.reg ra) (h.reg rb) })

/-- BRK traps BREAK with its immediate (R569). -/
def execBrk (k : CoreId) (imm : BitVec 16) (s : State) : Res :=
  oluique s k always fun _ _ => .trapped 15 (immZ imm)

end Sys2Proof.Machine
end

