-- ==== Sys2Proof/Machine/FloatIns.lean ====
section
/-! DEFINITION. The float instructions (R597 to R606). On LC each traps UNDEF (R585). -/

namespace Sys2Proof.Machine

/-- UNDEF on LC, with the instruction word as detail (R526, R585). -/
def notOnLc (w : Word) : Nat → Option Word := fun t => if 120 ≤ t then some w else none

/-- A float instruction: its result and the flags it raises, computed at issue with fm and rm (R568). -/
def floatTo (f : Bool → Nat → Thread → FRes) (rd : Reg) : State → Nat → Did :=
  fun s t => .went (s.modTh t fun h =>
    let r := f h.full h.rm h
    h.interlock { unit := .float, rd := rd, lo := r.1, hi := none, dc := none, dinv := false, flags := r.2, pc := h.pc })

/-- A float instruction of two operands. -/
def float2 (f : Bool → Nat → Word → Word → FRes) (rd ra rb : Reg) : State → Nat → Did :=
  floatTo (fun full rm h => f full rm (h.reg ra) (h.reg rb)) rd

/-- A float instruction of one operand. -/
def float1 (f : Bool → Nat → Word → FRes) (rd ra : Reg) : State → Nat → Did :=
  floatTo (fun full rm h => f full rm (h.reg ra)) rd

/-- FADD. -/
def execFadd (k : CoreId) (rd ra rb : Reg) (s : State) : Res :=
  oluique s k (notOnLc (rWord 0x2A rd ra rb 0 0)) (float2 fAdd rd ra rb)

/-- FSUB. -/
def execFsub (k : CoreId) (rd ra rb : Reg) (s : State) : Res :=
  oluique s k (notOnLc (rWord 0x2A rd ra rb 0 1)) (float2 fSub rd ra rb)

/-- FMUL. -/
def execFmul (k : CoreId) (rd ra rb : Reg) (s : State) : Res :=
  oluique s k (notOnLc (rWord 0x2A rd ra rb 0 2)) (float2 fMul rd ra rb)

/-- FDIV. -/
def execFdiv (k : CoreId) (rd ra rb : Reg) (s : State) : Res :=
  oluique s k (notOnLc (rWord 0x2A rd ra rb 0 3)) (float2 fDiv rd ra rb)

/-- FSQRT. -/
def execFsqrt (k : CoreId) (rd ra : Reg) (s : State) : Res :=
  oluique s k (notOnLc (rWord 0x2A rd ra 0 0 4)) (float1 fSqrt rd ra)

/-- FMADD; rc stands in sh (R541). -/
def execFmadd (k : CoreId) (rd ra rb rc : Reg) (s : State) : Res :=
  oluique s k (notOnLc (rWord 0x2A rd ra rb rc.val 5))
    (floatTo (fun full rm h => fMadd full rm (h.reg ra) (h.reg rb) (h.reg rc)) rd)

/-- FMIN. -/
def execFmin (k : CoreId) (rd ra rb : Reg) (s : State) : Res :=
  oluique s k (notOnLc (rWord 0x2A rd ra rb 0 6)) (float2 (fun full _ => fPick full false) rd ra rb)

/-- FMAX. -/
def execFmax (k : CoreId) (rd ra rb : Reg) (s : State) : Res :=
  oluique s k (notOnLc (rWord 0x2A rd ra rb 0 7)) (float2 (fun full _ => fPick full true) rd ra rb)

/-- FCMPEQ. -/
def execFcmpeq (k : CoreId) (rd ra rb : Reg) (s : State) : Res :=
  oluique s k (notOnLc (rWord 0x2A rd ra rb 0 8))
    (float2 (fun full _ => fCompare full false fun o => decide (o = 0)) rd ra rb)

/-- FCMPLT. -/
def execFcmplt (k : CoreId) (rd ra rb : Reg) (s : State) : Res :=
  oluique s k (notOnLc (rWord 0x2A rd ra rb 0 9))
    (float2 (fun full _ => fCompare full true fun o => decide (o < 0)) rd ra rb)

/-- FCMPLE. -/
def execFcmple (k : CoreId) (rd ra rb : Reg) (s : State) : Res :=
  oluique s k (notOnLc (rWord 0x2A rd ra rb 0 10))
    (float2 (fun full _ => fCompare full true fun o => decide (o ≤ 0)) rd ra rb)

/-- FCVTWS. -/
def execFcvtws (k : CoreId) (rd ra : Reg) (s : State) : Res :=
  oluique s k (notOnLc (rWord 0x2A rd ra 0 0 11)) (float1 fToInt rd ra)

/-- FCVTSW. -/
def execFcvtsw (k : CoreId) (rd ra : Reg) (s : State) : Res :=
  oluique s k (notOnLc (rWord 0x2A rd ra 0 0 12)) (float1 fOfInt rd ra)

/-- FNEG (R599). -/
def execFneg (k : CoreId) (rd ra : Reg) (s : State) : Res :=
  oluique s k (notOnLc (rWord 0x2A rd ra 0 0 13)) (float1 (fun _ _ a => (a ^^^ 0x80000000#32, 0#5)) rd ra)

/-- FABS (R599). -/
def execFabs (k : CoreId) (rd ra : Reg) (s : State) : Res :=
  oluique s k (notOnLc (rWord 0x2A rd ra 0 0 14)) (float1 (fun _ _ a => (a &&& 0x7FFFFFFF#32, 0#5)) rd ra)

end Sys2Proof.Machine
end

