-- ==== Sys2Proof/Machine/Integer.lean ====
section
/-! DEFINITION. The integer instructions (R547). -/

namespace Sys2Proof.Machine

/-- rd = op (ra, rb). -/
def rr (op : Word → Word → Word) (rd ra rb : Reg) (h : Thread) : Thread :=
  h.putReg rd (op (h.reg ra) (h.reg rb))

/-- rd = op (ra). -/
def ru (op : Word → Word) (rd ra : Reg) (h : Thread) : Thread := h.putReg rd (op (h.reg ra))

/-- rd = op (ra, rb, c), which also writes c. -/
def rc (op : Word → Word → Bool → Word × Bool) (useC : Bool) (rd ra rb : Reg) (h : Thread) : Thread :=
  let r := op (h.reg ra) (h.reg rb) (useC && h.flag tsC)
  (h.putReg rd r.1).setFlag tsC r.2

/-- Shift amount rb [4:0]. -/
def amount (b : Word) : Nat := b.toNat % 32

/-- NOP: nothing. -/
def execNop (k : CoreId) (s : State) : Res := oluique s k always (onThread id)

/-- ADD. -/
def execAdd (k : CoreId) (rd ra rb : Reg) (s : State) : Res := oluique s k always (onThread (rc addCarry false rd ra rb))

/-- SUB. -/
def execSub (k : CoreId) (rd ra rb : Reg) (s : State) : Res := oluique s k always (onThread (rc subBorrow false rd ra rb))

/-- ADDC. -/
def execAddc (k : CoreId) (rd ra rb : Reg) (s : State) : Res := oluique s k always (onThread (rc addCarry true rd ra rb))

/-- SUBC. -/
def execSubc (k : CoreId) (rd ra rb : Reg) (s : State) : Res := oluique s k always (onThread (rc subBorrow true rd ra rb))

/-- AND. -/
def execAnd (k : CoreId) (rd ra rb : Reg) (s : State) : Res := oluique s k always (onThread (rr (· &&& ·) rd ra rb))

/-- OR. -/
def execOr (k : CoreId) (rd ra rb : Reg) (s : State) : Res := oluique s k always (onThread (rr (· ||| ·) rd ra rb))

/-- XOR. -/
def execXor (k : CoreId) (rd ra rb : Reg) (s : State) : Res := oluique s k always (onThread (rr (· ^^^ ·) rd ra rb))

/-- SHL. -/
def execShl (k : CoreId) (rd ra rb : Reg) (s : State) : Res :=
  oluique s k always (onThread (rr (fun a b => a <<< amount b) rd ra rb))

/-- SHR. -/
def execShr (k : CoreId) (rd ra rb : Reg) (s : State) : Res :=
  oluique s k always (onThread (rr (fun a b => a >>> amount b) rd ra rb))

/-- SAR. -/
def execSar (k : CoreId) (rd ra rb : Reg) (s : State) : Res :=
  oluique s k always (onThread (rr (fun a b => a.sshiftRight (amount b)) rd ra rb))

/-- SLT. -/
def execSlt (k : CoreId) (rd ra rb : Reg) (s : State) : Res :=
  oluique s k always (onThread (rr (fun a b => truthWord (a.slt b)) rd ra rb))

/-- SLTU. -/
def execSltu (k : CoreId) (rd ra rb : Reg) (s : State) : Res :=
  oluique s k always (onThread (rr (fun a b => truthWord (a.ult b)) rd ra rb))

/-- CLZ. -/
def execClz (k : CoreId) (rd ra : Reg) (s : State) : Res :=
  oluique s k always (onThread (ru (fun a => wordOf (leadZeros a)) rd ra))

/-- POPC. -/
def execPopc (k : CoreId) (rd ra : Reg) (s : State) : Res :=
  oluique s k always (onThread (ru (fun a => wordOf (popCount a)) rd ra))

/-- SHLI. -/
def execShli (k : CoreId) (rd ra : Reg) (n : Fin 32) (s : State) : Res :=
  oluique s k always (onThread (ru (fun a => a <<< n.val) rd ra))

/-- SHRI. -/
def execShri (k : CoreId) (rd ra : Reg) (n : Fin 32) (s : State) : Res :=
  oluique s k always (onThread (ru (fun a => a >>> n.val) rd ra))

/-- SARI. -/
def execSari (k : CoreId) (rd ra : Reg) (n : Fin 32) (s : State) : Res :=
  oluique s k always (onThread (ru (fun a => a.sshiftRight n.val) rd ra))

/-- ADDI: it leaves c. -/
def execAddi (k : CoreId) (rd ra : Reg) (imm : BitVec 16) (s : State) : Res :=
  oluique s k always (onThread (ru (fun a => a + immS imm) rd ra))

/-- ANDI. -/
def execAndi (k : CoreId) (rd ra : Reg) (imm : BitVec 16) (s : State) : Res :=
  oluique s k always (onThread (ru (fun a => a &&& immZ imm) rd ra))

/-- ORI. -/
def execOri (k : CoreId) (rd ra : Reg) (imm : BitVec 16) (s : State) : Res :=
  oluique s k always (onThread (ru (fun a => a ||| immZ imm) rd ra))

/-- XORI. -/
def execXori (k : CoreId) (rd ra : Reg) (imm : BitVec 16) (s : State) : Res :=
  oluique s k always (onThread (ru (fun a => a ^^^ immZ imm) rd ra))

/-- SLTI. -/
def execSlti (k : CoreId) (rd ra : Reg) (imm : BitVec 16) (s : State) : Res :=
  oluique s k always (onThread (ru (fun a => truthWord (a.slt (immS imm))) rd ra))

/-- LUI. -/
def execLui (k : CoreId) (rd : Reg) (imm : BitVec 16) (s : State) : Res :=
  oluique s k always (onThread fun h => h.putReg rd (immZ imm <<< 16))

end Sys2Proof.Machine
end

