-- ==== Sys2Proof/Machine/PortIns.lean ====
section
/-! DEFINITION. IN, OUT and the port write buffer (R553 to R555), FENCE (R556), and POST and POSTE (R570 to R573, R580). -/

namespace Sys2Proof.Machine

/-! ### The port write buffer -/

/-- The port as the buffer holds it: a plot's GIVE names its own requester (R668). -/
def bufferedPort (t p : Nat) : Nat := if 0x440 ≤ p ∧ p < 0x460 then 0x440 + requester t (p - 0x440) else p

/-- An OUT is posted; a full buffer first drains its oldest entry (R554). -/
def State.buffer (s : State) (k t p : Nat) (w : Word) : State :=
  let s := if 4 ≤ (s.core k).wbuf.length then s.drainOne k else s
  s.modCore k fun c => { c with wbuf := c.wbuf ++ [(BitVec.ofNat 16 (bufferedPort t p), w)] }

/-- PORT-WRITE-DRAIN. -/
def execPortWriteDrain (k : Fin 6) (s : State) : Res := onField s fun s => s.drainOne k.val

/-! ### IN, OUT and FENCE -/

/-- The access of an instruction. -/
def insAccess (k t : Nat) (m : Move) : Transfer := { core := k, tid := t, move := m, ins := true }

/-- IN: two delay slots (R504, R553). The core stalls where its hinge transfer waits (R57). -/
def execPortIn (k : CoreId) (rd ra : Reg) (imm : BitVec 16) (s : State) : Res :=
  oluique s k always fun s t =>
    let p := portNumber ((s.th t).reg ra) imm
    if s.refuses k.val t p false then .trapped 2 (wordOf p)
    else .left ((s.drainAll k.val).accessed (insAccess k.val t (.read p rd.val)))

/-- OUT (R553, R554). -/
def execPortOut (k : CoreId) (rs ra : Reg) (imm : BitVec 16) (s : State) : Res :=
  oluique s k always fun s t =>
    let p := portNumber ((s.th t).reg ra) imm
    let w := (s.th t).reg rs
    if s.refuses k.val t p true then .trapped 2 (wordOf (p + 65536))
    else if k.val < 6 && fieldPort p then .went (s.buffer k.val t p w)
    else .left ((s.drainAll k.val).accessed (insAccess k.val t (.write p w)))

/-- FENCE (R556). -/
def execFence (k : CoreId) (s : State) : Res := oluique s k always fun s _ => .went (s.drainAll k.val)

/-! ### POST and POSTE -/

/-- The post of register rs, to the queue that ra + imm names, or that the open item has: a hinge transfer where it crosses
the hinge in field state (R570, R580). -/
def postBody (k : CoreId) (rs ra : Reg) (imm : BitVec 16) (last : Bool) (s : State) (t : Nat) : Did :=
  let q := ((s.th t).reg ra + immZ imm).toNat % 64
  let w := (s.th t).reg rs
  let at_ := ((s.th t).openItem.map OpenItem.q).getD q
  if s.sys.fieldUp && crosses k.val at_ && ((s.th t).openItem.isSome || postAllowed t q) then
    .left (s.transfer (insAccess k.val t (.post q w last)))
  else s.post k.val t q w last

/-- POST (R570). -/
def execPost (k : CoreId) (rs ra : Reg) (imm : BitVec 16) (s : State) : Res := oluique s k always (postBody k rs ra imm false)

/-- POSTE (R571). -/
def execPoste (k : CoreId) (rs ra : Reg) (imm : BitVec 16) (s : State) : Res := oluique s k always (postBody k rs ra imm true)

end Sys2Proof.Machine
end

