-- ==== Sys2Proof/Machine/Pins.lean ====
section
/-! DEFINITION. The digital signal balls as boundary scan sees them: their order (R679, R683, R697), what the keeper drives on each
(R687), and the cells that a capture takes (R694, R697). -/

namespace Sys2Proof.Machine

/-- The digital signal balls of R687; a number counts the balls of one name. -/
inductive Ball where
  | keyCol (n : Nat) | keyRow (n : Nat)
  | consTxd | consRxd | consRts | consCts
  | resetN | head | alertN | fieldEn | fieldPg
  | tck | tms | tdi | tdo | trstN | testmode
  | tagCol (n : Nat) | tagRow (n : Nat)
  | spiClk | spiCsN | spiIo (n : Nat)
  | fanPwm (n : Nat) | fanTach (n : Nat)
  | hlTxP | hlTxN | hlRxP | hlRxN | hlByp
  | hldOutP | hldOutN | hldInP | hldInN
  deriving DecidableEq, Repr

/-- The balls that have cells, in ascending row and then ascending column (R683, R697): the first lies nearest TDI. -/
def scanBalls : List Ball :=
  (List.range 32).map .keyCol ++ (List.range 16).map .keyRow ++ [.consTxd, .consRxd, .consRts, .consCts]
  ++ [.resetN, .head, .alertN, .fieldEn, .fieldPg, .tck, .tms, .tdi, .tdo, .trstN, .testmode]
  ++ (List.range 24).map .tagCol ++ (List.range 12).map .tagRow
  ++ [.spiClk, .spiCsN] ++ (List.range 4).map .spiIo ++ (List.range 8).map .fanPwm ++ (List.range 8).map .fanTach
  ++ [.hlTxP, .hlTxN, .hlRxP, .hlRxN, .hlByp, .hldOutP, .hldOutN, .hldInP, .hldInN]

/-- The balls that the keeper can drive, each with an output and an enable cell (R687, R697). -/
def Ball.drives : Ball → Bool
  | .keyRow _ | .consTxd | .consRts | .alertN | .fieldEn | .tdo | .tagCol _ | .tagRow _ | .spiClk | .spiCsN | .spiIo _
  | .fanPwm _ | .hlTxP | .hlTxN | .hlByp | .hldOutP | .hldOutN => true
  | _ => false

/-- The kinds of cell (R697). -/
inductive CellKind where
  | input | output | enable
  deriving DecidableEq, Repr

/-- The cells of a ball, in order (R697). -/
def Ball.cells (b : Ball) : List (Ball × CellKind) :=
  if b.drives then [(b, .input), (b, .output), (b, .enable)] else [(b, .input)]

/-- The boundary-scan register, the cell nearest TDI first (R697). -/
def scanCells : List (Ball × CellKind) := scanBalls.flatMap Ball.cells

/-- What the keeper puts on a ball: a level, nothing, or a signal whose level and drive at a moment no state of the model tells. -/
inductive Drive where
  | low | high | off | busy
  deriving DecidableEq, Repr

/-- The drive of a push-pull output, and of an open-drain output that pulls low. -/
def Drive.level (b : Bool) : Drive := if b then .high else .low
def Drive.pull (b : Bool) : Drive := if b then .low else .off

/-- What the keeper's own rules drive (R687): in reset, with field reset asserted, and in the field. A hold driver is on while HOLD
is asserted (R716). -/
def State.drive (s : State) (b : Ball) : Drive :=
  let reset := s.sys.inReset
  match b with
  | .keyRow _ => if reset || s.keys.run.isNone then .off else .busy
  | .consTxd => if reset || s.con.txUsed = 0 then .high else .busy
  | .consRts => .level (reset || s.con.rts)
  | .alertN => .pull (!reset && s.sys.alert)
  | .fieldEn => .level (!reset && s.sys.fieldEn)
  | .tagCol _ | .tagRow _ => if reset || !s.sys.fieldUp then .off else .busy
  | .spiClk => if reset || !s.sys.fieldUp then .off else if s.spi.job.isNone then .low else .busy
  | .spiCsN => if reset || !s.sys.fieldUp then .off else .level s.spi.job.isNone
  | .spiIo _ => if reset || !s.sys.fieldUp then .off else .busy
  | .fanPwm n =>
    if reset || !s.sys.fieldUp || 100 ≤ (vget s.fans.fan n).duty then .off
    else if (vget s.fans.fan n).duty = 0 then .low else .busy
  | .hlTxP | .hlTxN => if reset then .off else .busy
  | .hlByp => match s.hlByp with
    | some v => .level v
    | none => .off
  | .hldOutP => .pull (!reset && s.ring.holdOut)
  | .hldOutN => if !reset && s.ring.holdOut then .high else .off
  | _ => .off

/-- The cell of a ball and a kind among those loaded last. -/
def JtagPort.cell (j : JtagPort) (b : Ball) (k : CellKind) : Bool := j.cells.getD (scanCells.idxOf (b, k)) false

/-- What is driven on a ball: under EXTEST its output and enable cells, but FIELD_EN, which is held low (R694, R698). -/
def State.onBall (s : State) (b : Ball) : Drive :=
  if s.jtag.ins = .extest then
    if b = .fieldEn then .low
    else if b.drives && s.jtag.cell b .enable then .level (s.jtag.cell b .output) else .off
  else s.drive b

/-- The level of a ball where the model's state tells it: what the keeper drives, CONS_CTS, FIELD_PG while it is acted on (R37), and
the hold input, which reads 0 as HOLD (R311). -/
def State.ballLevel (s : State) (b : Ball) : Option Bool :=
  match s.onBall b with
  | .low => some false
  | .high => some true
  | _ =>
    match b with
    | .consCts => if s.sys.inReset then none else some s.con.cts
    | .fieldPg => if s.sys.fieldEn && !s.sys.inReset then some s.sys.fieldPg else none
    | .hldInP => if s.sys.inReset then none else some (!s.ring.holdIn)
    | .hldInN => if s.sys.inReset then none else some s.ring.holdIn
    | _ => none

/-- What a cell captures: the ball's level, the level that the keeper drives, or whether it drives; `seen` where no state tells. -/
def State.cellNow (s : State) (c : Ball × CellKind) (seen : Bool) : Bool :=
  match c.2 with
  | .input => (s.ballLevel c.1).getD seen
  | .output => match s.drive c.1 with
    | .low => false
    | .high => true
    | _ => seen
  | .enable => match s.drive c.1 with
    | .off => false
    | .busy => seen
    | _ => true

/-- A capture of the boundary-scan register, where the balls that no state tells read as in `seen` (R697, log 6). -/
def State.scanNow (s : State) (seen : List Bool) : List Bool :=
  scanCells.zipIdx.map fun c => s.cellNow c.1 (seen.getD c.2 false)

/-- The register as a scan of `l` leaves it: 282 cells, those that `l` does not give 0. -/
def scanLoad (l : List Bool) : List Bool := (List.range scanCells.length).map fun i => l.getD i false

end Sys2Proof.Machine
end

