-- ==== Sys2Proof/Machine/Jtag.lean ====
section
/-! DEFINITION. The JTAG port: instructions loaded (R693, R694), EXTEST (R698, R699), the debug accesses (R695) and
DBG_RESUME (R696). -/

namespace Sys2Proof.Machine

def State.modJtag (s : State) (f : JtagPort → JtagPort) : State := { s with jtag := f s.jtag }

/-- A scan of the instruction register: Capture-IR loads 0b000001, which is shifted out, and `c` is loaded (R693). DBG_RESET's source
ends where another instruction replaces it; a code that is not listed selects BYPASS (R694). -/
def State.loadCode (s : State) (c : BitVec 6) : State :=
  s.modJtag fun j => { j with ir := c, irOut := 1#6, dbgReset := j.dbgReset && jtagOf c = .dbgReset }

/-- The scan that loads the code of an instruction. -/
def State.loadIr (s : State) (i : Jtag) : State := s.loadCode i.code

/-- EXTEST (R698, R699): the cells drive the balls (`State.onBall`), and where FIELD_EN is high, that is a field loss of class F3. -/
def State.extest (s : State) : State :=
  let s := s.loadIr .extest
  if s.sys.fieldEn && !s.sys.inReset then s.fieldLost 3 "JTAG" else s

/-- The DBG_STATUS word (R694). -/
def State.dbgStatus (s : State) : Word :=
  let b := s.jtag.breakTid
  let parked := (s.th b).st = .faulted && (s.th b).trap = 15
  wordOf (s.sysStatus % 8 + 8 * bitNat (s.sys.clamps ≠ 0#12) + 16 * b + 2048 * bitNat parked
    + 4096 * (s.sys.coldCause % 16) + 65536 * 0x4896)

/-! ### Debug accesses (R695) -/

/-- The core and the thread that a debug access acts as. -/
def dbgCore (lcSide : Bool) : Nat := if lcSide then 6 else 0
def State.dbgTid (s : State) (lcSide : Bool) : Nat :=
  match (s.core (dbgCore lcSide)).run with
  | some t => if isPlot t then 0 else t
  | none => if lcSide then 120 else 0

/-- A place in the field domain, or in the latch domain, that is there now. -/
def State.dbgUp (s : State) (field : Bool) : Bool := !s.sys.inReset && (!field || s.sys.fieldUp)

/-- The data place of a debug access, where it is allowed. -/
def State.dbgData (s : State) (lcSide : Bool) (a : Nat) : Option DataAt :=
  if a % 4 ≠ 0 || !s.dbgUp (!lcSide) then none else s.dataAt (s.dbgTid lcSide) a

/-- The instruction place of a debug access, where it is allowed. -/
def State.dbgInstr (s : State) (lcSide : Bool) (a : Nat) : Option InstrAt :=
  if a % 4 ≠ 0 || !s.dbgUp (!lcSide) then none else s.instrAt (s.dbgTid lcSide) a

/-- The port access of a debug access is allowed. -/
def State.dbgPort (s : State) (lcSide : Bool) (p : Nat) (write : Bool) : Bool :=
  s.dbgUp (fieldPort p) && !s.refuses (dbgCore lcSide) (s.dbgTid lcSide) p write

/-- The context access is allowed: a keeper thread on FC0 reaches the field contexts, and LC reaches all. -/
def State.dbgContext (s : State) (lcSide : Bool) (t i : Nat) : Bool :=
  s.dbgUp (decide (t < 120)) && i < 46 && (lcSide || t < 120) && [TState.stopped, .idle, .ready, .faulted].contains (s.th t).st

/-- A port read that changes no port: what it draws is the model's own. A take port's word is free (log 17). -/
def State.peekPort (s : State) (lcSide : Bool) (p : Nat) : Word × State :=
  if 0x480 ≤ p && p < 0x500 && !lcSide then
    let d := s.draw
    (Config.freeWord d.1, d.2)
  else
    let r := s.inPort (dbgCore lcSide) (s.dbgTid lcSide) p
    (r.1, s.modSys fun y => { y with draws := r.2.sys.draws })

/-- What a DBG_READ reads, none where the access is not made. -/
def State.dbgPeek (s : State) (space : DbgSpace) (lcSide : Bool) (a : Nat) : Option Word × State :=
  match space with
  | .data => ((s.dbgData lcSide a).map fun x => wordOf (s.readData x 4), s)
  | .io =>
    let s := s.heldGrants
    if s.dbgPort lcSide (a % 65536) false then
      let r := s.peekPort lcSide (a % 65536)
      (some r.1, r.2)
    else (none, s)
  | .instr => ((s.dbgInstr lcSide (a % 16777216)).map s.readInstr, s)
  | .context =>
    let t := fieldAt a 0 7
    (if s.dbgContext lcSide t (fieldAt a 8 6) then some ((s.th t).context t (fieldAt a 8 6)) else none, s)

/-- What a DBG_WRITE leaves, none where the access is not made. -/
def State.dbgPoke (s : State) (space : DbgSpace) (lcSide : Bool) (a : Nat) (w : Word) : Option State :=
  match space with
  | .data => (s.dbgData lcSide a).map fun x => s.writeData x 4 w.toNat
  | .io =>
    let s := s.heldGrants
    if s.dbgPort lcSide (a % 65536) true then some (s.outPort (dbgCore lcSide) (s.dbgTid lcSide) (a % 65536) w) else none
  | .instr => (s.dbgInstr lcSide (a % 16777216)).bind fun x => s.writeInstr x w
  | .context =>
    let t := fieldAt a 0 7
    if s.dbgContext lcSide t (fieldAt a 8 6) then some (s.writeContext t (fieldAt a 8 6) w) else none

/-- The code of a space (R694). -/
def dbgSpaceCode : DbgSpace → BitVec 2
  | .data => 0#2
  | .io => 1#2
  | .instr => 2#2
  | .context => 3#2

/-- The 72 bits of the DBG register as a capture loads them: with BUSY 1 come OK 0 and no word read (R694, R695). -/
def JtagPort.word (j : JtagPort) (busy : Bool) : BitVec 72 :=
  BitVec.ofNat 72 ((if busy then 0 else j.data.toNat) + 2 ^ 32 * j.addr.toNat + 2 ^ 64 * j.space.toNat + 2 ^ 66 * bitNat j.side
    + 2 ^ 70 * bitNat busy + 2 ^ 71 * bitNat (j.ok && !busy))

/-- Capture-DR of the DBG register (R695): the result of the access made last. Whether that access still runs is free until a capture
has been made after it. ADDR, SPACE and SIDE read as updated last (log 6). -/
def State.capture (s : State) : State :=
  let r := if s.jtag.running then s.freeCheck else (false, s)
  r.2.modJtag fun j => { j with drOut := j.word r.1 }

/-- The scan of the DBG register: what the capture shifts out, then ADDR, SPACE and SIDE as updated, from which an access runs. -/
def State.scanDbg (s : State) (space : DbgSpace) (lcSide : Bool) (a : Word) : State :=
  s.capture.modJtag fun j => { j with addr := a, space := dbgSpaceCode space, side := lcSide, running := true }

/-- What the next capture reads. -/
def State.captured (s : State) (ok : Bool) (w : Word) : State := s.modJtag fun j => { j with ok := ok, data := w }

def State.dbgRead (s : State) (space : DbgSpace) (lcSide : Bool) (a : Nat) : State :=
  let r := s.dbgPeek space lcSide a
  match r.1 with
  | some w => r.2.captured true w
  | none => r.2.captured false 0#32

def State.dbgWrite (s : State) (space : DbgSpace) (lcSide : Bool) (a : Nat) (w : Word) : State :=
  match s.dbgPoke space lcSide a w with
  | some x => x.captured true 0#32
  | none => s.captured false 0#32

/-- DBG_RESUME (R696): a thread parked by BREAK becomes READY, and its flow is held by it again. -/
def State.dbgResume (s : State) (t : Nat) : State :=
  if (s.th t).st = .faulted && (s.th t).trap = 15 then
    let item := (s.sow.fenced.find? fun p => p.2.2 = t).map fun p => p.2.1
    (s.modSow fun w => { w with fenced := w.fenced.filter fun p => p.2.2 ≠ t }).modTh t fun h =>
      { h with st := .ready, trap := 0, item := item }
  else s

/-! ### The instructions as commands -/

def execExtest (s : State) : Res := goOn s.extest

/-- SAMPLE-PRELOAD: the 282 cells are captured, where `captured` gives those that no state of the model tells, and `load` is shifted
in (R694, R697). -/
def execSamplePreload (captured load : List Bool) (s : State) : Res :=
  let s := s.loadIr .sample
  goOn (s.modJtag fun j => { j with captured := s.scanNow captured, cells := scanLoad load })

def execDbgStatus (s : State) : Res := goOn ((s.loadIr .dbgStatus).modJtag fun j => { j with status := s.dbgStatus })

/-- DBG-READ: capture, then the access at Update-DR (R694, R695). -/
def execDbgRead (space : DbgSpace) (lcSide : Bool) (addr : Word) (s : State) : Res :=
  goOn (((s.loadIr .dbgRead).scanDbg space lcSide addr).dbgRead space lcSide addr.toNat)

/-- DBG-WRITE: capture, then the access at Update-DR (R694, R695). -/
def execDbgWrite (space : DbgSpace) (lcSide : Bool) (addr data : Word) (s : State) : Res :=
  goOn (((s.loadIr .dbgWrite).scanDbg space lcSide addr).dbgWrite space lcSide addr.toNat data)

/-- DBG-RESUME (R696): the bay work that the thread's item gives it goes on from there. -/
def execDbgResume (t : Tid) (s : State) : Res := goOn ((s.loadIr .dbgResume).dbgResume t.val).settle

/-- DBG-RESET: Update-DR with 1 asserts the JTAG cold-start source, and with 0 it ends (R69, R694). -/
def execDbgReset (on : Bool) (s : State) : Res :=
  let s := s.loadIr .dbgReset
  goOn (if !on then s.modJtag fun j => { j with dbgReset := false }
    else if s.jtag.dbgReset then s
    else (s.coldStart 5 true false).modJtag fun j => { j with dbgReset := true })

def execJtagBypass (s : State) : Res := goOn (s.loadIr .bypass)

/-- TEST-LOGIC-RESET, by TMS or by TRST_N low: the data register after it is BYPASS, since there is no IDCODE register (R693). Nothing
is shifted out. -/
def execTestLogicReset (s : State) : Res :=
  goOn (s.modJtag fun j => { j with ir := Jtag.bypass.code, dbgReset := false })

end Sys2Proof.Machine
end

