-- ==== Sys2Proof/Machine/Memory.lean ====
section
/-! DEFINITION. Loads, stores and XCHW (R549 to R552), IRD and IWR (R558 to R561). -/

namespace Sys2Proof.Machine

/-- A data access of `n` bytes: ALIGN first, then DSPACE (R527, R549). -/
def dataAccess (n : Nat) (ra : Reg) (imm : BitVec 16) (f : State → Nat → DataAt → Did) (s : State) (t : Nat) : Did :=
  let a := effective ((s.th t).reg ra) imm
  if a % n ≠ 0 then .trapped 14 (wordOf a)
  else match s.dataAt t a with
    | none => .trapped 3 (wordOf a)
    | some x => f s t x

/-- A load of `n` bytes, extended by `ext`: one delay slot (R504). -/
def load (n : Nat) (ext : Nat → Word) (rd ra : Reg) (imm : BitVec 16) : State → Nat → Did :=
  dataAccess n ra imm fun s t x => .went (s.modTh t fun h => h.delay rd (ext (s.readData x n)) 1)

/-- A store of the low `n` bytes of rs. DESIGN CHOICE (log 95): it acts when it issues, so a later OUT never acts before it; R557
allows either order. -/
def store (n : Nat) (rs ra : Reg) (imm : BitVec 16) : State → Nat → Did :=
  dataAccess n ra imm fun s t x => .went (s.writeData x n (((s.th t).reg rs).toNat % 256 ^ n))

/-- Sign extension of an `n`-byte value. -/
def signExt (n v : Nat) : Word := BitVec.ofInt 32 (signedOf (8 * n) v)

/-- LDW. -/
def execLdw (k : CoreId) (rd ra : Reg) (imm : BitVec 16) (s : State) : Res := oluique s k always (load 4 wordOf rd ra imm)

/-- LDH. -/
def execLdh (k : CoreId) (rd ra : Reg) (imm : BitVec 16) (s : State) : Res := oluique s k always (load 2 (signExt 2) rd ra imm)

/-- LDHU. -/
def execLdhu (k : CoreId) (rd ra : Reg) (imm : BitVec 16) (s : State) : Res := oluique s k always (load 2 wordOf rd ra imm)

/-- LDB. -/
def execLdb (k : CoreId) (rd ra : Reg) (imm : BitVec 16) (s : State) : Res := oluique s k always (load 1 (signExt 1) rd ra imm)

/-- LDBU. -/
def execLdbu (k : CoreId) (rd ra : Reg) (imm : BitVec 16) (s : State) : Res := oluique s k always (load 1 wordOf rd ra imm)

/-- STW. -/
def execStw (k : CoreId) (rs ra : Reg) (imm : BitVec 16) (s : State) : Res := oluique s k always (store 4 rs ra imm)

/-- STH. -/
def execSth (k : CoreId) (rs ra : Reg) (imm : BitVec 16) (s : State) : Res := oluique s k always (store 2 rs ra imm)

/-- STB. -/
def execStb (k : CoreId) (rs ra : Reg) (imm : BitVec 16) (s : State) : Res := oluique s k always (store 1 rs ra imm)

/-- XCHW writes the value that rd holds at issue, and loads the old word (R551). -/
def execXchw (k : CoreId) (rd ra : Reg) (imm : BitVec 16) (s : State) : Res :=
  oluique s k always (dataAccess 4 ra imm fun s t x =>
    .went ((s.writeData x 4 ((s.th t).reg rd).toNat).modTh t fun h => h.delay rd (wordOf (s.readData x 4)) 1))

/-- An instruction-space access: ALIGN first, then ISPACE (R560). -/
def instrAccess (ra : Reg) (imm : BitVec 16) (f : State → Nat → Nat → InstrAt → Did) (s : State) (t : Nat) : Did :=
  let a := effective ((s.th t).reg ra) imm
  if a % 4 ≠ 0 then .trapped 14 (wordOf a)
  else match s.instrAt t a with
    | none => .trapped 4 (wordOf a)
    | some x => f s t a x

/-- IRD: two delay slots (R558). -/
def execIrd (k : CoreId) (rd ra : Reg) (imm : BitVec 16) (s : State) : Res :=
  oluique s k always (instrAccess ra imm fun s t _ x => .went (s.modTh t fun h => h.delay rd (s.readInstr x) 2))

/-- IWR: by a plot, to ROM and outside the writable regions it traps ISPACE (R512, R559). -/
def execIwr (k : CoreId) (rs ra : Reg) (imm : BitVec 16) (s : State) : Res :=
  oluique s k always (instrAccess ra imm fun s t a x =>
    if isPlot t then .trapped 4 (wordOf a)
    else match s.writeInstr x ((s.th t).reg rs) with
      | some s' => .went s'
      | none => .trapped 4 (wordOf a))

end Sys2Proof.Machine
end

