-- ==== Sys2Proof/Machine/SowIns.lean ====
section
/-! DEFINITION. The Sower instructions that touch no port (R575 to R578) and the Sower's own events (R614, R625 to
R634, R529). -/

namespace Sys2Proof.Machine

/-- Service of the thread's item ends, and the thread is IDLE at the next instruction (R576). -/
def State.endService (s : State) (t : Nat) : State :=
  (s.modTh t fun h =>
    { h.settle with st := .idle, item := none, yieldAge := none, resumed := false, prev := h.pc, pc := nextPc h.pc }).dropHeld t

/-- DONE on core `k` (R576). -/
def State.done (s : State) (k t : Nat) : State :=
  let h := s.th t
  let s := s.endService t
  (s.trace k 6 t ((h.item.map Item.q).getD 0) ((h.item.map Item.flowField).getD 0) 0).freeCore k

/-- The thread keeps the core with a new item (R492, R575), and enters the buffer that it carries (R666). -/
def State.keepCore (s : State) (k t : Nat) (p : Pair) : State :=
  let s := s.takePair p .running
  let s := s.modTh t fun h => Thread.giveWords { h with lastCore := k, resumed := true } p.item
  match p.item with
  | none => s
  | some it =>
    let s := if s.counting then s.modQue it.q fun x => { x with dispatch := inc32 x.dispatch } else s
    (s.enterBuffer t it).trace k 4 t it.q it.flowField 0

/-- NEXT on core `k` (R575). -/
def State.next (s : State) (k t : Nat) : State :=
  let s1 := s.endService t
  if (s.core k).standby.isSome || !s.servable k then s.done k t
  else match s1.choose k with
    | (some p, s2) => if p.tid = t && !p.held then s2.keepCore k t p else s.done k t
    | (none, _) => s.done k t

/-- YIELD on core `k` (R577, R624). -/
def State.yield (s : State) (k t : Nat) : State :=
  let h := s.th t
  let a := s.sow.nextAge
  let s := s.modSow fun w => { w with nextAge := w.nextAge + 1 }
  let s := s.modTh t fun h => { h.settle with st := .ready, yieldAge := some a, prev := h.pc, pc := nextPc h.pc }
  (s.trace k 11 t ((h.item.map Item.q).getD 0) ((h.item.map Item.flowField).getD 0) 0).freeCore k

/-- FLOWSEIZE of flow `f` (R578): the result and the state. -/
def State.flowSeize (s : State) (k t f : Nat) : Word × State :=
  match s.sow.fenced.find? fun p => p.1 = f with
  | some p => (1#32, (s.modSow fun w => { w with fenced := w.fenced.filter fun x => x.1 ≠ f }).trace k 8 t p.2.1.q f 0)
  | none => (0#32, s)

/-- A command that can dispatch: an X verb commits when a plot thread is dispatched with its item (R182). -/
def dispatching (r : Res) : Res :=
  match r with
  | .next s => .next s.commitX
  | x => x

/-- NEXT. -/
def execNext (k : CoreId) (s : State) : Res := dispatching (oluique s k always fun s t => .left (s.next k.val t))

/-- DONE. -/
def execDone (k : CoreId) (s : State) : Res := oluique s k always fun s t => .left (s.done k.val t)

/-- YIELD. -/
def execYieldT (k : CoreId) (s : State) : Res := oluique s k always fun s t => .left (s.yield k.val t)

/-- FLOWSEIZE: UNDEF in a plot (R512); its result is interlocked. -/
def execFlowseize (k : CoreId) (rd ra : Reg) (s : State) : Res :=
  oluique s k (fun t => if isPlot t then some (rWord 0x24 rd ra 0 0 3) else none) fun s t =>
    let r := s.flowSeize k.val t (fieldAt ((s.th t).reg ra).toNat 0 10)
    .went (r.2.modTh t fun h => h.interlock
      { unit := .seize, rd := rd, lo := r.1, hi := none, dc := none, dinv := false, flags := 0#5, pc := h.pc })

/-- DISPATCH (R625). -/
def execDispatch (k : CoreId) (s : State) : Res := dispatching (goOn (s.dispatchOn k.val))

/-- PREFETCH (R628). -/
def execPrefetch (k : CoreId) (s : State) : Res := goOn (s.prefetchOn k.val)

/-- PREEMPT (R631), in the latch part or in the field part. -/
def execPreempt (latch : Bool) (s : State) : Res := dispatching (goOn (s.arrive (if latch then [6] else List.range 6)))

/-- LC can write the thread's SOW_T port (R646). -/
def State.reachT (s : State) (t : Nat) : Bool := !s.sys.inReset && (120 ≤ t || s.sys.fieldUp)

/-- THREAD-STOP: CMD STOP written by LC (R614). -/
def execThreadStop (t : Tid) (s : State) : Res := goOn (if s.reachT t.val then s.stopThread t.val 6 else s)

/-- THREAD-START: CMD START written by LC (R614). -/
def execThreadStart (t : Tid) (s : State) : Res := goOn (if s.reachT t.val then s.startThread t.val else s)

/-- SPILL-POST (R529). -/
def execSpillPost (q : Fin 64) (s : State) : Res := goOn (s.spillPost q.val)

end Sys2Proof.Machine
end

