-- ==== Sys2Proof/Machine/Dispatch.lean ====
section
/-! DEFINITION. The dispatch: one arm per constructor of `Instr`, each one call of that command's meaning. -/

namespace Sys2Proof.Machine

def exec (i : Instr) (s : State) : Host.Outcome State Fault Refusal :=
  match i with
  | .powerOn => Sys2Proof.Machine.execPowerOn s
  | .brownout holdUp => Sys2Proof.Machine.execBrownout holdUp s
  | .resetPin => Sys2Proof.Machine.execResetPin s
  | .testmodeHigh => Sys2Proof.Machine.execTestmodeHigh s
  | .clockLoss => Sys2Proof.Machine.execClockLoss s
  | .resetRelease head cts => Sys2Proof.Machine.execResetRelease head cts s
  | .readyLine => Sys2Proof.Machine.execReadyLine s
  | .readyFace => Sys2Proof.Machine.execReadyFace s
  | .readySeedbank => Sys2Proof.Machine.execReadySeedbank s
  | .readyFurrow => Sys2Proof.Machine.execReadyFurrow s
  | .readyCalendar => Sys2Proof.Machine.execReadyCalendar s
  | .readyRing => Sys2Proof.Machine.execReadyRing s
  | .ringAloneTimeout => Sys2Proof.Machine.execRingAloneTimeout s
  | .readyReplay => Sys2Proof.Machine.execReadyReplay s
  | .readyKeys => Sys2Proof.Machine.execReadyKeys s
  | .fieldEnHoldEnd => Sys2Proof.Machine.execFieldEnHoldEnd s
  | .wakeStart => Sys2Proof.Machine.execWakeStart s
  | .fieldPgRise => Sys2Proof.Machine.execFieldPgRise s
  | .fieldPgDropInLock => Sys2Proof.Machine.execFieldPgDropInLock s
  | .fieldPgTimeout => Sys2Proof.Machine.execFieldPgTimeout s
  | .pllLock => Sys2Proof.Machine.execPllLock s
  | .pllNoLock => Sys2Proof.Machine.execPllNoLock s
  | .fieldResetRelease => Sys2Proof.Machine.execFieldResetRelease s
  | .readyField romOk => Sys2Proof.Machine.execReadyField romOk s
  | .readySower => Sys2Proof.Machine.execReadySower s
  | .readyGranary => Sys2Proof.Machine.execReadyGranary s
  | .readyBaysRow r => Sys2Proof.Machine.execReadyBaysRow r s
  | .readyEnvelope => Sys2Proof.Machine.execReadyEnvelope s
  | .readyLedger => Sys2Proof.Machine.execReadyLedger s
  | .readyTenancy => Sys2Proof.Machine.execReadyTenancy s
  | .readyPlot p => Sys2Proof.Machine.execReadyPlot p s
  | .fieldLostPg => Sys2Proof.Machine.execFieldLostPg s
  | .fieldLostPll => Sys2Proof.Machine.execFieldLostPll s
  | .restDispatch => Sys2Proof.Machine.execRestDispatch s
  | .restPlotsIdle => Sys2Proof.Machine.execRestPlotsIdle s
  | .restPlotTimeout => Sys2Proof.Machine.execRestPlotTimeout s
  | .hingeTransferRequest lat fld => Sys2Proof.Machine.execHingeTransferRequest lat fld s
  | .hingeHeldGrant => Sys2Proof.Machine.execHingeHeldGrant s
  | .mailboxClaim who box => Sys2Proof.Machine.execMailboxClaim who box s
  | .mailboxPost who box count => Sys2Proof.Machine.execMailboxPost who box count s
  | .mailboxRelease who box => Sys2Proof.Machine.execMailboxRelease who box s
  | .mailboxWordWrite who box j w => Sys2Proof.Machine.execMailboxWordWrite who box j w s
  | .mailboxForceFree box => Sys2Proof.Machine.execMailboxForceFree box s
  | .hingeNotifyPost box => Sys2Proof.Machine.execHingeNotifyPost box s
  | .heartbeatTouch k => Sys2Proof.Machine.execHeartbeatTouch k s
  | .heartbeatExpiry k => Sys2Proof.Machine.execHeartbeatExpiry k s
  | .coreFaultRecovery k => Sys2Proof.Machine.execCoreFaultRecovery k s
  | .recoveryTimeout => Sys2Proof.Machine.execRecoveryTimeout s
  | .threadFaultRecovery => Sys2Proof.Machine.execThreadFaultRecovery s
  | .consoleChar c framingError => Sys2Proof.Machine.execConsoleChar c framingError s
  | .consCtsChange level => Sys2Proof.Machine.execConsCtsChange level s
  | .malformedLine ses => Sys2Proof.Machine.execMalformedLine ses s
  | .forwardAddressedLine n text => Sys2Proof.Machine.execForwardAddressedLine n text s
  | .broadcastLine text => Sys2Proof.Machine.execBroadcastLine text s
  | .outputQueueRoom chars => Sys2Proof.Machine.execOutputQueueRoom chars s
  | .sessionIdleTimeout ses => Sys2Proof.Machine.execSessionIdleTimeout ses s
  | .state q => Sys2Proof.Machine.execState q s
  | .wake q => Sys2Proof.Machine.execWake q s
  | .rest q => Sys2Proof.Machine.execRest q s
  | .bayOn q bays => Sys2Proof.Machine.execBayOn q bays s
  | .bayOff q bays => Sys2Proof.Machine.execBayOff q bays s
  | .bayOnItem n => Sys2Proof.Machine.execBayOnItem n s
  | .bayOffItem n => Sys2Proof.Machine.execBayOffItem n s
  | .bayLocateOn q n => Sys2Proof.Machine.execBayLocateOn q n s
  | .bayLocateOff q n => Sys2Proof.Machine.execBayLocateOff q n s
  | .locateMarkTimeout n => Sys2Proof.Machine.execLocateMarkTimeout n s
  | .bayUnlock q n proofM proofA => Sys2Proof.Machine.execBayUnlock q n proofM proofA s
  | .bayInfo q bays => Sys2Proof.Machine.execBayInfo q bays s
  | .envelope q => Sys2Proof.Machine.execEnvelope q s
  | .envelopeSet q word v => Sys2Proof.Machine.execEnvelopeSet q word v s
  | .profile q n => Sys2Proof.Machine.execProfile q n s
  | .profileForget q bays => Sys2Proof.Machine.execProfileForget q bays s
  | .profileForgetItem n => Sys2Proof.Machine.execProfileForgetItem n s
  | .scan q => Sys2Proof.Machine.execScan q s
  | .scanRow q r => Sys2Proof.Machine.execScanRow q r s
  | .keys q bays => Sys2Proof.Machine.execKeys q bays s
  | .keysPanel q => Sys2Proof.Machine.execKeysPanel q s
  | .keysGeneral q => Sys2Proof.Machine.execKeysGeneral q s
  | .tag q bays colour pattern => Sys2Proof.Machine.execTag q bays colour pattern s
  | .tagAuto q bays => Sys2Proof.Machine.execTagAuto q bays s
  | .face q => Sys2Proof.Machine.execFace q s
  | .faceText q text => Sys2Proof.Machine.execFaceText q text s
  | .faceTextOff q => Sys2Proof.Machine.execFaceTextOff q s
  | .faceView q view => Sys2Proof.Machine.execFaceView q view s
  | .keypadHoldTimeout => Sys2Proof.Machine.execKeypadHoldTimeout s
  | .fan q => Sys2Proof.Machine.execFan q s
  | .fanDuty q fans p => Sys2Proof.Machine.execFanDuty q fans p s
  | .fanAuto q fans => Sys2Proof.Machine.execFanAuto q fans s
  | .fanAbsentTimeout n => Sys2Proof.Machine.execFanAbsentTimeout n s
  | .fanTachSecond pulses => Sys2Proof.Machine.execFanTachSecond pulses s
  | .fanStall n => Sys2Proof.Machine.execFanStall n s
  | .thermistorConversion j code => Sys2Proof.Machine.execThermistorConversion j code s
  | .temp q => Sys2Proof.Machine.execTemp q s
  | .line q => Sys2Proof.Machine.execLine q s
  | .lineBaud q b => Sys2Proof.Machine.execLineBaud q b s
  | .lineXonOn q => Sys2Proof.Machine.execLineXonOn q s
  | .lineXonOff q => Sys2Proof.Machine.execLineXonOff q s
  | .baudApply => Sys2Proof.Machine.execBaudApply s
  | .echo q => Sys2Proof.Machine.execEcho q s
  | .echoOn q => Sys2Proof.Machine.execEchoOn q s
  | .echoOff q => Sys2Proof.Machine.execEchoOff q s
  | .who q => Sys2Proof.Machine.execWho q s
  | .whoAll q => Sys2Proof.Machine.execWhoAll q s
  | .openT q t => Sys2Proof.Machine.execOpenT q t s
  | .prove q groups => Sys2Proof.Machine.execProve q groups s
  | .challengeLapse ses => Sys2Proof.Machine.execChallengeLapse ses s
  | .close q => Sys2Proof.Machine.execClose q s
  | .key q t => Sys2Proof.Machine.execKey q t s
  | .keySet q t key => Sys2Proof.Machine.execKeySet q t key s
  | .keyClear q t => Sys2Proof.Machine.execKeyClear q t s
  | .tenancy q t => Sys2Proof.Machine.execTenancy q t s
  | .tenancyGroup q t g => Sys2Proof.Machine.execTenancyGroup q t g s
  | .tenancyShare q t v => Sys2Proof.Machine.execTenancyShare q t v s
  | .tenancyAllot q t v => Sys2Proof.Machine.execTenancyAllot q t v s
  | .tenancyWeight q g w => Sys2Proof.Machine.execTenancyWeight q g w s
  | .tenancySettingApply => Sys2Proof.Machine.execTenancySettingApply s
  | .assign q bays t => Sys2Proof.Machine.execAssign q bays t s
  | .assignNone q bays => Sys2Proof.Machine.execAssignNone q bays s
  | .quota q t => Sys2Proof.Machine.execQuota q t s
  | .quotaPool q t p k => Sys2Proof.Machine.execQuotaPool q t p k s
  | .ledger q t => Sys2Proof.Machine.execLedger q t s
  | .ledgerGaps q t => Sys2Proof.Machine.execLedgerGaps q t s
  | .ledgerEpoch q t => Sys2Proof.Machine.execLedgerEpoch q t s
  | .time q => Sys2Proof.Machine.execTime q s
  | .timeSet q n => Sys2Proof.Machine.execTimeSet q n s
  | .plot q => Sys2Proof.Machine.execPlot q s
  | .plotTenancy q t => Sys2Proof.Machine.execPlotTenancy q t s
  | .plotLoad q t a => Sys2Proof.Machine.execPlotLoad q t a s
  | .plotUnload q t => Sys2Proof.Machine.execPlotUnload q t s
  | .xVerb q name text => Sys2Proof.Machine.execXVerb q name text s
  | .xCompletion => Sys2Proof.Machine.execXCompletion s
  | .plotWakeRequest => Sys2Proof.Machine.execPlotWakeRequest s
  | .plotWakeDue t => Sys2Proof.Machine.execPlotWakeDue t s
  | .deferredResourceClaim => Sys2Proof.Machine.execDeferredResourceClaim s
  | .ring q => Sys2Proof.Machine.execRing q s
  | .ringEnum q => Sys2Proof.Machine.execRingEnum q s
  | .ringTermOn q => Sys2Proof.Machine.execRingTermOn q s
  | .ringTermOff q => Sys2Proof.Machine.execRingTermOff q s
  | .trace q => Sys2Proof.Machine.execTrace q s
  | .traceCoresOn q cores => Sys2Proof.Machine.execTraceCoresOn q cores s
  | .traceCoresOff q cores => Sys2Proof.Machine.execTraceCoresOff q cores s
  | .traceModeStop q => Sys2Proof.Machine.execTraceModeStop q s
  | .traceModeWrap q => Sys2Proof.Machine.execTraceModeWrap q s
  | .traceClear q => Sys2Proof.Machine.execTraceClear q s
  | .traceDump q k => Sys2Proof.Machine.execTraceDump q k s
  | .statsQ q n => Sys2Proof.Machine.execStatsQ q n s
  | .statsCore q n => Sys2Proof.Machine.execStatsCore q n s
  | .statsClear q => Sys2Proof.Machine.execStatsClear q s
  | .granary q => Sys2Proof.Machine.execGranary q s
  | .granaryUse q r => Sys2Proof.Machine.execGranaryUse q r s
  | .granaryModeSingle q => Sys2Proof.Machine.execGranaryModeSingle q s
  | .granaryModeSized q => Sys2Proof.Machine.execGranaryModeSized q s
  | .furrow q => Sys2Proof.Machine.execFurrow q s
  | .seedbank q => Sys2Proof.Machine.execSeedbank q s
  | .selftest q => Sys2Proof.Machine.execSelftest q s
  | .resetField q => Sys2Proof.Machine.execResetField q s
  | .handle q h => Sys2Proof.Machine.execHandle q h s
  | .handles q => Sys2Proof.Machine.execHandles q s
  | .handlesOrphan q => Sys2Proof.Machine.execHandlesOrphan q s
  | .cancel q h => Sys2Proof.Machine.execCancel q h s
  | .completionHeldSend => Sys2Proof.Machine.execCompletionHeldSend s
  | .journalWriteStart => Sys2Proof.Machine.execJournalWriteStart s
  | .recordDurable verified => Sys2Proof.Machine.execRecordDurable verified s
  | .furRead => Sys2Proof.Machine.execFurRead s
  | .furWrite => Sys2Proof.Machine.execFurWrite s
  | .furrowOpDone verified => Sys2Proof.Machine.execFurrowOpDone verified s
  | .ringSolFrame mark dest src ses text left => Sys2Proof.Machine.execRingSolFrame mark dest src ses text left s
  | .ringSobFrame mark dest src ses text left => Sys2Proof.Machine.execRingSobFrame mark dest src ses text left s
  | .ringSorFrame mark dest src ses text left => Sys2Proof.Machine.execRingSorFrame mark dest src ses text left s
  | .ringEnumFrame pass next full ovr => Sys2Proof.Machine.execRingEnumFrame pass next full ovr s
  | .ringBrkFrame reporter numbered hops => Sys2Proof.Machine.execRingBrkFrame reporter numbered hops s
  | .ringJoinFrame => Sys2Proof.Machine.execRingJoinFrame s
  | .ringAbt forwarded => Sys2Proof.Machine.execRingAbt forwarded s
  | .ringFramingError forwarded => Sys2Proof.Machine.execRingFramingError forwarded s
  | .ringOverrun forwarded => Sys2Proof.Machine.execRingOverrun forwarded s
  | .ringHoldInput hold => Sys2Proof.Machine.execRingHoldInput hold s
  | .ringTxFrameStart => Sys2Proof.Machine.execRingTxFrameStart s
  | .enumPassTimeout => Sys2Proof.Machine.execEnumPassTimeout s
  | .enumBrokenRetry => Sys2Proof.Machine.execEnumBrokenRetry s
  | .upstreamDead => Sys2Proof.Machine.execUpstreamDead s
  | .upstreamAlive => Sys2Proof.Machine.execUpstreamAlive s
  | .breakReportRepeat => Sys2Proof.Machine.execBreakReportRepeat s
  | .joinRepeat => Sys2Proof.Machine.execJoinRepeat s
  | .ringBypass on => Sys2Proof.Machine.execRingBypass on s
  | .rngEnumWrite => Sys2Proof.Machine.execRngEnumWrite s
  | .rngRxRead => Sys2Proof.Machine.execRngRxRead s
  | .rngTxSymbol sym => Sys2Proof.Machine.execRngTxSymbol sym s
  | .rngTxCancel => Sys2Proof.Machine.execRngTxCancel s
  | .keyswitchFault => Sys2Proof.Machine.execKeyswitchFault s
  | .sdbRead => Sys2Proof.Machine.execSdbRead s
  | .sdbWrite => Sys2Proof.Machine.execSdbWrite s
  | .seedbankOpDone verified => Sys2Proof.Machine.execSeedbankOpDone verified s
  | .calendarTick => Sys2Proof.Machine.execCalendarTick s
  | .tickItemPost => Sys2Proof.Machine.execTickItemPost s
  | .calendarSave verified => Sys2Proof.Machine.execCalendarSave verified s
  | .utcAdvance => Sys2Proof.Machine.execUtcAdvance s
  | .ledgerTick => Sys2Proof.Machine.execLedgerTick s
  | .intervalEnd => Sys2Proof.Machine.execIntervalEnd s
  | .checkpointDurable verified => Sys2Proof.Machine.execCheckpointDurable verified s
  | .calTickLoRead t => Sys2Proof.Machine.execCalTickLoRead t s
  | .calLoad lo hi => Sys2Proof.Machine.execCalLoad lo hi s
  | .calUtcSet v => Sys2Proof.Machine.execCalUtcSet v s
  | .bayStart n => Sys2Proof.Machine.execBayStart n s
  | .bayStop n => Sys2Proof.Machine.execBayStop n s
  | .gateGood n rail => Sys2Proof.Machine.execGateGood n rail s
  | .blankWindowEnd n rail => Sys2Proof.Machine.execBlankWindowEnd n rail s
  | .fastOver n rail => Sys2Proof.Machine.execFastOver n rail s
  | .slowTrip n rail => Sys2Proof.Machine.execSlowTrip n rail s
  | .gateTimeout n rail => Sys2Proof.Machine.execGateTimeout n rail s
  | .gatesBelow1v n => Sys2Proof.Machine.execGatesBelow1v n s
  | .gateOffLockout n mainUp auxUp => Sys2Proof.Machine.execGateOffLockout n mainUp auxUp s
  | .shadowMismatch n rail parity => Sys2Proof.Machine.execShadowMismatch n rail parity s
  | .lockItemServe => Sys2Proof.Machine.execLockItemServe s
  | .proofStart n rail => Sys2Proof.Machine.execProofStart n rail s
  | .proofCheck n rail fastOver slowOver => Sys2Proof.Machine.execProofCheck n rail fastOver slowOver s
  | .proofEnd n rail stillOver => Sys2Proof.Machine.execProofEnd n rail stillOver s
  | .proofRun n => Sys2Proof.Machine.execProofRun n s
  | .adcSampleComplete isum vsum => Sys2Proof.Machine.execAdcSampleComplete isum vsum s
  | .sysLockSet n => Sys2Proof.Machine.execSysLockSet n s
  | .sysLockClear n => Sys2Proof.Machine.execSysLockClear n s
  | .guardSlot mainCodes auxCodes => Sys2Proof.Machine.execGuardSlot mainCodes auxCodes s
  | .guardHold => Sys2Proof.Machine.execGuardHold s
  | .guardHoldClear => Sys2Proof.Machine.execGuardHoldClear s
  | .guardRelease => Sys2Proof.Machine.execGuardRelease s
  | .guardShed => Sys2Proof.Machine.execGuardShed s
  | .plannerStart n => Sys2Proof.Machine.execPlannerStart n s
  | .replan => Sys2Proof.Machine.execReplan s
  | .profileUpdate n => Sys2Proof.Machine.execProfileUpdate n s
  | .envPeakRead => Sys2Proof.Machine.execEnvPeakRead s
  | .scanFrameStart contacts => Sys2Proof.Machine.execScanFrameStart contacts s
  | .shiftStallResume => Sys2Proof.Machine.execShiftStallResume s
  | .scanFrameComplete => Sys2Proof.Machine.execScanFrameComplete s
  | .scanSwap => Sys2Proof.Machine.execScanSwap s
  | .scanStepWrite j w => Sys2Proof.Machine.execScanStepWrite j w s
  | .scanArm => Sys2Proof.Machine.execScanArm s
  | .scanDisarm => Sys2Proof.Machine.execScanDisarm s
  | .keyEventServe => Sys2Proof.Machine.execKeyEventServe s
  | .keyLocate n => Sys2Proof.Machine.execKeyLocate n s
  | .keyLever n => Sys2Proof.Machine.execKeyLever n s
  | .keypadBay digits => Sys2Proof.Machine.execKeypadBay digits s
  | .keypadTenancy digits => Sys2Proof.Machine.execKeypadTenancy digits s
  | .keypadUpDown up => Sys2Proof.Machine.execKeypadUpDown up s
  | .keypadLocate => Sys2Proof.Machine.execKeypadLocate s
  | .keypadView => Sys2Proof.Machine.execKeypadView s
  | .keypadClear => Sys2Proof.Machine.execKeypadClear s
  | .panelWake => Sys2Proof.Machine.execPanelWake s
  | .panelRest => Sys2Proof.Machine.execPanelRest s
  | .panelDot held => Sys2Proof.Machine.execPanelDot held s
  | .errTimeout => Sys2Proof.Machine.execErrTimeout s
  | .faceCommit => Sys2Proof.Machine.execFaceCommit s
  | .faceFrameStart => Sys2Proof.Machine.execFaceFrameStart s
  | .faceRender => Sys2Proof.Machine.execFaceRender s
  | .faceViewRotate => Sys2Proof.Machine.execFaceViewRotate s
  | .nop k => Sys2Proof.Machine.execNop k s
  | .add k rd ra rb => Sys2Proof.Machine.execAdd k rd ra rb s
  | .sub k rd ra rb => Sys2Proof.Machine.execSub k rd ra rb s
  | .addc k rd ra rb => Sys2Proof.Machine.execAddc k rd ra rb s
  | .subc k rd ra rb => Sys2Proof.Machine.execSubc k rd ra rb s
  | .and k rd ra rb => Sys2Proof.Machine.execAnd k rd ra rb s
  | .or k rd ra rb => Sys2Proof.Machine.execOr k rd ra rb s
  | .xor k rd ra rb => Sys2Proof.Machine.execXor k rd ra rb s
  | .shl k rd ra rb => Sys2Proof.Machine.execShl k rd ra rb s
  | .shr k rd ra rb => Sys2Proof.Machine.execShr k rd ra rb s
  | .sar k rd ra rb => Sys2Proof.Machine.execSar k rd ra rb s
  | .slt k rd ra rb => Sys2Proof.Machine.execSlt k rd ra rb s
  | .sltu k rd ra rb => Sys2Proof.Machine.execSltu k rd ra rb s
  | .clz k rd ra => Sys2Proof.Machine.execClz k rd ra s
  | .popc k rd ra => Sys2Proof.Machine.execPopc k rd ra s
  | .shli k rd ra n => Sys2Proof.Machine.execShli k rd ra n s
  | .shri k rd ra n => Sys2Proof.Machine.execShri k rd ra n s
  | .sari k rd ra n => Sys2Proof.Machine.execSari k rd ra n s
  | .addi k rd ra imm => Sys2Proof.Machine.execAddi k rd ra imm s
  | .andi k rd ra imm => Sys2Proof.Machine.execAndi k rd ra imm s
  | .ori k rd ra imm => Sys2Proof.Machine.execOri k rd ra imm s
  | .xori k rd ra imm => Sys2Proof.Machine.execXori k rd ra imm s
  | .slti k rd ra imm => Sys2Proof.Machine.execSlti k rd ra imm s
  | .lui k rd imm => Sys2Proof.Machine.execLui k rd imm s
  | .ldw k rd ra imm => Sys2Proof.Machine.execLdw k rd ra imm s
  | .ldh k rd ra imm => Sys2Proof.Machine.execLdh k rd ra imm s
  | .ldhu k rd ra imm => Sys2Proof.Machine.execLdhu k rd ra imm s
  | .ldb k rd ra imm => Sys2Proof.Machine.execLdb k rd ra imm s
  | .ldbu k rd ra imm => Sys2Proof.Machine.execLdbu k rd ra imm s
  | .stw k rs ra imm => Sys2Proof.Machine.execStw k rs ra imm s
  | .sth k rs ra imm => Sys2Proof.Machine.execSth k rs ra imm s
  | .stb k rs ra imm => Sys2Proof.Machine.execStb k rs ra imm s
  | .xchw k rd ra imm => Sys2Proof.Machine.execXchw k rd ra imm s
  | .portIn k rd ra imm => Sys2Proof.Machine.execPortIn k rd ra imm s
  | .portOut k rs ra imm => Sys2Proof.Machine.execPortOut k rs ra imm s
  | .portWriteDrain k => Sys2Proof.Machine.execPortWriteDrain k s
  | .ird k rd ra imm => Sys2Proof.Machine.execIrd k rd ra imm s
  | .iwr k rs ra imm => Sys2Proof.Machine.execIwr k rs ra imm s
  | .beq k ra rb off => Sys2Proof.Machine.execBeq k ra rb off s
  | .bne k ra rb off => Sys2Proof.Machine.execBne k ra rb off s
  | .blt k ra rb off => Sys2Proof.Machine.execBlt k ra rb off s
  | .bge k ra rb off => Sys2Proof.Machine.execBge k ra rb off s
  | .bltu k ra rb off => Sys2Proof.Machine.execBltu k ra rb off s
  | .bgeu k ra rb off => Sys2Proof.Machine.execBgeu k ra rb off s
  | .jmp k off => Sys2Proof.Machine.execJmp k off s
  | .call k off => Sys2Proof.Machine.execCall k off s
  | .jr k ra => Sys2Proof.Machine.execJr k ra s
  | .callr k ra => Sys2Proof.Machine.execCallr k ra s
  | .ret k => Sys2Proof.Machine.execRet k s
  | .tsr k rd => Sys2Proof.Machine.execTsr k rd s
  | .tsw k ra rb => Sys2Proof.Machine.execTsw k ra rb s
  | .fence k => Sys2Proof.Machine.execFence k s
  | .brk k imm => Sys2Proof.Machine.execBrk k imm s
  | .spillPost q => Sys2Proof.Machine.execSpillPost q s
  | .post k rs ra imm => Sys2Proof.Machine.execPost k rs ra imm s
  | .poste k rs ra imm => Sys2Proof.Machine.execPoste k rs ra imm s
  | .waitspaceGrant q => Sys2Proof.Machine.execWaitspaceGrant q s
  | .next k => Sys2Proof.Machine.execNext k s
  | .done k => Sys2Proof.Machine.execDone k s
  | .yieldT k => Sys2Proof.Machine.execYieldT k s
  | .flowseize k rd ra => Sys2Proof.Machine.execFlowseize k rd ra s
  | .mul k rd ra rb => Sys2Proof.Machine.execMul k rd ra rb s
  | .mulhs k rd ra rb => Sys2Proof.Machine.execMulhs k rd ra rb s
  | .mulhu k rd ra rb => Sys2Proof.Machine.execMulhu k rd ra rb s
  | .mulws k rd ra rb => Sys2Proof.Machine.execMulws k rd ra rb s
  | .mulwu k rd ra rb => Sys2Proof.Machine.execMulwu k rd ra rb s
  | .divs k rd ra rb => Sys2Proof.Machine.execDivs k rd ra rb s
  | .divu k rd ra rb => Sys2Proof.Machine.execDivu k rd ra rb s
  | .rems k rd ra rb => Sys2Proof.Machine.execRems k rd ra rb s
  | .remu k rd ra rb => Sys2Proof.Machine.execRemu k rd ra rb s
  | .dadd k rd ra rb => Sys2Proof.Machine.execDadd k rd ra rb s
  | .daddc k rd ra rb => Sys2Proof.Machine.execDaddc k rd ra rb s
  | .dsub k rd ra rb => Sys2Proof.Machine.execDsub k rd ra rb s
  | .dsubc k rd ra rb => Sys2Proof.Machine.execDsubc k rd ra rb s
  | .dmulw k rd ra rb => Sys2Proof.Machine.execDmulw k rd ra rb s
  | .dcvb k rd ra => Sys2Proof.Machine.execDcvb k rd ra s
  | .dcvd k rd ra => Sys2Proof.Machine.execDcvd k rd ra s
  | .dshl k rd ra n => Sys2Proof.Machine.execDshl k rd ra n s
  | .dshr k rd ra n => Sys2Proof.Machine.execDshr k rd ra n s
  | .fadd k rd ra rb => Sys2Proof.Machine.execFadd k rd ra rb s
  | .fsub k rd ra rb => Sys2Proof.Machine.execFsub k rd ra rb s
  | .fmul k rd ra rb => Sys2Proof.Machine.execFmul k rd ra rb s
  | .fdiv k rd ra rb => Sys2Proof.Machine.execFdiv k rd ra rb s
  | .fsqrt k rd ra => Sys2Proof.Machine.execFsqrt k rd ra s
  | .fmadd k rd ra rb rc => Sys2Proof.Machine.execFmadd k rd ra rb rc s
  | .fmin k rd ra rb => Sys2Proof.Machine.execFmin k rd ra rb s
  | .fmax k rd ra rb => Sys2Proof.Machine.execFmax k rd ra rb s
  | .fcmpeq k rd ra rb => Sys2Proof.Machine.execFcmpeq k rd ra rb s
  | .fcmplt k rd ra rb => Sys2Proof.Machine.execFcmplt k rd ra rb s
  | .fcmple k rd ra rb => Sys2Proof.Machine.execFcmple k rd ra rb s
  | .fcvtws k rd ra => Sys2Proof.Machine.execFcvtws k rd ra s
  | .fcvtsw k rd ra => Sys2Proof.Machine.execFcvtsw k rd ra s
  | .fneg k rd ra => Sys2Proof.Machine.execFneg k rd ra s
  | .fabs k rd ra => Sys2Proof.Machine.execFabs k rd ra s
  | .delayedResultWrite k => Sys2Proof.Machine.execDelayedResultWrite k s
  | .interlockedResult k => Sys2Proof.Machine.execInterlockedResult k s
  | .dispatch k => Sys2Proof.Machine.execDispatch k s
  | .prefetch k => Sys2Proof.Machine.execPrefetch k s
  | .preempt latch => Sys2Proof.Machine.execPreempt latch s
  | .threadStop t => Sys2Proof.Machine.execThreadStop t s
  | .threadStart t => Sys2Proof.Machine.execThreadStart t s
  | .queueFlush who q => Sys2Proof.Machine.execQueueFlush who q s
  | .sowQWrite who q v => Sys2Proof.Machine.execSowQWrite who q v s
  | .sowModeWrite who affinity => Sys2Proof.Machine.execSowModeWrite who affinity s
  | .sowWeightWrite who g w => Sys2Proof.Machine.execSowWeightWrite who g w s
  | .sowDispatchWrite who on => Sys2Proof.Machine.execSowDispatchWrite who on s
  | .sowPreemptWrite who mask => Sys2Proof.Machine.execSowPreemptWrite who mask s
  | .sowStatsSelect who sel => Sys2Proof.Machine.execSowStatsSelect who sel s
  | .sowStatsClear who => Sys2Proof.Machine.execSowStatsClear who s
  | .contextWindowAccess who latch write => Sys2Proof.Machine.execContextWindowAccess who latch write s
  | .tracePortClear who => Sys2Proof.Machine.execTracePortClear who s
  | .traceRead who => Sys2Proof.Machine.execTraceRead who s
  | .granaryTake k r sl => Sys2Proof.Machine.execGranaryTake k r sl s
  | .granaryGive k r addr => Sys2Proof.Machine.execGranaryGive k r addr s
  | .granaryModeWrite who sized => Sys2Proof.Machine.execGranaryModeWrite who sized s
  | .granaryMinWrite who r p v => Sys2Proof.Machine.execGranaryMinWrite who r p v s
  | .granaryQuotaWrite who r p v => Sys2Proof.Machine.execGranaryQuotaWrite who r p v s
  | .consoleRxRead => Sys2Proof.Machine.execConsoleRxRead s
  | .consoleTxWrite c => Sys2Proof.Machine.execConsoleTxWrite c s
  | .spiGo who => Sys2Proof.Machine.execSpiGo who s
  | .spiDone => Sys2Proof.Machine.execSpiDone s
  | .alertWrite on => Sys2Proof.Machine.execAlertWrite on s
  | .registerWrite who port v => Sys2Proof.Machine.execRegisterWrite who port v s
  | .extest => Sys2Proof.Machine.execExtest s
  | .samplePreload captured load => Sys2Proof.Machine.execSamplePreload captured load s
  | .dbgStatus => Sys2Proof.Machine.execDbgStatus s
  | .dbgRead space lcSide addr => Sys2Proof.Machine.execDbgRead space lcSide addr s
  | .dbgWrite space lcSide addr data => Sys2Proof.Machine.execDbgWrite space lcSide addr data s
  | .dbgResume t => Sys2Proof.Machine.execDbgResume t s
  | .dbgReset on => Sys2Proof.Machine.execDbgReset on s
  | .jtagBypass => Sys2Proof.Machine.execJtagBypass s
  | .idleSymbol => Sys2Proof.Machine.execIdleSymbol s
  | .testLogicReset => Sys2Proof.Machine.execTestLogicReset s

end Sys2Proof.Machine
end

