-- ==== Sys2Proof/Machine/Encoding.lean ====
section
/-! DEFINITION. The words of Oluique instructions (R535 to R541): the opcode tables, the word that encodes an instruction,
and the instruction that a word encodes, none where the word is unassigned. The instruction is held as its name and its
fields; `Instr.asm` gives those of a command. -/

namespace Sys2Proof.Machine

/-- Names of format R (R540). -/
inductive OpR where
  | nop | add | sub | addc | subc | and | or | xor | shl | shr | sar | slt
  | sltu | clz | popc | shli | shri | sari | jr | callr | ret | tsr | tsw | fence
  | next | done | yieldT | flowseize | mul | mulhs | mulhu | mulws | mulwu | divs | divu | rems
  | remu | dadd | daddc | dsub | dsubc | dmulw | dcvb | dcvd | dshl | dshr | fadd | fsub
  | fmul | fdiv | fsqrt | fmadd | fmin | fmax | fcmpeq | fcmplt | fcmple | fcvtws | fcvtsw | fneg
  | fabs
  deriving DecidableEq, Repr

/-- Names of formats I and B. -/
inductive OpI where
  | addi | andi | ori | xori | slti | lui | ldw | ldh | ldhu | ldb | ldbu | stw
  | sth | stb | xchw | portIn | portOut | ird | iwr | beq | bne | blt | bge | bltu
  | bgeu | brk | post | poste
  deriving DecidableEq, Repr

/-- Names of format J. -/
inductive OpJ where
  | jmp | call
  deriving DecidableEq, Repr

/-- An Oluique instruction: its name and its fields. In format B the first register is ra and the second rb. -/
inductive Asm where
  | r (op : OpR) (rd ra rb sh : Reg)
  | i (op : OpI) (rd ra : Reg) (imm : BitVec 16)
  | j (op : OpJ) (off : BitVec 26)
  deriving DecidableEq, Repr

/-- A row of the opcode tables for format R: major opcode, fn, name, the fields that the entry names, whether rd is even,
and the greatest sh (R537, R540, R541). -/
structure RowR where
  major : Nat
  fn : Nat
  op : OpR
  rd : Bool
  ra : Bool
  rb : Bool
  even : Bool
  top : Nat
  deriving DecidableEq, Repr

/-- A row of the opcode table for formats I and B: major opcode, name, and the register fields that the entry names. -/
structure RowI where
  major : Nat
  op : OpI
  rd : Bool
  ra : Bool
  deriving DecidableEq, Repr

/-- Group 0x00. -/
def rowsAlu : List RowR :=
  [⟨0x00, 0x00, .nop, false, false, false, false, 0⟩,
   ⟨0x00, 0x01, .add, true, true, true, false, 0⟩,
   ⟨0x00, 0x02, .sub, true, true, true, false, 0⟩,
   ⟨0x00, 0x03, .addc, true, true, true, false, 0⟩,
   ⟨0x00, 0x04, .subc, true, true, true, false, 0⟩,
   ⟨0x00, 0x05, .and, true, true, true, false, 0⟩,
   ⟨0x00, 0x06, .or, true, true, true, false, 0⟩,
   ⟨0x00, 0x07, .xor, true, true, true, false, 0⟩,
   ⟨0x00, 0x08, .shl, true, true, true, false, 0⟩,
   ⟨0x00, 0x09, .shr, true, true, true, false, 0⟩,
   ⟨0x00, 0x0A, .sar, true, true, true, false, 0⟩,
   ⟨0x00, 0x0B, .slt, true, true, true, false, 0⟩,
   ⟨0x00, 0x0C, .sltu, true, true, true, false, 0⟩,
   ⟨0x00, 0x0D, .clz, true, true, false, false, 0⟩,
   ⟨0x00, 0x0E, .popc, true, true, false, false, 0⟩,
   ⟨0x00, 0x10, .shli, true, true, false, false, 31⟩,
   ⟨0x00, 0x11, .shri, true, true, false, false, 31⟩,
   ⟨0x00, 0x12, .sari, true, true, false, false, 31⟩]

/-- Group 0x20. -/
def rowsControl : List RowR :=
  [⟨0x20, 0x00, .jr, false, true, false, false, 0⟩,
   ⟨0x20, 0x01, .callr, false, true, false, false, 0⟩,
   ⟨0x20, 0x02, .ret, false, false, false, false, 0⟩,
   ⟨0x20, 0x03, .tsr, true, false, false, false, 0⟩,
   ⟨0x20, 0x04, .tsw, false, true, true, false, 0⟩,
   ⟨0x20, 0x05, .fence, false, false, false, false, 0⟩]

/-- Group 0x24. -/
def rowsSower : List RowR :=
  [⟨0x24, 0x00, .next, false, false, false, false, 0⟩,
   ⟨0x24, 0x01, .done, false, false, false, false, 0⟩,
   ⟨0x24, 0x02, .yieldT, false, false, false, false, 0⟩,
   ⟨0x24, 0x03, .flowseize, true, true, false, false, 0⟩]

/-- Group 0x28. -/
def rowsMulDiv : List RowR :=
  [⟨0x28, 0x00, .mul, true, true, true, false, 0⟩,
   ⟨0x28, 0x01, .mulhs, true, true, true, false, 0⟩,
   ⟨0x28, 0x02, .mulhu, true, true, true, false, 0⟩,
   ⟨0x28, 0x03, .mulws, true, true, true, true, 0⟩,
   ⟨0x28, 0x04, .mulwu, true, true, true, true, 0⟩,
   ⟨0x28, 0x08, .divs, true, true, true, false, 0⟩,
   ⟨0x28, 0x09, .divu, true, true, true, false, 0⟩,
   ⟨0x28, 0x0A, .rems, true, true, true, false, 0⟩,
   ⟨0x28, 0x0B, .remu, true, true, true, false, 0⟩]

/-- Group 0x29. -/
def rowsDecimal : List RowR :=
  [⟨0x29, 0x00, .dadd, true, true, true, false, 0⟩,
   ⟨0x29, 0x01, .daddc, true, true, true, false, 0⟩,
   ⟨0x29, 0x02, .dsub, true, true, true, false, 0⟩,
   ⟨0x29, 0x03, .dsubc, true, true, true, false, 0⟩,
   ⟨0x29, 0x04, .dmulw, true, true, true, true, 0⟩,
   ⟨0x29, 0x05, .dcvb, true, true, false, true, 0⟩,
   ⟨0x29, 0x06, .dcvd, true, true, false, false, 0⟩,
   ⟨0x29, 0x07, .dshl, true, true, false, false, 8⟩,
   ⟨0x29, 0x08, .dshr, true, true, false, false, 8⟩]

/-- Group 0x2A. -/
def rowsFloat : List RowR :=
  [⟨0x2A, 0x00, .fadd, true, true, true, false, 0⟩,
   ⟨0x2A, 0x01, .fsub, true, true, true, false, 0⟩,
   ⟨0x2A, 0x02, .fmul, true, true, true, false, 0⟩,
   ⟨0x2A, 0x03, .fdiv, true, true, true, false, 0⟩,
   ⟨0x2A, 0x04, .fsqrt, true, true, false, false, 0⟩,
   ⟨0x2A, 0x05, .fmadd, true, true, true, false, 31⟩,
   ⟨0x2A, 0x06, .fmin, true, true, true, false, 0⟩,
   ⟨0x2A, 0x07, .fmax, true, true, true, false, 0⟩,
   ⟨0x2A, 0x08, .fcmpeq, true, true, true, false, 0⟩,
   ⟨0x2A, 0x09, .fcmplt, true, true, true, false, 0⟩,
   ⟨0x2A, 0x0A, .fcmple, true, true, true, false, 0⟩,
   ⟨0x2A, 0x0B, .fcvtws, true, true, false, false, 0⟩,
   ⟨0x2A, 0x0C, .fcvtsw, true, true, false, false, 0⟩,
   ⟨0x2A, 0x0D, .fneg, true, true, false, false, 0⟩,
   ⟨0x2A, 0x0E, .fabs, true, true, false, false, 0⟩]

/-- The rows of format R. -/
def rowsR : List RowR := rowsAlu ++ rowsControl ++ rowsSower ++ rowsMulDiv ++ rowsDecimal ++ rowsFloat

/-- The rows of formats I and B. -/
def rowsI : List RowI :=
  [⟨0x01, .addi, true, true⟩,
   ⟨0x02, .andi, true, true⟩,
   ⟨0x03, .ori, true, true⟩,
   ⟨0x04, .xori, true, true⟩,
   ⟨0x05, .slti, true, true⟩,
   ⟨0x06, .lui, true, false⟩,
   ⟨0x08, .ldw, true, true⟩,
   ⟨0x09, .ldh, true, true⟩,
   ⟨0x0A, .ldhu, true, true⟩,
   ⟨0x0B, .ldb, true, true⟩,
   ⟨0x0C, .ldbu, true, true⟩,
   ⟨0x0D, .stw, true, true⟩,
   ⟨0x0E, .sth, true, true⟩,
   ⟨0x0F, .stb, true, true⟩,
   ⟨0x10, .xchw, true, true⟩,
   ⟨0x11, .portIn, true, true⟩,
   ⟨0x12, .portOut, true, true⟩,
   ⟨0x13, .ird, true, true⟩,
   ⟨0x14, .iwr, true, true⟩,
   ⟨0x18, .beq, true, true⟩,
   ⟨0x19, .bne, true, true⟩,
   ⟨0x1A, .blt, true, true⟩,
   ⟨0x1B, .bge, true, true⟩,
   ⟨0x1C, .bltu, true, true⟩,
   ⟨0x1D, .bgeu, true, true⟩,
   ⟨0x21, .brk, false, false⟩,
   ⟨0x22, .post, true, true⟩,
   ⟨0x23, .poste, true, true⟩]

/-- The row's field rules hold: a field that it does not name is 0, and sh lies in its range (R537, R541). -/
def RowR.fits (x : RowR) (rd ra rb sh : Reg) : Bool :=
  (x.rd || rd = 0) && (x.ra || ra = 0) && (x.rb || rb = 0) && (!x.even || rd.val % 2 = 0) && sh.val ≤ x.top

def RowI.fits (x : RowI) (rd ra : Reg) : Bool := (x.rd || rd = 0) && (x.ra || ra = 0)

/-- The row of a name. -/
def rowOfR (op : OpR) : Option RowR := rowsR.find? fun x => x.op = op
def rowOfI (op : OpI) : Option RowI := rowsI.find? fun x => x.op = op

/-- Major opcode of a name of format J. -/
def OpJ.major : OpJ → Nat
  | .jmp => 0x1E
  | .call => 0x1F

/-- The instruction is assigned: its fields obey its entry. -/
def Asm.wf : Asm → Bool
  | .r op rd ra rb sh => (rowOfR op).any fun x => x.fits rd ra rb sh
  | .i op rd ra _ => (rowOfI op).any fun x => x.fits rd ra
  | .j _ _ => true

/-- The word of an instruction (R535). -/
def Asm.word : Asm → Word
  | .r op rd ra rb sh =>
    match rowOfR op with
    | some x => rWord x.major rd ra rb sh.val x.fn
    | none => 0#32
  | .i op rd ra imm =>
    match rowOfI op with
    | some x => iWord x.major rd ra imm
    | none => 0#32
  | .j op off => jWord op.major off

/-- A 5-bit field of a word. -/
def field5 (w : Word) (lo : Nat) : Reg := Fin.ofNat 32 (fieldAt w.toNat lo 5)

/-- The instruction of format R in a word. -/
def decodeR (w : Word) : Option Asm :=
  match rowsR.find? fun x => x.major = fieldAt w.toNat 26 6 && x.fn = fieldAt w.toNat 0 6 with
  | some x =>
    if x.fits (field5 w 21) (field5 w 16) (field5 w 11) (field5 w 6) then
      some (.r x.op (field5 w 21) (field5 w 16) (field5 w 11) (field5 w 6))
    else none
  | none => none

/-- The instruction that a word encodes; none where it is unassigned, so that it traps UNDEF (R526, R537). -/
def decodeWord (w : Word) : Option Asm :=
  match fieldAt w.toNat 26 6 with
  | 0x1E => some (.j .jmp (w.setWidth 26))
  | 0x1F => some (.j .call (w.setWidth 26))
  | op =>
    match rowsI.find? fun x => x.major = op with
    | some x =>
      if x.fits (field5 w 21) (field5 w 16) then some (.i x.op (field5 w 21) (field5 w 16) (w.setWidth 16)) else none
    | none => decodeR w

end Sys2Proof.Machine

namespace Sys2Proof

open Sys2Proof.Machine in
/-- The name and the fields of an Oluique instruction; none for another command. -/
def Instr.asm : Instr → Option Asm
  | .nop _ => some (.r .nop 0 0 0 0)
  | .add _ rd ra rb => some (.r .add rd ra rb 0)
  | .sub _ rd ra rb => some (.r .sub rd ra rb 0)
  | .addc _ rd ra rb => some (.r .addc rd ra rb 0)
  | .subc _ rd ra rb => some (.r .subc rd ra rb 0)
  | .and _ rd ra rb => some (.r .and rd ra rb 0)
  | .or _ rd ra rb => some (.r .or rd ra rb 0)
  | .xor _ rd ra rb => some (.r .xor rd ra rb 0)
  | .shl _ rd ra rb => some (.r .shl rd ra rb 0)
  | .shr _ rd ra rb => some (.r .shr rd ra rb 0)
  | .sar _ rd ra rb => some (.r .sar rd ra rb 0)
  | .slt _ rd ra rb => some (.r .slt rd ra rb 0)
  | .sltu _ rd ra rb => some (.r .sltu rd ra rb 0)
  | .clz _ rd ra => some (.r .clz rd ra 0 0)
  | .popc _ rd ra => some (.r .popc rd ra 0 0)
  | .shli _ rd ra n => some (.r .shli rd ra 0 n)
  | .shri _ rd ra n => some (.r .shri rd ra 0 n)
  | .sari _ rd ra n => some (.r .sari rd ra 0 n)
  | .jr _ ra => some (.r .jr 0 ra 0 0)
  | .callr _ ra => some (.r .callr 0 ra 0 0)
  | .ret _ => some (.r .ret 0 0 0 0)
  | .tsr _ rd => some (.r .tsr rd 0 0 0)
  | .tsw _ ra rb => some (.r .tsw 0 ra rb 0)
  | .fence _ => some (.r .fence 0 0 0 0)
  | .next _ => some (.r .next 0 0 0 0)
  | .done _ => some (.r .done 0 0 0 0)
  | .yieldT _ => some (.r .yieldT 0 0 0 0)
  | .flowseize _ rd ra => some (.r .flowseize rd ra 0 0)
  | .mul _ rd ra rb => some (.r .mul rd ra rb 0)
  | .mulhs _ rd ra rb => some (.r .mulhs rd ra rb 0)
  | .mulhu _ rd ra rb => some (.r .mulhu rd ra rb 0)
  | .mulws _ rd ra rb => some (.r .mulws rd ra rb 0)
  | .mulwu _ rd ra rb => some (.r .mulwu rd ra rb 0)
  | .divs _ rd ra rb => some (.r .divs rd ra rb 0)
  | .divu _ rd ra rb => some (.r .divu rd ra rb 0)
  | .rems _ rd ra rb => some (.r .rems rd ra rb 0)
  | .remu _ rd ra rb => some (.r .remu rd ra rb 0)
  | .dadd _ rd ra rb => some (.r .dadd rd ra rb 0)
  | .daddc _ rd ra rb => some (.r .daddc rd ra rb 0)
  | .dsub _ rd ra rb => some (.r .dsub rd ra rb 0)
  | .dsubc _ rd ra rb => some (.r .dsubc rd ra rb 0)
  | .dmulw _ rd ra rb => some (.r .dmulw rd ra rb 0)
  | .dcvb _ rd ra => some (.r .dcvb rd ra 0 0)
  | .dcvd _ rd ra => some (.r .dcvd rd ra 0 0)
  | .dshl _ rd ra n => some (.r .dshl rd ra 0 n)
  | .dshr _ rd ra n => some (.r .dshr rd ra 0 n)
  | .fadd _ rd ra rb => some (.r .fadd rd ra rb 0)
  | .fsub _ rd ra rb => some (.r .fsub rd ra rb 0)
  | .fmul _ rd ra rb => some (.r .fmul rd ra rb 0)
  | .fdiv _ rd ra rb => some (.r .fdiv rd ra rb 0)
  | .fsqrt _ rd ra => some (.r .fsqrt rd ra 0 0)
  | .fmadd _ rd ra rb rc => some (.r .fmadd rd ra rb rc)
  | .fmin _ rd ra rb => some (.r .fmin rd ra rb 0)
  | .fmax _ rd ra rb => some (.r .fmax rd ra rb 0)
  | .fcmpeq _ rd ra rb => some (.r .fcmpeq rd ra rb 0)
  | .fcmplt _ rd ra rb => some (.r .fcmplt rd ra rb 0)
  | .fcmple _ rd ra rb => some (.r .fcmple rd ra rb 0)
  | .fcvtws _ rd ra => some (.r .fcvtws rd ra 0 0)
  | .fcvtsw _ rd ra => some (.r .fcvtsw rd ra 0 0)
  | .fneg _ rd ra => some (.r .fneg rd ra 0 0)
  | .fabs _ rd ra => some (.r .fabs rd ra 0 0)
  | .addi _ rd ra imm => some (.i .addi rd ra imm)
  | .andi _ rd ra imm => some (.i .andi rd ra imm)
  | .ori _ rd ra imm => some (.i .ori rd ra imm)
  | .xori _ rd ra imm => some (.i .xori rd ra imm)
  | .slti _ rd ra imm => some (.i .slti rd ra imm)
  | .lui _ rd imm => some (.i .lui rd 0 imm)
  | .ldw _ rd ra imm => some (.i .ldw rd ra imm)
  | .ldh _ rd ra imm => some (.i .ldh rd ra imm)
  | .ldhu _ rd ra imm => some (.i .ldhu rd ra imm)
  | .ldb _ rd ra imm => some (.i .ldb rd ra imm)
  | .ldbu _ rd ra imm => some (.i .ldbu rd ra imm)
  | .stw _ rd ra imm => some (.i .stw rd ra imm)
  | .sth _ rd ra imm => some (.i .sth rd ra imm)
  | .stb _ rd ra imm => some (.i .stb rd ra imm)
  | .xchw _ rd ra imm => some (.i .xchw rd ra imm)
  | .portIn _ rd ra imm => some (.i .portIn rd ra imm)
  | .portOut _ rd ra imm => some (.i .portOut rd ra imm)
  | .ird _ rd ra imm => some (.i .ird rd ra imm)
  | .iwr _ rd ra imm => some (.i .iwr rd ra imm)
  | .beq _ ra rb off => some (.i .beq ra rb off)
  | .bne _ ra rb off => some (.i .bne ra rb off)
  | .blt _ ra rb off => some (.i .blt ra rb off)
  | .bge _ ra rb off => some (.i .bge ra rb off)
  | .bltu _ ra rb off => some (.i .bltu ra rb off)
  | .bgeu _ ra rb off => some (.i .bgeu ra rb off)
  | .brk _ imm => some (.i .brk 0 0 imm)
  | .post _ rd ra imm => some (.i .post rd ra imm)
  | .poste _ rd ra imm => some (.i .poste rd ra imm)
  | .jmp _ off => some (.j .jmp off)
  | .call _ off => some (.j .call off)
  | _ => none

/-- The word of an Oluique instruction; none for another command (R535). -/
def Instr.word (i : Instr) : Option Word := i.asm.map Machine.Asm.word

end Sys2Proof
end

