-- ==== Sys2Proof/Safety.lean ====
section
/-! DEFINITION. What a safe run is, and the words that claims about runs use: an instruction issues, a line of a session
runs, a command in the domain that is there, and the canonical form of the memories. -/

namespace Sys2Proof

/-- The outcome is a next state. -/
def Completes {σ φ ρ : Type} (o : Host.Outcome σ φ ρ) : Prop := ∃ t, o = .next t

end Sys2Proof

namespace Sys2Proof.Machine

/-- The state of core `k` and thread `t` once every outstanding interlocked result and every delayed result that is due
has been written (R504 to R506), ready to issue the instruction at the thread's PC. -/
def State.written (s : State) (k t : Nat) : State := (s.landInters k t).1.modTh t fun h => h.landDue.ageDelayed

/-- An instruction issues on core `k` for thread `t`: the core executes the thread and does not stall at a hinge access
(R57), no outstanding result traps, the thread's PC lies in its instruction space; the instruction's own effect starts
from state `u`. -/
def Issues (s : State) (k : CoreId) (t : Nat) (u : State) : Prop :=
  s.issuer k.val = some t ∧ (s.landInters k.val t).2 = false ∧
    ∃ x, (s.written k.val t).instrAt t ((s.written k.val t).th t).pc = some x ∧ u = (s.written k.val t).touchCache k.val x

/-- The instruction at the thread's PC has done `f` to the thread, and the thread goes on at the next address (R538). -/
def State.executed (u : State) (t : Nat) (f : Thread → Thread) : State :=
  (u.modTh t f).goPc t (u.th t).pc (nextPc (u.th t).pc)

/-- Of state `v`, thread `t` has executed the instruction at `pc` and goes on at the next address (R538). -/
def State.wentOn (v : State) (t pc : Nat) : State := v.goPc t pc (nextPc pc)

/-- The byte place `y` is one of the `n` bytes from place `x`. -/
def DataAt.covers (x : DataAt) (n : Nat) (y : DataAt) : Prop :=
  match x, y with
  | .sram a, .sram b => a ≤ b ∧ b < a + n
  | .granary a, .granary b => a ≤ b ∧ b < a + n
  | .latch a, .latch b => a ≤ b ∧ b < a + n
  | _, _ => False

/-- A line of session `q.ses` is taken to be run (R121, R122): the session may run a line, its next line says command `c`
(R111 to R119) and is not over-length. `u` is the state with the line taken, on which the checks of R126 are made; `v` the
state in which a ring session with echo has its line back (R104), in which the verb acts. -/
def LineRuns (s : State) (q : Src) (c : Instr) (u v : State) : Prop :=
  s.sends q c = true ∧ s.longFirst q.ses.val = false ∧ u = (s.nextLine q.ses.val).2 ∧
    v = u.ringEcho q.ses.val (s.nextLine q.ses.val).1

/-- The line of command `c` runs and passes the checks of R126 up to resources: what the form needs is announced, the
session has its rights, the state is legal and the values are in range. -/
def LineOk (s : State) (q : Src) (c : Instr) (u v : State) : Prop := LineRuns s q c u v ∧ u.formOk q.ses.val c = true

/-- An access of core `k` to port `p` is served at once: it does not cross the hinge in field state, or no transfer of
another side is held or waits its turn (R51, R53, R54, R56). -/
def Clear (s : State) (k p : Nat) : Prop :=
  s.sys.fieldUp = true → hingePort k p = true → s.hng.waiting = [] ∧ s.hng.asking = []

/-- The state in which an access of the side is made: the earlier port writes of its core have taken effect (R554). -/
def State.drained (s : State) (who : Who) : State := s.drainAll (coreOfWho who)

/-- The side can access port `p`: nothing refuses it, and, once its core's write buffer has drained, a field-domain port is not dark
to LC, and the access is served at once (R545, R554, R555, R672). -/
def Reaches (s : State) (who : Who) (p : Nat) (write : Bool) : Prop :=
  s.mayAccess (coreOfWho who) p write = true ∧ (s.drained who).portDark (coreOfWho who) p = false
    ∧ Clear (s.drained who) (coreOfWho who) p

/-- Every memory of the block is in its canonical form. -/
def State.memOk (s : State) : Prop :=
  Mem.wf zeroByte s.mems.data = true ∧ Mem.wf zeroByte s.mems.plotRam = true ∧ Mem.wf zeroByte s.mems.latch = true
    ∧ Mem.wf Config.latchIram s.mems.iram = true ∧ Mem.wf erased s.mems.flash = true
    ∧ Mem.wf zeroByte s.gran.mem = true ∧ Mem.wf zeroByte s.fur.mem = true ∧ Mem.wf zeroByte s.sdb.mem = true

end Sys2Proof.Machine
end

