-- ==== Sys2Proof/WellFormed.lean ====
section
/-! DEFINITION. Which commands are well formed: the ranges and forms that the grammar (R117, R118) and the rules give the
operands of a command. A verb line with an ill-formed argument is a host error (R126) and an unassigned instruction word
traps UNDEF (R526); the meanings make those checks themselves, so `exec` does not depend on this file. -/

namespace Sys2Proof

/-- Every element of a list is there once. -/
def noRepeat {α : Type} [DecidableEq α] : List α → Bool
  | [] => true
  | a :: l => !l.contains a && noRepeat l

/-- A printable character (R117, R296). -/
def isPrintable (c : Char) : Bool := 0x20 ≤ c.toNat && c.toNat ≤ 0x7E

/-- A letter or digit of RFC 5234. -/
def isAlnum (c : Char) : Bool := c.isAlpha || c.isDigit

/-- `tag` of R117 without its "#", or "-" where the line has none (R116). -/
def tagOk (t : String) : Bool :=
  t = "-" || (1 ≤ t.length && t.length ≤ 8 && t.toList.all isAlnum)

/-- `text` of R117. -/
def textOk (t : String) : Bool := t.length ≤ 64 && t.toList.all fun c => isPrintable c && c ≠ '"'

/-- The text of a line on the ring (R298). -/
def ringOk (t : String) : Bool := 1 ≤ t.length && t.length ≤ 200 && t.toList.all isPrintable

/-- An X verb's name (R205, R519). -/
def xNameOk (t : String) : Bool :=
  match t.toList with
  | c :: l => (c = 'X' || c = 'x') && l.length ≤ 11 && l.all isAlnum
  | [] => false

/-- `value` of R117. -/
def DecVal.ok (v : DecVal) : Bool := v.whole < 1000000 && v.digits ≤ 4 && v.frac < 10 ^ v.digits

/-- `dec` of R117. -/
def decOk (n : Nat) : Bool := n < 4294967296

/-- A list or range names at least one bay, each once. -/
def baysOk (l : List BayNo) : Bool := !l.isEmpty && noRepeat l

/-- The arguments of a verb other than its tag and its bays; every operand of another command. -/
def Instr.args : Instr → Bool
  | .hingeTransferRequest _ fld => noRepeat (fld.map Prod.fst)
  | .forwardAddressedLine _ text => ringOk text
  | .broadcastLine text => ringOk text
  | .bayOn _ l => baysOk l
  | .bayOff _ l => baysOk l
  | .bayInfo _ l => baysOk l
  | .envelopeSet _ _ v => v.ok
  | .profileForget _ l => baysOk l
  | .keys _ l => baysOk l
  | .tag _ l _ _ => baysOk l
  | .tagAuto _ l => baysOk l
  | .faceText _ t => textOk t
  | .fanDuty _ l _ => !l.isEmpty && noRepeat l
  | .fanAuto _ l => !l.isEmpty && noRepeat l
  | .lineBaud _ b => decOk b
  | .prove _ g => 2 ≤ g.length && g.length ≤ 8
  | .tenancyGroup _ _ g => decOk g
  | .tenancyShare _ _ v => v.ok
  | .tenancyAllot _ _ v => v.ok
  | .tenancyWeight _ g w => decOk g && decOk w
  | .assign _ l _ => baysOk l
  | .assignNone _ l => baysOk l
  | .quotaPool _ _ p k => decOk p && decOk k
  | .plotLoad _ _ a => decOk a
  | .xVerb _ name text => xNameOk name && text.length ≤ 200 && text.toList.all isPrintable
  | .traceCoresOn _ l => !l.isEmpty && noRepeat l
  | .traceCoresOff _ l => !l.isEmpty && noRepeat l
  | .traceDump _ k => decOk k
  | .ringSolFrame _ _ _ _ text _ => ringOk text
  | .ringSobFrame _ dest src _ text _ => ringOk text && dest = src
  | .ringSorFrame _ _ _ _ text _ => ringOk text
  | .adcSampleComplete isum vsum =>
    isum.length = 192 && vsum.length = 192 && (isum.all fun i => -65520 ≤ i && i ≤ 65520) && vsum.all fun v => v ≤ 65520
  | .guardSlot main aux =>
    main.length = 96 && aux.length = 96 && (main ++ aux).all fun c => -4095 ≤ c && c ≤ 4095
  | .keypadBay d => !d.isEmpty
  | .keypadTenancy d => !d.isEmpty
  | .mulws _ rd _ _ => rd.val % 2 = 0
  | .mulwu _ rd _ _ => rd.val % 2 = 0
  | .dmulw _ rd _ _ => rd.val % 2 = 0
  | .dcvb _ rd _ => rd.val % 2 = 0
  | .dshl _ _ _ n => n.val ≤ 8
  | .dshr _ _ _ n => n.val ≤ 8
  | _ => true

/-- The session and tag of a line, where the command is a line. -/
def Instr.src : Instr → Option Src
  | .state q => some q
  | .wake q => some q
  | .rest q => some q
  | .bayOn q _ => some q
  | .bayOff q _ => some q
  | .bayLocateOn q _ => some q
  | .bayLocateOff q _ => some q
  | .bayUnlock q _ _ _ => some q
  | .bayInfo q _ => some q
  | .envelope q => some q
  | .envelopeSet q _ _ => some q
  | .profile q _ => some q
  | .profileForget q _ => some q
  | .scan q => some q
  | .scanRow q _ => some q
  | .keys q _ => some q
  | .keysPanel q => some q
  | .keysGeneral q => some q
  | .tag q _ _ _ => some q
  | .tagAuto q _ => some q
  | .face q => some q
  | .faceText q _ => some q
  | .faceTextOff q => some q
  | .faceView q _ => some q
  | .fan q => some q
  | .fanDuty q _ _ => some q
  | .fanAuto q _ => some q
  | .temp q => some q
  | .line q => some q
  | .lineBaud q _ => some q
  | .lineXonOn q => some q
  | .lineXonOff q => some q
  | .echo q => some q
  | .echoOn q => some q
  | .echoOff q => some q
  | .who q => some q
  | .whoAll q => some q
  | .openT q _ => some q
  | .prove q _ => some q
  | .close q => some q
  | .key q _ => some q
  | .keySet q _ _ => some q
  | .keyClear q _ => some q
  | .tenancy q _ => some q
  | .tenancyGroup q _ _ => some q
  | .tenancyShare q _ _ => some q
  | .tenancyAllot q _ _ => some q
  | .tenancyWeight q _ _ => some q
  | .assign q _ _ => some q
  | .assignNone q _ => some q
  | .quota q _ => some q
  | .quotaPool q _ _ _ => some q
  | .ledger q _ => some q
  | .ledgerGaps q _ => some q
  | .ledgerEpoch q _ => some q
  | .time q => some q
  | .timeSet q _ => some q
  | .plot q => some q
  | .plotTenancy q _ => some q
  | .plotLoad q _ _ => some q
  | .plotUnload q _ => some q
  | .xVerb q _ _ => some q
  | .ring q => some q
  | .ringEnum q => some q
  | .ringTermOn q => some q
  | .ringTermOff q => some q
  | .trace q => some q
  | .traceCoresOn q _ => some q
  | .traceCoresOff q _ => some q
  | .traceModeStop q => some q
  | .traceModeWrap q => some q
  | .traceClear q => some q
  | .traceDump q _ => some q
  | .statsQ q _ => some q
  | .statsCore q _ => some q
  | .statsClear q => some q
  | .granary q => some q
  | .granaryUse q _ => some q
  | .granaryModeSingle q => some q
  | .granaryModeSized q => some q
  | .furrow q => some q
  | .seedbank q => some q
  | .selftest q => some q
  | .resetField q => some q
  | .handle q _ => some q
  | .handles q => some q
  | .handlesOrphan q => some q
  | .cancel q _ => some q
  | _ => none

/-- The command is well formed. -/
def Instr.wf (i : Instr) : Bool := i.args && i.src.all fun q => tagOk q.tag

end Sys2Proof
end

