-- ==== Sys2Proof/Certificates/Slice0/Obligations.lean ====
section
/-! DEFINITION. The statements for the provers. Each says of which rules of `spec/` it speaks. The words `Issues`,
`State.executed`, `LineRuns` and `State.memOk` are those of Sys2Proof/Safety.lean. -/

open Sys2Proof Sys2Proof.Machine

/-! ### The machine as a whole -/

/-- A step takes the command at the front of the queue and runs it on the rest (log 1).
On an empty queue the block idles: the model's choice, log 1. -/
def Obligations.StepRunsFront : Prop :=
  (∀ (s : State) (c : Instr) (l : List Instr), s.pending = c :: l → step s = exec c { s with pending := l })
  ∧ (∀ s : State, s.pending = [] → step s = .next s)

/-- No command of the block stops it: R5 leaves no situation undefined, so each command answers a next state. -/
def Obligations.EveryCommandAnswers : Prop := ∀ (c : Instr) (s : State), Completes (exec c s)

/-- No command's effect touches the commands that wait behind it. -/
def Obligations.QueueUntouched : Prop :=
  ∀ (c : Instr) (s t : State), exec c s = .next t → t.pending = s.pending

/-- Every step keeps every memory of the block in its canonical form. -/
def Obligations.StepKeepsMemories : Prop := ∀ s t : State, s.memOk → step s = .next t → t.memOk

/-- The state at reset release: what R69, R71, R92, R93 and R612 give it, and its memories in canonical form. -/
def Obligations.ResetState : Prop :=
  State.reset.memOk ∧ State.reset.pending = [] ∧ State.reset.sys.kst = .latch ∧ State.reset.sys.coldCause = 1
    ∧ State.reset.sys.clamps = 0xFFF#12 ∧ State.reset.sys.fieldUp = false ∧ (State.reset.th 120).st = .running
    ∧ (State.reset.core 6).run = some 120 ∧ (∀ t : Fin 128, t.val ≠ 120 → (State.reset.th t.val).st = .stopped)
    ∧ State.reset.up = [] ∧ (∀ k : Fin 16, (State.reset.sesAt k.val).isOpen = false)

/-- Every assigned instruction word decodes to the instruction it was made from: no bit of an encoding is lost (R535,
R537, R540, R541). -/
def Obligations.DecodeOfWord : Prop := ∀ a : Asm, a.wf = true → decodeWord a.word = some a

/-- A word that decodes is the word of what it decodes to: no two words share a meaning (R537, R540, R541). -/
def Obligations.WordOfDecode : Prop := ∀ (w : Word) (a : Asm), decodeWord w = some a → a.wf = true ∧ a.word = w

/-! ### Oluique: integers -/

/-- ADD, ADDC, SUB and SUBC: the sum or difference modulo 2^32 goes to rd, c to bit 0 of TS, nothing else (R547). -/
def Obligations.CarryArithmetic : Prop :=
  ∀ (s u : State) (k : CoreId) (t : Nat) (rd ra rb : Reg), Issues s k t u →
    exec (.add k rd ra rb) s = .next (u.executed t fun h =>
      { h with regs := regPut h.regs rd (h.reg ra + h.reg rb)
               ts := putBit h.ts 0 (decide (2 ^ 32 ≤ (h.reg ra).toNat + (h.reg rb).toNat)) })
    ∧ exec (.addc k rd ra rb) s = .next (u.executed t fun h =>
      { h with regs := regPut h.regs rd (h.reg ra + h.reg rb + BitVec.ofNat 32 (bitNat (h.ts.getLsbD 0)))
               ts := putBit h.ts 0 (decide (2 ^ 32 ≤ (h.reg ra).toNat + (h.reg rb).toNat + bitNat (h.ts.getLsbD 0))) })
    ∧ exec (.sub k rd ra rb) s = .next (u.executed t fun h =>
      { h with regs := regPut h.regs rd (h.reg ra - h.reg rb)
               ts := putBit h.ts 0 (decide ((h.reg ra).toNat < (h.reg rb).toNat)) })
    ∧ exec (.subc k rd ra rb) s = .next (u.executed t fun h =>
      { h with regs := regPut h.regs rd (h.reg ra - h.reg rb - BitVec.ofNat 32 (bitNat (h.ts.getLsbD 0)))
               ts := putBit h.ts 0 (decide ((h.reg ra).toNat < (h.reg rb).toNat + bitNat (h.ts.getLsbD 0))) })

/-- The other register and immediate forms of R547: each writes rd and no flag. A shift takes its amount from rb [4:0]; CLZ of 0
is 32; an S immediate is sign-extended, a Z immediate zero-extended (R536). -/
def Obligations.RegisterForms : Prop :=
  ∀ (s u : State) (k : CoreId) (t : Nat) (rd ra rb : Reg) (n : Fin 32) (imm : BitVec 16), Issues s k t u →
    let put := fun (f : Word → Word → Word) => u.executed t fun h => { h with regs := regPut h.regs rd (f (h.reg ra) (h.reg rb)) }
    exec (.and k rd ra rb) s = .next (put fun a b => a &&& b)
    ∧ exec (.or k rd ra rb) s = .next (put fun a b => a ||| b)
    ∧ exec (.xor k rd ra rb) s = .next (put fun a b => a ^^^ b)
    ∧ exec (.shl k rd ra rb) s = .next (put fun a b => a <<< (b.toNat % 32))
    ∧ exec (.shr k rd ra rb) s = .next (put fun a b => a >>> (b.toNat % 32))
    ∧ exec (.sar k rd ra rb) s = .next (put fun a b => a.sshiftRight (b.toNat % 32))
    ∧ exec (.slt k rd ra rb) s = .next (put fun a b => if a.toInt < b.toInt then 1#32 else 0#32)
    ∧ exec (.sltu k rd ra rb) s = .next (put fun a b => if a.toNat < b.toNat then 1#32 else 0#32)
    ∧ exec (.popc k rd ra) s = .next (put fun a _ => BitVec.ofNat 32 ((List.range 32).filter fun i => a.getLsbD i).length)
    ∧ exec (.clz k rd ra) s = .next (put fun a _ => BitVec.ofNat 32 (32 - bitLen a.toNat))
    ∧ exec (.shli k rd ra n) s = .next (put fun a _ => a <<< n.val)
    ∧ exec (.shri k rd ra n) s = .next (put fun a _ => a >>> n.val)
    ∧ exec (.sari k rd ra n) s = .next (put fun a _ => a.sshiftRight n.val)
    ∧ exec (.addi k rd ra imm) s = .next (put fun a _ => a + imm.signExtend 32)
    ∧ exec (.andi k rd ra imm) s = .next (put fun a _ => a &&& imm.setWidth 32)
    ∧ exec (.ori k rd ra imm) s = .next (put fun a _ => a ||| imm.setWidth 32)
    ∧ exec (.xori k rd ra imm) s = .next (put fun a _ => a ^^^ imm.setWidth 32)
    ∧ exec (.slti k rd ra imm) s = .next (put fun a _ => if a.toInt < (imm.signExtend 32).toInt then 1#32 else 0#32)
    ∧ exec (.lui k rd imm) s = .next (put fun _ _ => imm.setWidth 32 <<< 16)

/-- g0 discards what is written to it and reads as 0; any other register takes the value, and no other changes (R493). -/
def Obligations.RegisterZero : Prop :=
  ∀ (h : Thread) (rd r : Reg) (v : Word),
    h.reg 0 = 0#32 ∧ (h.putReg rd v).reg r = if r = rd ∧ rd.val ≠ 0 then v else h.reg r

/-! ### Oluique: memory -/

/-- A load of an aligned address in the data space: the value is written after one delay slot, LDH and LDB sign-extended,
LDHU and LDBU zero-extended (R496, R504, R549); IRD reads the instruction space and has two delay slots (R558). Nothing
else changes. -/
def Obligations.Loads : Prop :=
  ∀ (s u : State) (k : CoreId) (t : Nat) (rd ra : Reg) (imm : BitVec 16) (x : DataAt) (y : InstrAt), Issues s k t u →
    let a := ((u.th t).reg ra + imm.signExtend 32).toNat
    let late := fun (v : Word) (slots : Nat) => u.executed t fun h => { h with delayed := h.delayed ++ [⟨rd.val, v, slots⟩] }
    (a % 4 = 0 → u.dataAt t a = some x →
      exec (.ldw k rd ra imm) s = .next (late (BitVec.ofNat 32 (u.readData x 4)) 1))
    ∧ (a % 2 = 0 → u.dataAt t a = some x →
      exec (.ldh k rd ra imm) s = .next (late ((BitVec.ofNat 16 (u.readData x 2)).signExtend 32) 1)
      ∧ exec (.ldhu k rd ra imm) s = .next (late (BitVec.ofNat 32 (u.readData x 2)) 1))
    ∧ (u.dataAt t a = some x →
      exec (.ldb k rd ra imm) s = .next (late ((BitVec.ofNat 8 (u.readData x 1)).signExtend 32) 1)
      ∧ exec (.ldbu k rd ra imm) s = .next (late (BitVec.ofNat 32 (u.readData x 1)) 1))
    ∧ (a % 4 = 0 → u.instrAt t a = some y → exec (.ird k rd ra imm) s = .next (late (u.readInstr y) 2))

/-- A store of an aligned address in the data space: the bytes of the unit read as stored, and every other byte of the
data memories and of the instruction memories is unchanged (R496, R549); XCHW also loads the old word (R551).
IWR by a keeper thread to plot RAM, or by LC to latch instruction RAM, stores the word: it reads as stored, every other byte of
plot RAM and of latch instruction RAM is unchanged, and no data memory changes (R559). The line of a word in plot RAM is in no
field core's cache after it, and every other line stays (R502); a word in latch instruction RAM leaves the caches as they were. -/
def Obligations.Stores : Prop :=
  (∀ (s u : State) (k : CoreId) (t : Nat) (rs ra : Reg) (imm : BitVec 16) (x : DataAt), s.memOk → Issues s k t u →
      let a := ((u.th t).reg ra + imm.signExtend 32).toNat
      let w := ((u.th t).reg rs).toNat
      let stored := fun (v : State) (n : Nat) =>
        v.readData x n = w % 256 ^ n ∧ (∀ y, ¬ x.covers n y → v.readData y 1 = s.readData y 1) ∧ v.mems.plotRam = s.mems.plotRam
          ∧ v.mems.iram = s.mems.iram ∧ v.fur.mem = s.fur.mem ∧ v.sdb.mem = s.sdb.mem
      u.dataAt t a = some x →
      (a % 4 = 0 → exec (.stw k rs ra imm) s = .next ((u.writeData x 4 w).wentOn t (u.th t).pc)
        ∧ stored ((u.writeData x 4 w).wentOn t (u.th t).pc) 4)
      ∧ (a % 2 = 0 → exec (.sth k rs ra imm) s = .next ((u.writeData x 2 (w % 65536)).wentOn t (u.th t).pc)
        ∧ stored ((u.writeData x 2 (w % 65536)).wentOn t (u.th t).pc) 2)
      ∧ (exec (.stb k rs ra imm) s = .next ((u.writeData x 1 (w % 256)).wentOn t (u.th t).pc)
        ∧ stored ((u.writeData x 1 (w % 256)).wentOn t (u.th t).pc) 1)
      ∧ (a % 4 = 0 →
        let v := ((u.writeData x 4 w).modTh t fun h =>
          { h with delayed := h.delayed ++ [⟨rs.val, BitVec.ofNat 32 (u.readData x 4), 1⟩] }).wentOn t (u.th t).pc
        exec (.xchw k rs ra imm) s = .next v ∧ stored v 4))
  ∧ (∀ (s u : State) (k : CoreId) (t : Nat) (rs ra : Reg) (imm : BitVec 16) (x : InstrAt) (c : Nat), s.memOk → Issues s k t u →
      let a := ((u.th t).reg ra + imm.signExtend 32).toNat
      a % 4 = 0 → isPlot t = false → u.instrAt t a = some x → x = .plotRam c ∨ x = .latchRam c →
      ∃ v : State, exec (.iwr k rs ra imm) s = .next v ∧ v.readInstr x = (u.th t).reg rs
        ∧ v.mems.data = s.mems.data ∧ v.mems.latch = s.mems.latch ∧ v.gran.mem = s.gran.mem
        ∧ (∀ b, (x = .plotRam c → b < c ∨ c + 4 ≤ b) → Mem.get zeroByte v.mems.plotRam b = Mem.get zeroByte s.mems.plotRam b)
        ∧ (∀ b, (x = .latchRam c → b < c ∨ c + 4 ≤ b) →
          Mem.get Config.latchIram v.mems.iram b = Mem.get Config.latchIram s.mems.iram b)
        ∧ ∀ j : Fin 6, (x = .latchRam c → (v.core j.val).cache = (u.core j.val).cache)
          ∧ (x = .plotRam c → let l := (0x40000 + c) / 64
            (v.core j.val).cache = cacheDrop l (u.core j.val).cache
            ∧ ∀ p ∈ (v.core j.val).cache, p.1 = l % 64 → p.2.1 ≠ some (l / 64) ∧ p.2.2 ≠ some (l / 64)))

/-- Where an access traps: a misaligned address traps ALIGN before any other check of the access, an address outside the
data regions DSPACE, with the address as detail (R527, R549, R550, R560). The spaces are those of R497 to R499. -/
def Obligations.AccessTraps : Prop :=
  ∀ (s u : State) (k : CoreId) (t : Nat) (rd ra : Reg) (imm : BitVec 16), Issues s k t u →
    let a := ((u.th t).reg ra + imm.signExtend 32).toNat
    let pc := (u.th t).pc
    let d : Word := BitVec.ofNat 32 a
    (a % 4 ≠ 0 → exec (.ldw k rd ra imm) s = .next (u.trap t k.val 14 pc pc d)
      ∧ exec (.stw k rd ra imm) s = .next (u.trap t k.val 14 pc pc d)
      ∧ exec (.xchw k rd ra imm) s = .next (u.trap t k.val 14 pc pc d)
      ∧ exec (.ird k rd ra imm) s = .next (u.trap t k.val 14 pc pc d)
      ∧ exec (.iwr k rd ra imm) s = .next (u.trap t k.val 14 pc pc d))
    ∧ (a % 2 ≠ 0 → exec (.ldh k rd ra imm) s = .next (u.trap t k.val 14 pc pc d)
      ∧ exec (.ldhu k rd ra imm) s = .next (u.trap t k.val 14 pc pc d)
      ∧ exec (.sth k rd ra imm) s = .next (u.trap t k.val 14 pc pc d))
    ∧ (a % 4 = 0 → u.dataAt t a = none → exec (.ldw k rd ra imm) s = .next (u.trap t k.val 3 pc pc d)
      ∧ exec (.stw k rd ra imm) s = .next (u.trap t k.val 3 pc pc d))
    ∧ (a % 4 = 0 → isPlot t = true → exec (.iwr k rd ra imm) s = .next (u.trap t k.val 4 pc pc d))
    ∧ (120 ≤ t → 0x4000 ≤ a → u.dataAt t a = none)
    ∧ (t < 24 → 0x10100000 ≤ a → u.dataAt t a = none)

/-! ### Oluique: control -/

/-- A branch goes to its own address + 4 × off16 modulo 2^24 where its comparison holds, otherwise to the next address,
and changes nothing else (R538, R562, R563). -/
def Obligations.Branches : Prop :=
  ∀ (s u : State) (k : CoreId) (t : Nat) (ra rb : Reg) (off : BitVec 16), Issues s k t u →
    let a := (u.th t).reg ra
    let b := (u.th t).reg rb
    let pc := (u.th t).pc
    let to_ := fun (taken : Prop) [Decidable taken] =>
      u.goPc t pc (if taken then (((pc : Int) + 4 * off.toInt) % 16777216).toNat else nextPc pc)
    exec (.beq k ra rb off) s = .next (to_ (a = b))
    ∧ exec (.bne k ra rb off) s = .next (to_ (a ≠ b))
    ∧ exec (.blt k ra rb off) s = .next (to_ (a.toInt < b.toInt))
    ∧ exec (.bge k ra rb off) s = .next (to_ (b.toInt ≤ a.toInt))
    ∧ exec (.bltu k ra rb off) s = .next (to_ (a.toNat < b.toNat))
    ∧ exec (.bgeu k ra rb off) s = .next (to_ (b.toNat ≤ a.toNat))

/-- JMP and JR transfer; CALL and CALLR push the next address, RET returns to the entry at the pointer, and at depth 12
or 0 with rsw 0 they trap RSOVF and RSUNF and push or pop nothing (R509 to R511, R538, R562). -/
def Obligations.JumpsAndCalls : Prop :=
  ∀ (s u : State) (k : CoreId) (t : Nat) (ra : Reg) (off : BitVec 26), Issues s k t u →
    let h := u.th t
    let near := (((h.pc : Int) + 4 * off.toInt) % 16777216).toNat
    let far := (h.reg ra).toNat / 4 % 4194304 * 4
    let rsw := h.ts.getLsbD 19
    let pushed := u.modTh t fun h => { h with rs := nextPc h.pc :: h.rs.dropLast, rsd := min 12 (h.rsd + 1) }
    let popped := u.modTh t fun h => { h with rs := h.rs.drop 1 ++ h.rs.take 1, rsd := h.rsd - 1 }
    exec (.jmp k off) s = .next (u.goPc t h.pc near)
    ∧ exec (.jr k ra) s = .next (u.goPc t h.pc far)
    ∧ (h.rsd ≠ 12 ∨ rsw = true → exec (.call k off) s = .next (pushed.goPc t h.pc near)
      ∧ exec (.callr k ra) s = .next (pushed.goPc t h.pc far))
    ∧ (h.rsd ≠ 0 ∨ rsw = true → exec (.ret k) s = .next (popped.goPc t h.pc (h.rs.headD 0)))
    ∧ (h.rsd = 12 → rsw = false → exec (.call k off) s = .next (u.trap t k.val 5 h.pc h.pc 12#32)
      ∧ exec (.callr k ra) s = .next (u.trap t k.val 5 h.pc h.pc 12#32))
    ∧ (h.rsd = 0 → rsw = false → exec (.ret k) s = .next (u.trap t k.val 6 h.pc h.pc 0#32))

/-- NOP changes nothing; TSR reads TS whole; TSW writes the fields that rb selects, on LC without bits 3 to 15; BRK traps
BREAK with its immediate (R494, R495, R565, R566, R569). -/
def Obligations.StatusForms : Prop :=
  ∀ (s u : State) (k : CoreId) (t : Nat) (rd ra rb : Reg) (imm : BitVec 16), Issues s k t u →
    let pc := (u.th t).pc
    exec (.nop k) s = .next (u.executed t fun h => h)
    ∧ exec (.tsr k rd) s = .next (u.executed t fun h => { h with regs := regPut h.regs rd.val (tsWord t h) })
    ∧ (∃ f : Thread → Thread, exec (.tsw k ra rb) s = .next (u.executed t f) ∧
      ∀ h, f h = { h with ts := (f h).ts } ∧ ∀ i, i < 20 → (f h).ts.getLsbD i =
        if (h.reg rb).getLsbD i = true ∧ ¬ (120 ≤ t ∧ 3 ≤ i ∧ i < 16) then (h.reg ra).getLsbD i else h.ts.getLsbD i)
    ∧ exec (.brk k imm) s = .next (u.trap t k.val 15 pc pc (imm.setWidth 32))

/-- A trap (R508, R526, R528, R529): outstanding delayed results are written, the thread is FAULTED with its code and
keeps the PC of the trap, its open item is gone, the core is free, and a fault item with these four words stands in the
thread's fault queue, or in the spill where that queue had no room. The header's TENANCY is that of TS plot, as the table of R528 has
it; R640 has 0 in every header (log 87). -/
def Obligations.TrapParks : Prop :=
  ∀ (u : State) (t k code pc : Nat) (d : Word), t < 128 → k < 7 → u.sow.spill.length < 16 →
    let v := u.trap t k code pc pc d
    let item : List Word := [header 3 0 (plotOf t) (0xFE00 + code), BitVec.ofNat 32 (t + 256 * k), BitVec.ofNat 32 pc, d]
    (v.th t).st = .faulted ∧ (v.th t).trap = code ∧ (v.th t).pc = pc ∧ (v.th t).regs = landAll (u.th t).regs (u.th t).delayed
      ∧ (v.th t).delayed = [] ∧ (v.th t).openItem = none ∧ (v.th t).item = none ∧ (v.th t).ts = (u.th t).ts
      ∧ (v.core k).run = none ∧ ((∃ it ∈ v.sow.store, it.words = item ∧ it.q = (u.th t).faultQ)
        ∨ ((u.th t).faultQ, item) ∈ v.sow.spill)
      ∧ v.mems = u.mems ∧ v.gran = u.gran ∧ v.plots = u.plots

/-! ### Oluique: multiply, divide, decimal, float -/

/-- Products (R586, R587): MUL the low word, MULHS and MULHU the high word of the signed and the unsigned product, MULWS and
MULWU both words to an even pair. The result is interlocked: it stands among the thread's outstanding results, and the
register is not written yet (R506). -/
def Obligations.Multiplies : Prop :=
  ∀ (s u : State) (k : CoreId) (t : Nat) (rd ra rb : Reg), Issues s k t u →
    let made := fun (lo : Word → Word → Word) (hi : Option (Word → Word → Word)) => u.executed t fun h =>
      { h with inter := h.inter ++ [{ unit := .mul, rd := rd.val, lo := lo (h.reg ra) (h.reg rb),
                                      hi := hi.map fun f => f (h.reg ra) (h.reg rb), dc := none, dinv := false,
                                      flags := 0#5, pc := h.pc }] }
    let highS : Word → Word → Word := fun a b => ((a.signExtend 64 * b.signExtend 64) >>> 32).setWidth 32
    let highU : Word → Word → Word := fun a b => ((a.setWidth 64 * b.setWidth 64) >>> 32).setWidth 32
    exec (.mul k rd ra rb) s = .next (made (fun a b => a * b) none)
    ∧ exec (.mulhs k rd ra rb) s = .next (made highS none)
    ∧ exec (.mulhu k rd ra rb) s = .next (made highU none)
    ∧ (rd.val % 2 = 0 → exec (.mulws k rd ra rb) s = .next (made (fun a b => a * b) (some highS))
      ∧ exec (.mulwu k rd ra rb) s = .next (made (fun a b => a * b) (some highU)))

/-- Quotients truncate and remainders take the dividend's sign; -2^31 / -1 is -2^31 with remainder 0. With dze 0 a divisor
of 0 gives all ones and the dividend; with dze 1 it traps IDIVZ with the dividend as detail (R588 to R590). -/
def Obligations.Divides : Prop :=
  ∀ (s u : State) (k : CoreId) (t : Nat) (rd ra rb : Reg), Issues s k t u →
    let a := (u.th t).reg ra
    let b := (u.th t).reg rb
    let dze := (u.th t).ts.getLsbD 16
    let made := fun (v : Word) => u.executed t fun h =>
      { h with inter := h.inter ++ [{ unit := .div, rd := rd.val, lo := v, hi := none, dc := none, dinv := false,
                                      flags := 0#5, pc := h.pc }] }
    (b ≠ 0#32 ∨ dze = false →
      exec (.divs k rd ra rb) s = .next (made (if b = 0#32 then 0xFFFFFFFF#32 else a.sdiv b))
      ∧ exec (.divu k rd ra rb) s = .next (made (if b = 0#32 then 0xFFFFFFFF#32 else a / b))
      ∧ exec (.rems k rd ra rb) s = .next (made (a.srem b))
      ∧ exec (.remu k rd ra rb) s = .next (made (a % b)))
    ∧ (b = 0#32 → dze = true →
      ∀ c ∈ [Instr.divs k rd ra rb, .divu k rd ra rb, .rems k rd ra rb, .remu k rd ra rb],
        exec c s = .next (u.trap t k.val 7 (u.th t).pc (u.th t).pc a))

/-- The decimal forms (R592 to R596). On valid operands: sums and differences of eight digits modulo 10^8 with their dc, the
product of sixteen digits as an even pair, conversions, and shifts by up to eight digits. An operand with
an invalid nibble traps DINV with that operand as detail where dinve is 1; with dinve 0 the result sets dinv.
Eight BCD digits hold every value below 10^8 and no nibble of a result is invalid (R592). -/
def Obligations.Decimals : Prop :=
  (∀ (s u : State) (k : CoreId) (t : Nat) (rd ra rb : Reg) (n : Fin 32), Issues s k t u →
      let a := (u.th t).reg ra
      let b := (u.th t).reg rb
      let c := bitNat ((u.th t).ts.getLsbD 1)
      let made := fun (lo : Word) (hi : Option Word) (dc : Option Bool) => u.executed t fun h =>
        { h with inter := h.inter ++ [{ unit := .dec, rd := rd.val, lo := lo, hi := hi, dc := dc, dinv := false,
                                        flags := 0#5, pc := h.pc }] }
      let eight := fun n : Nat => decWord (n % 100000000)
      (bcdBad 8 a.toNat = false → bcdBad 8 b.toNat = false →
        exec (.dadd k rd ra rb) s = .next (made (eight (decOf a + decOf b)) none (some (decide (100000000 ≤ decOf a + decOf b))))
        ∧ exec (.daddc k rd ra rb) s =
          .next (made (eight (decOf a + decOf b + c)) none (some (decide (100000000 ≤ decOf a + decOf b + c))))
        ∧ exec (.dsub k rd ra rb) s =
          .next (made (eight (decOf a + 200000000 - decOf b)) none (some (decide (decOf a < decOf b))))
        ∧ exec (.dsubc k rd ra rb) s =
          .next (made (eight (decOf a + 200000000 - (decOf b + c))) none (some (decide (decOf a < decOf b + c))))
        ∧ (rd.val % 2 = 0 → exec (.dmulw k rd ra rb) s =
          .next (made (eight (decOf a * decOf b)) (some (decWord (decOf a * decOf b / 100000000))) none)))
      ∧ (rd.val % 2 = 0 → exec (.dcvb k rd ra) s = .next (made (eight a.toNat) (some (decWord (a.toNat / 100000000))) none))
      ∧ (bcdBad 8 a.toNat = false →
        exec (.dcvd k rd ra) s = .next (made (BitVec.ofNat 32 (decOf a)) none none)
        ∧ (n.val ≤ 8 → exec (.dshl k rd ra n) s = .next (made (eight (decOf a * 10 ^ n.val)) none none)
          ∧ exec (.dshr k rd ra n) s = .next (made (decWord (decOf a / 10 ^ n.val)) none none)))
      ∧ (bcdBad 8 a.toNat = true →
        ((u.th t).ts.getLsbD 18 = true →
          exec (.dadd k rd ra rb) s = .next (u.trap t k.val 13 (u.th t).pc (u.th t).pc a)
          ∧ exec (.dcvd k rd ra) s = .next (u.trap t k.val 13 (u.th t).pc (u.th t).pc a))
        ∧ ((u.th t).ts.getLsbD 18 = false → ∃ x : Inter, x.dinv = true ∧ x.rd = rd.val ∧
          exec (.dadd k rd ra rb) s = .next (u.executed t fun h => { h with inter := h.inter ++ [x] }))))
  ∧ (∀ n : Nat, n < 100000000 → decOf (decWord n) = n ∧ bcdBad 8 (decWord n).toNat = false)

/-- The float forms on a field core (R597 to R604): each makes an interlocked result whose value and flags its function
gives for the thread's mode fm and rounding rm at issue (R568); FNEG and FABS only change the sign and raise no flag. On LC every
one of them traps UNDEF with its word as detail (R526, R585). -/
def Obligations.Floats : Prop :=
  ∀ (s u : State) (k : CoreId) (t : Nat) (rd ra rb rc : Reg), Issues s k t u →
    let h := u.th t
    let a := h.reg ra
    let b := h.reg rb
    let full := h.ts.getLsbD 3
    let rm := h.ts.toNat / 16 % 4
    let made := fun (r : FRes) => u.executed t fun h =>
      { h with inter := h.inter ++ [{ unit := .float, rd := rd.val, lo := r.1, hi := none, dc := none, dinv := false,
                                      flags := r.2, pc := h.pc }] }
    (t < 120 → exec (.fadd k rd ra rb) s = .next (made (fAdd full rm a b))
      ∧ exec (.fsub k rd ra rb) s = .next (made (fSub full rm a b))
      ∧ exec (.fmul k rd ra rb) s = .next (made (fMul full rm a b))
      ∧ exec (.fdiv k rd ra rb) s = .next (made (fDiv full rm a b))
      ∧ exec (.fsqrt k rd ra) s = .next (made (fSqrt full rm a))
      ∧ exec (.fmadd k rd ra rb rc) s = .next (made (fMadd full rm a b (h.reg rc)))
      ∧ exec (.fmin k rd ra rb) s = .next (made (fPick full false a b))
      ∧ exec (.fmax k rd ra rb) s = .next (made (fPick full true a b))
      ∧ exec (.fcmpeq k rd ra rb) s = .next (made (fCompare full false (fun o => decide (o = 0)) a b))
      ∧ exec (.fcmplt k rd ra rb) s = .next (made (fCompare full true (fun o => decide (o < 0)) a b))
      ∧ exec (.fcmple k rd ra rb) s = .next (made (fCompare full true (fun o => decide (o ≤ 0)) a b))
      ∧ exec (.fcvtws k rd ra) s = .next (made (fToInt full rm a))
      ∧ exec (.fcvtsw k rd ra) s = .next (made (fOfInt full rm a))
      ∧ exec (.fneg k rd ra) s = .next (made (a ^^^ 0x80000000#32, 0#5))
      ∧ exec (.fabs k rd ra) s = .next (made (a &&& 0x7FFFFFFF#32, 0#5)))
    ∧ (120 ≤ t → ∀ c ∈ [Instr.fadd k rd ra rb, .fsub k rd ra rb, .fmul k rd ra rb, .fdiv k rd ra rb, .fsqrt k rd ra,
        .fmadd k rd ra rb rc, .fmin k rd ra rb, .fmax k rd ra rb, .fcmpeq k rd ra rb, .fcmplt k rd ra rb,
        .fcmple k rd ra rb, .fcvtws k rd ra, .fcvtsw k rd ra, .fneg k rd ra, .fabs k rd ra],
      ∃ w, c.word = some w ∧ exec c s = .next (u.trap t k.val 1 (u.th t).pc (u.th t).pc w))

/-- What the float unit computes. A NaN operand makes the result of FADD, FSUB, FMUL, FDIV, FSQRT and FMADD the one quiet NaN, and
raises NV where an operand is signalling and no flag otherwise, but for zero by infinity in FMADD, which always raises it (R599,
R601). A comparison with a NaN is 0; FCMPLT and FCMPLE raise NV for any NaN, FCMPEQ for a signalling one; -0 equals +0 (R601,
R602). The other causes of NV and DZ are those of the table of R601. In PLAIN mode a subnormal operand reads as a zero of its sign
(R598). A result of at most 24 significant bits whose leading bit lies in the normal range is exact and raises nothing; above the
range it is what rm gives and raises OF and NX; below it, it is a zero of its sign with UF and NX in PLAIN mode, and in FULL mode
the subnormal, exact where it has no bit below 2^-149 (R598, R600). A longer value is cut by rm: to the nearest, an even one where two
are equally near, toward zero, upward or downward, and is inexact where a part is cut off (R494, R600). FCVTWS out of range raises NV
alone and writes the limit; FCVTSW of a magnitude up to 2^24 is exact (R603, R604). -/
def Obligations.FloatResults : Prop :=
  (∀ (full : Bool) (rm : Nat) (a b c : Word),
      let x := fRead full a
      let y := fRead full b
      let z := fRead full c
      let nv := fun (raised : Bool) => if raised then 16#5 else 0#5
      let quiet := fun (raised : Bool) => (0x7FC00000#32, nv raised)
      ((x.isNan = true ∨ y.isNan = true) →
        (∀ f ∈ [fAdd, fSub, fMul, fDiv], f full rm a b = quiet (x.isSig || y.isSig))
        ∧ fMadd full rm a b c = quiet (x.isSig || y.isSig || z.isSig)
        ∧ (∀ g, fCompare full false g a b = (0#32, nv (x.isSig || y.isSig)) ∧ fCompare full true g a b = (0#32, 16#5)))
      ∧ (x.isNan = true → fSqrt full rm a = quiet x.isSig ∧ fToInt full rm a = (0x7FFFFFFF#32, 16#5))
      ∧ (∀ p q m n d e, x = .fin p m d → y = .fin q n e →
        (z.isNan = true → fMadd full rm a b c = quiet z.isSig)
        ∧ (n = 0 → fDiv full rm a b = if m = 0 then quiet true else (fPack (p != q) 255 0, 8#5))
        ∧ (m = 0 → n = 0 → fCompare full false (fun o => decide (o = 0)) a b = (1#32, 0#5)))
      ∧ (∀ p q n e, x = .inf p → y = .fin q n e →
        (n = 0 → fMul full rm a b = quiet true ∧ fMul full rm b a = quiet true ∧ fMadd full rm a b c = quiet true
          ∧ fMadd full rm b a c = quiet true)
        ∧ (n ≠ 0 → fMul full rm a b = (fPack (p != q) 255 0, 0#5)))
      ∧ (∀ p q, x = .inf p → y = .inf q → fDiv full rm a b = quiet true
        ∧ fAdd full rm a b = (if p = q then (a, 0#5) else quiet true) ∧ fSub full rm a b = if p = q then quiet true else (a, 0#5))
      ∧ (∀ m e, x = .fin true m e → fSqrt full rm a = if m = 0 then (0x80000000#32, 0#5) else quiet true))
  ∧ (∀ a : Word, a.toNat / 2 ^ 23 % 256 = 0 → fRead false a = .fin (a.getLsbD 31) 0 (-149))
  ∧ (∀ (full neg : Bool) (rm m : Nat) (e : Int), m ≠ 0 → m < 2 ^ 24 →
      let lead := e + bitLen m - 1
      (-126 ≤ lead → lead ≤ 127 → (fRound full rm neg m e false).2 = 0#5
        ∧ fRead full (fRound full rm neg m e false).1 = .fin neg (m * 2 ^ (24 - bitLen m)) (e - (24 - bitLen m : Nat)))
      ∧ (127 < lead → fRound full rm neg m e false =
        (if rm = 0 ∨ (rm = 2 ∧ neg = false) ∨ (rm = 3 ∧ neg = true) ∨ (3 < rm ∧ neg = true) then fPack neg 255 0
          else fPack neg 254 0x7FFFFF, 5#5))
      ∧ (lead < -126 → fRound false rm neg m e false = (fPack neg 0 0, 3#5)
        ∧ (-149 ≤ e → fRound true rm neg m e false = (fPack neg 0 (m * 2 ^ (e + 149).toNat), 0#5))))
  ∧ (∀ (neg : Bool) (m p : Nat),
      let low := m / 2 ^ p
      let cut := m % 2 ^ p
      (∀ rm, (roundShift rm neg m p false).2 = decide (cut ≠ 0) ∧ (cut = 0 → (roundShift rm neg m p false).1 = low))
      ∧ (2 * cut < 2 ^ p → (roundShift 0 neg m p false).1 = low)
      ∧ (2 ^ p < 2 * cut → (roundShift 0 neg m p false).1 = low + 1)
      ∧ (2 * cut = 2 ^ p → (roundShift 0 neg m p false).1 % 2 = 0)
      ∧ (cut ≠ 0 → (roundShift 1 neg m p false).1 = low ∧ (roundShift 2 neg m p false).1 = low + (if neg then 0 else 1)
        ∧ (roundShift 3 neg m p false).1 = low + (if neg then 1 else 0)))
  ∧ (∀ (full : Bool) (rm : Nat) (a : Word),
      (∀ m e, (fRead full a = .fin false m e → 0 ≤ e → 2 ^ 31 ≤ m * 2 ^ e.toNat → fToInt full rm a = (0x7FFFFFFF#32, 16#5))
        ∧ (fRead full a = .fin true m e → 0 ≤ e → 2 ^ 31 < m * 2 ^ e.toNat → fToInt full rm a = (0x80000000#32, 16#5)))
      ∧ (∀ p, fRead full a = .inf p → fToInt full rm a = (if p then 0x80000000#32 else 0x7FFFFFFF#32, 16#5))
      ∧ (a ≠ 0#32 → a.toInt.natAbs ≤ 2 ^ 24 → (fOfInt full rm a).2 = 0#5
        ∧ ∃ m e, fRead full (fOfInt full rm a).1 = .fin (decide (a.toInt < 0)) m e ∧ m * 2 ^ e.toNat = a.toInt.natAbs * 2 ^ (-e).toNat))

/-- Outstanding results (R504 to R506, R593, R596, R605): the delayed results that are due are written where no
interlocked one is outstanding; the oldest interlocked result is written with its dc, dinv and float flags, and where an
enabled float flag is raised the thread traps instead, for the highest-ranked one. After a load, the instruction that follows
reads the old registers, and the second one the loaded value: `Thread.landDue` and `Thread.ageDelayed` are what the issue of an
instruction does to the thread. -/
def Obligations.ResultsWritten : Prop :=
  (∀ (s : State) (k : CoreId) (t : Nat) (i : Inter) (l : List Inter), s.runner k.val = some t →
      ((s.th t).inter = [] → (∃ d ∈ (s.th t).delayed, d.slots = 0) →
        exec (.delayedResultWrite k) s = .next ((s.modTh t fun h => { h with inter := [] }).modTh t fun h =>
          { h with regs := landDelayed h.regs (h.delayed.filter fun d => d.slots = 0)
                   delayed := h.delayed.filter fun d => d.slots ≠ 0 }))
      ∧ ((s.th t).inter = i :: l → i.flags &&& (s.th t).fen = 0#5 →
        exec (.interlockedResult k) s = .next (s.modTh t fun h =>
          { h with inter := l
                   regs := (match i.hi with
                     | some w => regPut (regPut h.regs i.rd i.lo) (i.rd + 1) w
                     | none => regPut h.regs i.rd i.lo)
                   ts := ((if i.dinv then putBit (i.dc.elim h.ts fun b => putBit h.ts 1 b) 17 true
                     else i.dc.elim h.ts fun b => putBit h.ts 1 b) ||| (i.flags.setWidth 20 <<< 6)) }))
      ∧ ((s.th t).inter = i :: l → i.flags &&& (s.th t).fen ≠ 0#5 →
        ∃ code, 8 ≤ code ∧ code ≤ 12 ∧ (i.flags &&& (s.th t).fen).getLsbD (12 - code) = true
          ∧ (∀ j, 12 - code < j → (i.flags &&& (s.th t).fen).getLsbD j = false)
          ∧ exec (.interlockedResult k) s = .next (s.trap t k.val code i.pc i.pc (i.flags.setWidth 32))))
  ∧ (∀ (h : Thread) (rd : Reg) (v : Word), h.delayed = [] →
      let first := (h.delay rd.val v 1).landDue.ageDelayed
      let second := first.landDue.ageDelayed
      first.regs = h.regs ∧ second.regs = regPut h.regs rd.val v ∧ second.delayed = [])

/-! ### Ports, posts and service of items -/

/-- IN and OUT of a port that nothing refuses (R504, R553, R554): the core's earlier port writes take effect first; an access that is
served at once (`Clear`) reads its word, which comes after two delay slots, or writes it, and the thread goes on; where the access is
a hinge transfer that another one precedes, it is asked for, and the core stalls (R53 to R57: `Hinge`). OUT from a field core to a
field port waits in the core's buffer of four, which drains its oldest entry first where it is full. FENCE waits for every port write
(R556). A refused access traps PORT (R555). -/
def Obligations.PortInstructions : Prop :=
  ∀ (s u : State) (k : CoreId) (t : Nat) (rd ra : Reg) (imm : BitVec 16), Issues s k t u →
    let pc := (u.th t).pc
    let p := ((u.th t).reg ra + imm.setWidth 32).toNat % 65536
    let w := (u.th t).reg rd
    let d := u.drainAll k.val
    let r := d.inPort k.val t p
    let o := d.outPort k.val t p w
    let buffered := k.val < 6 ∧ fieldPort p = true
    (u.refuses k.val t p false = false → Clear d k.val p → (r.2.core k.val).run = some t → (r.2.th t).st ≠ .idle →
      exec (.portIn k rd ra imm) s = .next ((r.2.modTh t fun h =>
        if rd.val = 0 then h else { h with delayed := h.delayed ++ [⟨rd.val, r.1, 2⟩] }).wentOn t (r.2.th t).pc))
    ∧ (u.refuses k.val t p true = false → buffered → exec (.portOut k rd ra imm) s =
        .next (((if (u.core k.val).wbuf.length < 4 then u else u.drainOne k.val).modCore k.val fun c =>
          { c with wbuf := c.wbuf ++ [(BitVec.ofNat 16 (bufferedPort t p), w)] }).wentOn t pc))
    ∧ (u.refuses k.val t p true = false → ¬ buffered → Clear d k.val p → (o.th t).st ≠ .idle →
      exec (.portOut k rd ra imm) s = .next (o.wentOn t (o.th t).pc))
    ∧ (¬ Clear d k.val p →
      (u.refuses k.val t p false = false →
        exec (.portIn k rd ra imm) s = .next (d.transfer (insAccess k.val t (.read p rd.val))))
      ∧ (u.refuses k.val t p true = false → ¬ buffered →
        exec (.portOut k rd ra imm) s = .next (d.transfer (insAccess k.val t (.write p w)))))
    ∧ (u.refuses k.val t p false = true → exec (.portIn k rd ra imm) s = .next (u.trap t k.val 2 pc pc (BitVec.ofNat 32 p)))
    ∧ (u.refuses k.val t p true = true →
      exec (.portOut k rd ra imm) s = .next (u.trap t k.val 2 pc pc (BitVec.ofNat 32 (p + 65536))))
    ∧ exec (.fence k) s = .next (d.wentOn t pc)

/-- POST opens an item in a queue with room and adds words to it; the item becomes visible at its POSTE with the number of
its words, less 1, in bits [31:30] of its header, and a plot's with its TENANCY; where the queue has no room the thread enters
WAITSPACE and leaves the core (R570, R571, R634). A plot that posts elsewhere than R512 lets it traps PORT. A post that crosses the
hinge in field state does the same once its transfer is granted, which it is at once where no other waits (R53, R580); while the
field is down, what LC posts toward it is dropped. -/
def Obligations.Posting : Prop :=
  ∀ (s u : State) (k : CoreId) (t : Nat) (rs ra : Reg) (imm : BitVec 16) (o : OpenItem), Issues s k t u → t < 128 →
    (u.th t).st ≠ .idle →
    let q := ((u.th t).reg ra + imm.setWidth 32).toNat % 64
    let w := (u.th t).reg rs
    let pc := (u.th t).pc
    let setOpen := fun (v : State) (o : Option OpenItem) => v.modTh t fun h => { h with openItem := o }
    let atOnce := fun (n : Nat) => crosses k.val n = false
      ∨ u.sys.fieldUp = true ∧ u.hng.waiting = [] ∧ u.hng.asking = []
    let g := fun (n : Nat) => if crosses k.val n then u.granted k.val else u
    let fresh := (u.th t).openItem = none ∧ postAllowed t q = true ∧ u.hasRoom q = true ∧ u.waiter q = none ∧ atOnce q
    let adds := (u.th t).openItem = some o ∧ o.flushed = none ∧ o.dropped = false ∧ atOnce o.q
    (fresh → exec (.post k rs ra imm) s =
      .next ((setOpen (g q) (some { q := q, words := [w], flushed := none, dropped := false })).wentOn t pc))
    ∧ (fresh →
      let v := (setOpen ((g q).drainAll k.val) none).visible q [header 0 (fieldAt w.toNat 20 10)
        (if isPlot t then plotOf t else fieldAt w.toNat 16 4) (fieldAt w.toNat 0 16)]
      (v.th t).st ≠ .idle → (v.th t).pc = pc → exec (.poste k rs ra imm) s = .next (v.wentOn t pc))
    ∧ (adds → o.words.length < 3 →
      exec (.post k rs ra imm) s = .next ((setOpen (g o.q) (some { o with words := o.words ++ [w] })).wentOn t pc))
    ∧ (adds → o.words.length ≤ 3 → ∃ words : List Word,
      (∀ v, v = (setOpen ((g o.q).drainAll k.val) none).visible o.q words → (v.th t).st ≠ .idle → (v.th t).pc = pc →
        exec (.poste k rs ra imm) s = .next (v.wentOn t pc))
      ∧ words.length = o.words.length + 1 ∧ words.tail = (o.words ++ [w]).tail
      ∧ fieldAt (words.headD 0).toNat 30 2 = o.words.length
      ∧ fieldAt (words.headD 0).toNat 20 10 = fieldAt ((o.words ++ [w]).headD 0).toNat 20 10
      ∧ fieldAt (words.headD 0).toNat 0 16 = fieldAt ((o.words ++ [w]).headD 0).toNat 0 16
      ∧ fieldAt (words.headD 0).toNat 16 4 = if isPlot t then plotOf t else fieldAt ((o.words ++ [w]).headD 0).toNat 16 4)
    ∧ ((u.th t).openItem = none → postAllowed t q = true → crosses k.val q = false → u.hasRoom q = false →
      ∃ v, exec (.post k rs ra imm) s = .next v ∧ (v.th t).st = .waitspace
        ∧ (v.th t).wait = some { q := q, w := w, last := false } ∧ (v.th t).pc = pc
        ∧ (v.core k.val).run = none ∧ v.sow.claims = u.sow.claims ++ [(q, .thread t)])
    ∧ ((u.th t).openItem = none → postAllowed t q = false →
      exec (.post k rs ra imm) s = .next (u.trap t k.val 2 pc pc (BitVec.ofNat 32 (q + 131072)))
      ∧ exec (.poste k rs ra imm) s = .next (u.trap t k.val 2 pc pc (BitVec.ofNat 32 (q + 131072))))
    ∧ ((u.th t).openItem = none → postAllowed t q = true → k.val = 6 → q < 56 → u.sys.fieldUp = false →
      exec (.post k rs ra imm) s =
        .next ((setOpen u (some { q := q, words := [w], flushed := none, dropped := true })).wentOn t pc)
      ∧ exec (.poste k rs ra imm) s =
        .next (((setOpen u none).modSow fun x => { x with dropped := satInc 65535 x.dropped }).wentOn t pc))

/-- DONE ends service of the thread's item: the thread is IDLE at the next address without an item, and the core is free.
YIELD leaves the item with the thread, which becomes READY with a new age. FLOWSEIZE of a fenced flow gives 1 and unfences
it, of another flow 0, and traps UNDEF in a plot (R512, R575 to R578). NEXT acts as DONE unless the chosen pair names this thread
and no standby pair waits. -/
def Obligations.ServiceOfItems : Prop :=
  ∀ (s u : State) (k : CoreId) (t : Nat) (rd ra : Reg), Issues s k t u → t < 128 →
    let h := u.th t
    (∃ v, exec (.done k) s = .next v ∧ (v.th t).st = .idle ∧ (v.th t).item = none ∧ (v.th t).pc = nextPc h.pc
      ∧ (v.th t).regs = landAll h.regs h.delayed ∧ (v.core k.val).run = none ∧ v.sow.store = u.sow.store
      ∧ v.sow.fenced = u.sow.fenced ∧ v.mems = u.mems)
    ∧ (∃ v, exec (.yieldT k) s = .next v ∧ (v.th t).st = .ready ∧ (v.th t).item = h.item ∧ (v.th t).pc = nextPc h.pc
      ∧ (v.th t).yieldAge = some u.sow.nextAge ∧ v.sow.nextAge = u.sow.nextAge + 1 ∧ (v.core k.val).run = none)
    ∧ ((u.core k.val).standby.isSome = true ∨ u.servable k.val = false ∨ ((u.endService t).choose k.val).1 = none → ∃ v,
      exec (.done k) s = .next v ∧ exec (.next k) s = .next v.commitX)
    ∧ (∀ p, (u.core k.val).standby = none → u.servable k.val = true → ((u.endService t).choose k.val).1 = some p → p.tid = t →
      p.held = false → p.item.isSome = true → ∃ v, exec (.next k) s = .next v ∧ (v.th t).st = .running ∧ (v.th t).item = p.item
        ∧ (v.th t).pc = nextPc h.pc)
    ∧ (∀ p, (u.core k.val).standby = none → u.servable k.val = true → ((u.endService t).choose k.val).1 = some p →
      p.tid ≠ t ∨ p.held = true → ∃ v, exec (.done k) s = .next v ∧ exec (.next k) s = .next v.commitX)
    ∧ (∀ x, isPlot t = false → u.sow.fenced.find? (fun p => p.1 = fieldAt (h.reg ra).toNat 0 10) = x → ∃ v i,
      exec (.flowseize k rd ra) s = .next v ∧ (v.th t).inter = h.inter ++ [i] ∧ i.rd = rd.val
        ∧ i.lo = (if x.isSome then 1#32 else 0#32)
        ∧ v.sow.fenced = (if x.isSome then u.sow.fenced.filter fun p => p.1 ≠ fieldAt (h.reg ra).toNat 0 10 else u.sow.fenced))
    ∧ (isPlot t = true → ∃ w, (Instr.flowseize k rd ra).word = some w
      ∧ exec (.flowseize k rd ra) s = .next (u.trap t k.val 1 h.pc h.pc w))

/-! ### The Sower -/

/-- What the Sower chooses (R623, R625): a pair of the core, of the highest urgency there is, and under weighted selection
the oldest of its group and urgency. -/
def Obligations.ChoiceIsUrgent : Prop :=
  ∀ (s s' : State) (k : Nat) (p : Pair), s.choose k = (some p, s') →
    p ∈ s.pairs k ∧ (∀ q ∈ s.pairs k, q.urg ≤ p.urg)
      ∧ (s.sow.affinity = false → ∀ q ∈ s.pairs k, q.urg = p.urg → q.group = p.group → p.age ≤ q.age)

/-- Items of one flow go one at a time and in their age order: a new pair's item of a flow other than 0x000 is one whose flow
no thread holds and of which no older item is queued (R620, R622). -/
def Obligations.FlowsInOrder : Prop :=
  ∀ (s : State) (k : Nat) (p : Pair) (it : Item), p ∈ s.newPairs k → p.item = some it → it.flow ≠ 0 →
    it ∈ s.sow.store ∧ (∀ x ∈ s.heldItems, x.1.flow ≠ it.flow) ∧ (∀ x ∈ s.sow.fenced, x.1 ≠ it.flow)
      ∧ ∀ o ∈ s.sow.store, o.flow = it.flow → it.age ≤ o.age

/-- A free core that is served takes its standby pair, or where it has none the chosen pair: a new item leaves the store, the thread
runs there with the item's words in g28 to g31 (R492, R612, R625, R628); a prefetch core that runs a thread takes it into its empty
standby slot, and its thread stands by (R628). A pair that no core can take at once (R631): one of urgency 3 in the field part
preempts the preempt core with the running item of lowest urgency, where one is below 3; otherwise it goes into the first empty
standby slot, otherwise into the slot of the lowest urgency below its own, whose pair is cancelled: its item goes back to its place
and its thread is IDLE, or READY where it had run (R630). Where there is no such slot, or no pair, nothing happens. -/
def Obligations.Dispatching : Prop :=
  (∀ (s s' : State) (k : CoreId) (p : Pair), s.servable k.val = true → (s.core k.val).standby = none →
      s.choose k.val = (some p, s') → p.tid < 128 →
      let taken := fun (v : State) => p.held = false → ∀ it, p.item = some it → v.sow.store = s.sow.store.filter fun x => x.age ≠ it.age
      ((s.core k.val).run = none → ∃ v, exec (.dispatch k) s = .next (State.commitX v) ∧ (v.core k.val).run = some p.tid
        ∧ (v.th p.tid).st = .running ∧ (v.th p.tid).lastCore = k.val ∧ (v.th p.tid).item = p.item
        ∧ ((s.th p.tid).wait = none → taken v)
        ∧ (∀ it, p.item = some it → (v.th p.tid).regs[28] = it.word 0 ∧ (v.th p.tid).regs[29] = it.word 1
          ∧ (v.th p.tid).regs[30] = it.word 2 ∧ (v.th p.tid).regs[31] = it.word 3))
      ∧ ((s.core k.val).run.isSome = true → s.prefetchCore k.val = true → ∃ v, exec (.prefetch k) s = .next v
        ∧ (v.core k.val).standby = some p.tid ∧ (v.th p.tid).st = .standby ∧ (v.th p.tid).item = p.item
        ∧ (v.core k.val).run = (s.core k.val).run ∧ taken v))
  ∧ (∀ (s : State) (k : CoreId) (t : Tid), s.servable k.val = true → (s.core k.val).run = none → (s.core k.val).standby = some t.val →
      ∃ v, exec (.dispatch k) s = .next (State.commitX v) ∧ (v.core k.val).run = some t.val ∧ (v.core k.val).standby = none
        ∧ (v.th t.val).st = .running ∧ (v.th t.val).item = (s.th t.val).item)
  ∧ (∀ (s : State) (latch : Bool) (k0 : Nat) (live : List Nat),
      (if latch then [6] else List.range 6).filter s.servable = k0 :: live → (s.pairs k0).isEmpty = false →
      (k0 :: live).any (fun k => (s.core k).run.isNone) = false →
      let u := (s.pairs k0).foldl (fun m p => max m p.urg) 0
      let lower := bestSlot (s.lowerSlots (k0 :: live) u)
      (u = 3 → k0 ≠ 6 → ∀ k, bestSlot s.preemptCores = some k → exec (.preempt latch) s = .next (s.preemptOn k).commitX)
      ∧ (u ≠ 3 ∨ k0 = 6 ∨ bestSlot s.preemptCores = none →
        (∀ k, (k0 :: live).find? s.slotOpen = some k → exec (.preempt latch) s = .next (s.fillSlot k).commitX)
        ∧ ((k0 :: live).find? s.slotOpen = none →
          (∀ k, lower = some k → exec (.preempt latch) s = .next ((s.unprefetch k k 0 false).fillSlot k).commitX)
          ∧ (lower = none → exec (.preempt latch) s = .next s.commitX))))
  ∧ (∀ (s : State) (k : CoreId) (t : Tid) (at_ cause : Nat), (s.core k.val).standby = some t.val →
      let v := s.unprefetch k.val at_ cause false
      (v.core k.val).standby = none
      ∧ ((s.th t.val).resumed = true → (v.th t.val).st = .ready ∧ (v.th t.val).item = (s.th t.val).item ∧ v.sow.store = s.sow.store)
      ∧ ((s.th t.val).resumed = false → (v.th t.val).st = .idle ∧ (v.th t.val).item = none
        ∧ ∀ it, (s.th t.val).item = some it → v.sow.store = insertAge it s.sow.store))
  ∧ (∀ s : State, (List.range 6).all (fun k => (s.pairs k).isEmpty) = true → exec (.preempt false) s = .next s.commitX)

/-- CMD STOP by LC: the thread, whatever results of it are outstanding, is STOPPED, without item, open item, outstanding delayed
results or claim, no core runs it and it stands by on none, or, where it stalls at a hinge access, it is STOPPED once that has
completed (R57). CMD START: a STOPPED or FAULTED thread is IDLE, and another is left as it is (R614), as is, by log 97, one that BREAK
has parked (R696). -/
def Obligations.StopAndStart : Prop :=
  ∀ (s : State) (t : Tid), s.reachT t.val = true →
    ((s.th t.val).st ≠ .stopped → s.midAccess t.val = true →
      exec (.threadStop t) s = .next (s.modTh t.val fun h => { h with stopping := true }))
    ∧ ((s.th t.val).st ≠ .stopped → s.midAccess t.val = false → ∃ v, exec (.threadStop t) s = .next v ∧ (v.th t.val).st = .stopped
      ∧ (v.th t.val).item = none ∧ (v.th t.val).openItem = none ∧ (v.th t.val).wait = none ∧ (v.th t.val).delayed = []
      ∧ (∀ q, (q, Claimant.thread t.val) ∉ v.sow.claims)
      ∧ ∀ k : Fin 7, (v.core k.val).run ≠ some t.val ∧ (v.core k.val).standby ≠ some t.val)
    ∧ ((s.th t.val).st = .stopped → exec (.threadStop t) s = .next s)
    ∧ exec (.threadStart t) s = .next (if (s.th t.val).st = .stopped ∨ ((s.th t.val).st = .faulted ∧ (s.th t.val).trap ≠ 15)
        then s.modTh t.val fun h => { h with st := .idle, trap := 0 } else s)

/-- A place of a queue goes to the claimant that waits first: a waiting thread becomes READY with its open item claimed
(R634); an item of the fault spill joins its queue in its turn, oldest first (R529). -/
def Obligations.PlacesAndSpill : Prop :=
  ∀ (s : State) (q : Fin 64), s.hasRoom q.val = true →
    (∀ t, s.waiter q.val = some (.thread t) → exec (.waitspaceGrant q) s =
      .next ((s.modSow fun w => { w with claims := dropFirst q.val w.claims }).modTh t fun h =>
        { h with st := .ready, openItem := some { q := q.val, words := [], flushed := none, dropped := false } }))
    ∧ (∀ w l, s.waiter q.val = some .spilled → takeSpill q.val s.sow.spill = (some w, l) → ∃ v, exec (.spillPost q) s = .next v ∧ v.sow.spill = l
      ∧ ∃ it, v.sow.store = s.sow.store ++ [it] ∧ it.words = w ∧ it.q = q.val)

/-- The Sower's configuration ports (R619, R627, R633), where the side's earlier port writes have taken effect first (R554): a legal
depth limit, urgency and group are set together and a limit of 0 or above 256, or one that the part has no room for, changes nothing
and counts in its part; a weight of 0 stores 1; a write of MODE or a weight returns the deficits and the pointer to 0. -/
def Obligations.SowerPorts : Prop :=
  ∀ (s : State) (who : Who) (q : Fin 64) (v : Word) (g : Fin 8) (w : Byte) (b : Bool) (mask : BitVec 6),
    let d := s.drained who
    (Reaches s who (0x240 + q.val) true →
      let g := if q.val < 56 then d else d.granted (coreOfWho who)
      let fits := 1 ≤ fieldAt v.toNat 0 9 ∧ fieldAt v.toNat 0 9 ≤ 256
        ∧ d.limitSum (q.val < 56) q.val (fieldAt v.toNat 0 9) ≤ (if q.val < 56 then 3584 else 512)
      (fits → exec (.sowQWrite who q v) s = .next (g.modQue q.val fun x =>
          { x with limit := fieldAt v.toNat 0 9, urg := fieldAt v.toNat 12 2, group := fieldAt v.toNat 16 3 }))
      ∧ (¬ fits → exec (.sowQWrite who q v) s = .next (g.modSow fun x =>
        if q.val < 56 then { x with rej := satInc 255 x.rej } else { x with rejL := satInc 255 x.rejL })))
    ∧ (Reaches s who (0x208 + g.val) true → exec (.sowWeightWrite who g w) s = .next (d.modSow fun x =>
        { x with weights := vset x.weights g.val (if w = 0#8 then 1 else w.toNat), ptrF := 0, ptrL := 0
                 defF := Vector.replicate 8 0, defL := Vector.replicate 8 0 }))
    ∧ (Reaches s who 0x200 true → exec (.sowModeWrite who b) s = .next (d.modSow fun x =>
        { x with affinity := b, ptrF := 0, ptrL := 0, defF := Vector.replicate 8 0, defL := Vector.replicate 8 0 }))
    ∧ (Reaches s who 0x200 true → ∃ t, exec (.sowDispatchWrite who b) s = .next t ∧ t.sow.dispatch = b
        ∧ t.sow.affinity = d.sow.affinity ∧ t.sow.preempt = d.sow.preempt
        ∧ (d.sow.dispatch = true → b = false → ∀ k : Fin 6, (t.core k.val).standby = none))
    ∧ (Reaches s who 0x200 true → ∃ t, exec (.sowPreemptWrite who mask) s = .next t ∧ t.sow.preempt = mask
        ∧ t.sow.dispatch = d.sow.dispatch ∧ t.sow.affinity = d.sow.affinity
        ∧ ∀ k : Fin 6, mask.getLsbD k.val = true → d.sow.preempt.getLsbD k.val = false → (t.core k.val).standby = none)

/-- A flush empties the queue of its items, and no item of another queue is lost (R636). A selection of statistics stands in
the core's own copy; CLEAR returns every count to 0 and HIGH to the depth (R645, R647). A read of the context window gives
no change but the next word, a write of a thread that neither runs nor stands by writes its word; TRACE clear empties the trace; a
read of the trace moves to the next entry (R642, R648). The side's earlier port writes have taken effect first (R554). -/
def Obligations.SowerWindows : Prop :=
  ∀ (s : State) (who : Who) (q : Fin 64) (sel : BitVec 7) (x : Word),
    let d := s.drained who
    let c := d.core (coreOfWho who)
    (Reaches s who (if q.val < 56 then 0x202 else 0x3F4) true → ∃ t, exec (.queueFlush who q) s = .next t
      ∧ (∀ it ∈ t.sow.store, it.q ≠ q.val) ∧ (∀ it ∈ d.sow.store, it.q ≠ q.val → it ∈ t.sow.store))
    ∧ (Reaches s who 0x210 true → ∃ t, exec (.sowStatsSelect who sel) s = .next t ∧ (t.core (coreOfWho who)).stSel = sel.toNat
      ∧ t.mems = d.mems ∧ t.sow.store = d.sow.store)
    ∧ (Reaches s who 0x210 true → c.stSel < 128 → ∃ t, exec (.sowStatsClear who) s = .next t
      ∧ (∀ n : Fin 64, (t.que n.val).high = d.depth n.val ∧ (t.que n.val).dispatch = 0 ∧ (t.que n.val).waitSum = 0
        ∧ (t.que n.val).waitMax = 0)
      ∧ ∀ k : Fin 7, (t.core k.val).busy = 0 ∧ (t.core k.val).idle = 0 ∧ (t.core k.val).switches = 0 ∧ (t.core k.val).prefetches = 0
        ∧ (t.core k.val).unprefetches = 0 ∧ (t.core k.val).preempts = 0)
    ∧ (Reaches s who 0x219 false → exec (.contextWindowAccess who false none) s =
      .next (d.modCore (coreOfWho who) fun c => { c with cxWord := if 45 ≤ c.cxWord then 0 else c.cxWord + 1 }))
    ∧ (Reaches s .lc 0x3F2 false → exec (.contextWindowAccess .lc true none) s =
      .next ((s.drained .lc).modSow fun w => { w with lcxWord := if 45 ≤ w.lcxWord then 0 else w.lcxWord + 1 }))
    ∧ (Reaches s who 0x219 true → 1 ≤ c.cxWord → c.cxWord < 32 → c.cxTid < 120 → (d.th c.cxTid).st ≠ .running →
      (d.th c.cxTid).st ≠ .standby → ∃ t, exec (.contextWindowAccess who false (some x)) s = .next t
        ∧ vget (t.th c.cxTid).regs c.cxWord = x ∧ t.mems = d.mems)
    ∧ (Reaches s who 0x220 true → ∃ t, exec (.tracePortClear who) s = .next t ∧ t.sow.trace = [] ∧ t.sow.trMissed = 0
      ∧ t.sow.store = d.sow.store ∧ t.mems = d.mems)
    ∧ (Reaches s who 0x223 false → exec (.traceRead who) s = .next (d.modSow fun w =>
      { w with trHi := (w.trace.getD w.trIdx 0#64 >>> 32).setWidth 32, trIdx := (w.trIdx + 1) % 4096 }))

/-! ### The Granary and the other ports -/

/-- A TAKE takes from the first of its pools (the pools of its size class and above in sized mode, pool 0 for classes 0 and 1 in
single mode) in which the requester is within its quota and more buffers are free than are owed to other keeper units (R651, R657):
its result is the address of that pool's first free buffer, the buffer's bit goes to 0, the requester's count rises, and no other
bit changes; where there is no such pool it gives 0 and counts in FAILS. A GIVE of that address by the same requester sets the bit
and lowers the count again, so that the Granary stands as before the TAKE (R650, R661); `takers` is the model's own record. -/
def Obligations.TakeAndGive : Prop :=
  ∀ (g : Granary) (r sl : Nat), r < 32 → sl < 4 →
    let has := fun p => (if g.sized then sl ≤ p ∧ p < 4 else sl < 2 ∧ p = 0)
      ∧ g.inuseOf r p < g.quotaOf r p ∧ g.owed r p < g.free p
    let x := g.take r sl
    (∀ p, has p → (∀ j, j < p → ¬ has j) → ∃ i, i < poolBuffers p ∧ g.bit p i = true ∧ (∀ j, j < i → g.bit p j = false)
      ∧ x.1 = BitVec.ofNat 32 (0x10000000 + p * 0x40000 + i * (if g.sized then 64 * 4 ^ p else 256))
      ∧ x.2.bit p i = false ∧ (∀ q j, q < 4 → (q, j) ≠ (p, i) → x.2.bit q j = g.bit q j)
      ∧ x.2.inuseOf r p = g.inuseOf r p + 1 ∧ x.2.fails = g.fails
      ∧ x.2.give r x.1 = { g with takers := g.takers.filter fun y => (y.1, y.2.1) ≠ (p, i) })
    ∧ ((∀ p, ¬ has p) → x = (0#32, { g with fails := satInc 65535 g.fails }))

/-- The Granary ports, once the core's earlier port writes have taken effect (R554, R660). A field core's TAKE and GIVE act as the
Granary decides, with a plot's own tenancy as requester (R657, R661, R668); a quota is clipped to its pool's buffer count, and a
minimum that does not fit, with those of the other requesters, changes nothing and counts (R655); MODE changes while every buffer is
free, and then every bit is 1 and every count 0, otherwise it changes nothing and counts (R651). In single mode the pool selected is
pool 0. LC's TAKE reads 0 and takes nothing, and its write of MODE has no effect (R669, R671). -/
def Obligations.GranaryPorts : Prop :=
  ∀ (s : State) (k : Fin 6) (r : Fin 32) (sl p : Fin 4) (a : Word) (b : Bool) (v : BitVec 13),
    let d := s.drained (.fc k)
    let q := requester (s.accessor k.val) r.val
    let pool := if d.gran.sized then p.val else 0
    (Reaches s (.fc k) (0x480 + 4 * r.val + sl.val) false → exec (.granaryTake ⟨k.val, by omega⟩ r sl) s =
      .next { d with gran := (d.gran.take q sl.val).2 })
    ∧ (Reaches s (.fc k) (0x440 + r.val) true → exec (.granaryGive ⟨k.val, by omega⟩ r a) s =
      .next { d with gran := d.gran.give q a })
    ∧ (Reaches s (.fc k) 0x400 true → d.gran.allFree = false → exec (.granaryModeWrite (.fc k) b) s =
      .next { d with gran := { d.gran with rej := satInc 255 d.gran.rej } })
    ∧ (Reaches s (.fc k) 0x400 true → d.gran.allFree = true → ∃ t, exec (.granaryModeWrite (.fc k) b) s = .next t
      ∧ t.gran.sized = b ∧ (∀ i : Fin 4, ∀ j, j < poolBuffers i.val → t.gran.bit i.val j = true)
      ∧ (∀ (i : Fin 32) (j : Fin 4), t.gran.inuseOf i.val j.val = 0) ∧ t.gran.quota = d.gran.quota ∧ t.gran.min = d.gran.min
      ∧ t.gran.rej = d.gran.rej ∧ t.gran.mem = d.gran.mem)
    ∧ (Reaches s (.fc k) 0x410 true → d.mayAccess k.val 0x411 true = true →
      ∃ t, exec (.granaryQuotaWrite (.fc k) r p v) s = .next t
        ∧ t.gran.quotaOf r.val pool = min v.toNat (poolBuffers pool)
        ∧ (∀ i j, (i, j) ≠ (r.val, pool) → t.gran.quotaOf i j = d.gran.quotaOf i j))
    ∧ (Reaches s (.fc k) 0x410 true → d.mayAccess k.val 0x412 true = true →
      let sum := (List.range 32).foldl (fun n j => n + (if j = r.val then v.toNat else d.gran.minOf j pool)) 0
      ∃ t, exec (.granaryMinWrite (.fc k) r p v) s = .next t
        ∧ (16 ≤ r.val → sum ≤ poolBuffers pool → t.gran.minOf r.val pool = v.toNat ∧ t.gran.rej = d.gran.rej)
        ∧ (16 ≤ r.val → poolBuffers pool < sum → t.gran = { d.gran with rej := satInc 255 d.gran.rej })
        ∧ (r.val < 16 → t.gran = d.gran))
    ∧ (Reaches s .lc (0x480 + 4 * r.val + sl.val) false → exec (.granaryTake 6 r sl) s = .next (s.drained .lc))
    ∧ (Reaches s .lc 0x400 true → exec (.granaryModeWrite .lc b) s = .next (s.drained .lc))

/-- A write of a register by a side that reaches it is the port's write, after the earlier port writes of its core (R14, R545, R554,
R672); ALERT writes SYS_ALERT ASSERT (R692); a GO of a legal transfer makes the port busy with it, and its end sets DONE (R676). The
oldest write of a core's buffer takes effect as a write of its port by that core (R554). Access codes and values (R14, R17): SYS_STATUS
is RO, its word is that of STATE, FIELD_UP, HEAD and CLAMPS with every other bit 0, and a write changes nothing; SYS_ALERT bit 0 is RW
for LC alone and bits 31 to 2 read 0; HNG_HB EXPIRED is W1C, for LC alone (R65); CON_RX is RC: it reads the oldest character with
VALID, and takes it out of the store, or 0 where there is none, and a write is ignored (R674); ENV_EVENTS is W1C and ENV_PEAK RC (R455);
a port of the system block that its table does not list reads 0, and a write is ignored. -/
def Obligations.OtherPorts : Prop :=
  (∀ (s : State) (who : Who) (p : BitVec 16) (v : Word) (b : Bool),
    let d := s.drained who
    (Reaches s who p.toNat true → exec (.registerWrite who p v) s =
      .next ((if hingePort (coreOfWho who) p.toNat then d.granted (coreOfWho who) else d).writePort (coreOfWho who)
        (s.accessor (coreOfWho who)) p.toNat v))
    ∧ (Reaches s .lc 5 true → exec (.alertWrite b) s = .next ((s.drained .lc).modSys fun y => { y with alert := b }))
    ∧ (Reaches s who 0xB01 true → d.spi.job = none → d.spi.cmd < 4 → 4 ≤ d.spi.len → d.spi.len ≤ 4096 → d.spi.len % 4 = 0 →
      d.spi.dest % 4 = 0 → d.spi.dest < 0x40000 → ∃ t, exec (.spiGo who) s = .next t
        ∧ t.spi.job = some (d.spi.addr, d.spi.dest, d.spi.len) ∧ t.mems = d.mems)
    ∧ (s.sys.inReset = false → s.sys.fieldUp = true → s.spi.job.isSome = true → ∃ t, exec .spiDone s = .next t
        ∧ t.spi.job = none ∧ t.spi.done = true ∧ t.mems.plotRam = s.mems.plotRam ∧ t.mems.latch = s.mems.latch)
    ∧ (∀ (k : Fin 6) l, s.sys.inReset = false → s.sys.fieldUp = true → (s.core k.val).wbuf = (p, v) :: l →
      exec (.portWriteDrain ⟨k.val, by omega⟩) s =
        .next ((s.modCore k.val fun c => { c with wbuf := l }).outPort k.val k.val p.toNat v)))
  ∧ (∀ (s : State) (k : CoreId) (t p : Nat) (w : Word),
    let reads := fun (p : Nat) => s.inPort k.val t p
    let plain := fun (p : Nat) => if hingePort k.val p then s.granted k.val else s
    (reads 0).1 = BitVec.ofNat 32 (s.sys.kst.code + 4 * bitNat s.sys.fieldUp + 8 * bitNat s.sys.head
        + 16 * bitNat (s.sys.clamps ≠ 0#12))
    ∧ s.outPort k.val t 0 w = plain 0
    ∧ (reads 5).1.toNat < 4 ∧ (reads 5).1.getLsbD 0 = s.sys.alert
    ∧ s.outPort 6 t 5 w = s.modSys (fun y => { y with alert := w.getLsbD 0 })
    ∧ (k.val < 6 → s.outPort k.val t 5 w = plain 5)
    ∧ (s.sys.fieldUp = true → s.outPort 6 t 0x104 w = (s.modHng fun x => { x with expired := x.expired &&& ~~~ (w.setWidth 6) })
      ∧ (k.val < 6 → s.outPort k.val t 0x104 w = plain 0x104))
    ∧ (∀ c l, s.con.rx = c :: l → (s.inPort 6 t 0x602).1 = BitVec.ofNat 32 (c.toNat + 256) ∧ (s.inPort 6 t 0x602).2.con.rx = l)
    ∧ (s.con.rx = [] → s.inPort 6 t 0x602 = (0#32, s)) ∧ s.outPort 6 t 0x602 w = s
    ∧ (s.sys.fieldUp = true →
      s.outPort k.val t 0x1704 w = (plain 0x1704).modEnv (fun e =>
        { e with holdEv := e.holdEv && !w.getLsbD 0, shedEv := e.shedEv && !w.getLsbD 1, relEv := e.relEv && !w.getLsbD 2 })
      ∧ reads 0x1705 = (BitVec.ofNat 32 (s.env.peakM + 65536 * s.env.peakA),
        (plain 0x1705).modEnv fun e => { e with peakM := 0, peakA := 0 })
      ∧ s.outPort k.val t 0x1705 w = plain 0x1705)
    ∧ (p < 0x40 → p ∉ [0, 1, 2, 3, 4, 5, 8, 9, 10] → (reads p).1 = 0#32 ∧ s.outPort k.val t p w = plain p))

/-! ### Cold starts, the latch sequence, WAKE and REST -/

/-- A cold start holds reset, with its cause in COLD_CAUSE where no reset was held: nothing is announced, no handle is open,
the SRAMs are empty and the clamps hold, while the SPI NOR keeps its contents, and the furrow keeps its contents but for a
write in progress (R67, R69, R71, R90, R92). The cause of TESTMODE is the model's free value (the table of R69 has none). At
its release the inputs are sampled and every other part of the state stands (R71, R314). -/
def Obligations.ColdStarts : Prop :=
  ∀ (s : State) (b head cts : Bool),
    let held := fun (o : Host.Outcome State Fault Refusal) (code : Nat) => ∃ t, o = .next t ∧ t.sys.inReset = true ∧ t.up = [] ∧ t.hnd.opens = []
      ∧ t.sys.clamps = 0xFFF#12 ∧ t.sys.kst = .latch ∧ t.mems.data = [] ∧ t.mems.plotRam = [] ∧ t.mems.latch = []
      ∧ t.mems.flash = s.mems.flash ∧ (s.sys.inReset = false → t.sys.coldCause = code)
      ∧ (s.jrn.writing = none → s.fur.op ≠ some .write → s.fur.pendingLines = [] → t.fur.mem = s.fur.mem)
    held (exec .powerOn s) 1 ∧ held (exec (.brownout b) s) 2 ∧ held (exec .resetPin s) 3 ∧ held (exec .clockLoss s) 4
    ∧ (∃ code, held (exec .testmodeHigh s) code)
    ∧ (s.sys.inReset = true → s.jtag.dbgReset = false → exec (.resetRelease head cts) s = .next
        { s with sys := { s.sys with inReset := false, vstbyLow := false, head := head }
                 con := { s.con with cts := cts }
                 ring := { s.ring with number := if head then some 0 else none } })
    ∧ (s.sys.inReset = true → s.jtag.dbgReset = true → exec (.resetRelease head cts) s = .next s)

/-- The latch functions announce in the order of R76, each once, when all before it have announced; each is up from then on, and
what it brings with it is there: the console session and the latch queues (R107, R641), the face (R83), the termination as stored
(R290), the journal's records (R271, R272), the count that goes on with UTC unset (R77, R363; the CAL_CTL written with it is log 55), the
ring's result (R78, R317, R321) and replay: with the locks and the ledger of the furrow in force, the handles found open are replayed
or wait for the next WAKE, and completions still to be queued are (`State.coldReplay`, R273, R276), before the notice counts them (log
13). KEYS announces once the scanner is armed, which a frame start does after POST is set (R87, R470). Out of its turn none of these
events comes about (log 11). -/
def Obligations.LatchSequence : Prop :=
  ∀ s : State, s.sys.inReset = false →
    let turn := fun (before : List Fn) (f : Fn) =>
      s.isUp f = false ∧ f ∉ s.down ∧ ∀ g ∈ before, s.isUp g = true ∨ g ∈ s.down
    let toRing := [Fn.line, .face, .seedbank, .furrow, .calendar]
    (turn [] .line → ∃ t, exec .readyLine s = .next t ∧ t.up = s.up ++ [Fn.line] ∧ (t.sesAt 0).isOpen = true
      ∧ (t.sesAt 0).echo = true ∧ t.cal.tickQ = 58 ∧ t.cal.post = true
      ∧ ((t.que 57).limit = 64 ∧ (t.que 57).urg = 1) ∧ ((t.que 63).limit = 8 ∧ (t.que 63).urg = 3) ∧ t.mems = s.mems)
    ∧ (turn [.line] .face → ∃ t, exec .readyFace s = .next t ∧ t.up = s.up ++ [Fn.face] ∧ t.face.started = true ∧ t.mems = s.mems)
    ∧ (turn [.line, .face] .seedbank → ∃ t, exec .readySeedbank s = .next t ∧ t.up = s.up ++ [Fn.seedbank]
      ∧ t.ring.term = t.sdb.term ∧ t.sdb.mem = s.sdb.mem)
    ∧ (turn [.line, .face, .seedbank] .furrow → ∃ t, exec .readyFurrow s = .next t ∧ t.up = s.up ++ [Fn.furrow]
      ∧ t.jrn.bad = badOf s.journalSlots ∧ t.fur.mem = s.fur.mem)
    ∧ (turn [.line, .face, .seedbank, .furrow] .calendar → ∃ t, exec .readyCalendar s = .next t ∧ t.up = s.up ++ [Fn.calendar]
      ∧ t.cal.tick = s.resumeTick + s.cal.sinceReset ∧ t.fur.mem = s.fur.mem)
    ∧ (turn toRing .ring →
      (s.sys.head = true → s.ring.st = .ok ∨ s.ring.st = .overflow ∨ s.ring.st = .broken → ∃ t, exec .readyRing s = .next t
        ∧ t.up = s.up ++ [Fn.ring] ∧ t.ring.number = s.ring.number)
      ∧ (s.sys.head = false → s.ring.number.isSome = true ∨ s.ring.st = .overflow → ∃ t, exec .readyRing s = .next t
        ∧ t.up = s.up ++ [Fn.ring] ∧ t.ring.number = s.ring.number)
      ∧ (s.sys.head = false → s.ring.st = .pending → ∃ t, exec .ringAloneTimeout s = .next t ∧ t.up = s.up ++ [Fn.ring]
        ∧ t.ring.st = .alone ∧ t.ring.own = s.ring.own ++ [Frame.join]))
    ∧ (turn (toRing ++ [.ring]) .replay →
      let w := s.restoreLocks.loadLedger
      let v := ({ w with up := w.up ++ [Fn.replay] } : State).coldReplay
      exec .readyReplay s = .next (({ v with up := v.up.filter fun f => f ≠ Fn.replay } : State).announce .replay
        ("REPLAY " ++ decText v.replayWaiting))
      ∧ (∀ h ∈ w.markOpens.hnd.opens, h.isLive = true → h.waiting = h.form.needsField))
    ∧ (turn (toRing ++ [.ring, .replay]) .keys →
      (s.keys.armed = true → ∃ t, exec .readyKeys s = .next t ∧ t.up = s.up ++ [Fn.keys] ∧ t.keys = s.keys ∧ t.mems = s.mems)
      ∧ (s.keys.armed = false → exec .readyKeys s = .next { s with keys := { s.keys with post := true } }))
    ∧ (¬ turn [] .line → exec .readyLine s = .next s) ∧ (¬ turn [.line] .face → exec .readyFace s = .next s)
    ∧ (¬ turn [.line, .face] .seedbank → exec .readySeedbank s = .next s)
    ∧ (¬ turn [.line, .face, .seedbank] .furrow → exec .readyFurrow s = .next s)
    ∧ (¬ turn [.line, .face, .seedbank, .furrow] .calendar → exec .readyCalendar s = .next s)
    ∧ (¬ turn toRing .ring → exec .readyRing s = .next s ∧ exec .ringAloneTimeout s = .next s)
    ∧ (¬ turn (toRing ++ [.ring]) .replay → exec .readyReplay s = .next s)
    ∧ (¬ turn (toRing ++ [.ring, .replay]) .keys → exec .readyKeys s = .next s)

/-- The steps of a WAKE (R27, R35, R39, R41 to R43): FIELD_EN may rise once its hold ended; the rise of FIELD_PG starts the
lock, its drop abandons it, the lock switches SCLK to the fast clock; where power or lock fail the field is off again and the
state LATCH. Every cause that has asked by step 1 is served by this WAKE, which counts toward the tenancy of the first (R369). At the
release the field domain is as field reset leaves it: the six field cores run their kernels from address 0, the mailboxes are FREE
with their words, the clamps hold, the latch domain's SRAM stands, and so do answers that wait for a lock record (R68). With the field
off no transfer of a field core is held; one of LC that waits stays held (log 100). -/
def Obligations.WakeSteps : Prop :=
  ∀ s : State,
    (s.sys.fieldEn = false → exec .fieldEnHoldEnd s = .next { s with sys := { s.sys with enHold := false } })
    ∧ (∀ c l, s.sys.inReset = false → s.sys.kst = .latch → s.sys.enHold = false → s.jtag.ins ≠ .extest → s.sys.wakePend = c :: l →
      ∃ u : State, exec .wakeStart s = .next (u.accrue s.cal.tick c.ten 3 1).runDue ∧ u.sys.fieldEn = true ∧ u.sys.kst = .waking
      ∧ u.sys.wakeCause = c :: l ∧ u.sys.wakePend = [] ∧ u.mems = s.mems ∧ u.cal = s.cal ∧ u.led = s.led)
    ∧ (s.sys.kst = .waking → s.sys.fieldEn = true → s.sys.pll = .off →
      exec .fieldPgRise s = .next { s with sys := { s.sys with fieldPg := true, pll := .locking } })
    ∧ (s.sys.kst = .waking → s.sys.pll = .locking →
      exec .fieldPgDropInLock s = .next { s with sys := { s.sys with fieldPg := false, pll := .off } }
      ∧ exec .pllLock s = .next { s with sys := { s.sys with pll := .locked, fastClk := true } }
      ∧ exec .pllNoLock s = .next (s.wakeFails 2 0x86))
    ∧ (s.sys.kst = .waking → s.sys.fieldEn = true → s.sys.pll ≠ .locked → exec .fieldPgTimeout s = .next (s.wakeFails 1 0x85))
    ∧ (∀ a b, ∃ u : State, s.wakeFails a b = u.fieldOff.runDue)
    ∧ (s.fieldOff.sys.kst = .latch ∧ s.fieldOff.sys.fieldEn = false ∧ s.fieldOff.sys.fieldUp = false ∧ s.fieldOff.sys.clamps = 0xFFF#12
      ∧ s.fieldOff.sys.fastClk = false ∧ (∀ k : Fin 6, (s.fieldOff.core k.val).run = none) ∧ s.fieldOff.mems.latch = s.mems.latch
      ∧ s.fieldOff.fur = s.fur ∧ s.fieldOff.sdb = s.sdb ∧ s.fieldOff.con = s.con ∧ s.fieldOff.hng.asking = []
      ∧ ∀ x ∈ s.fieldOff.hng.waiting, x.core = 6 ∧ x.lost = fieldPort x.move.port)
    ∧ (s.sys.kst = .waking → s.sys.pll = .locked → s.sys.fieldUp = false → ∃ t, exec .fieldResetRelease s = .next t
      ∧ t.sys.fieldUp = true ∧ t.sys.clamps = 0xFFF#12 ∧ t.sys.fieldCause = s.sys.nextFieldCause
      ∧ (∀ k : Fin 6, (t.core k.val).run = some k.val ∧ (t.th k.val).st = .running ∧ (t.th k.val).pc = 0)
      ∧ (∀ j : Fin 120, 6 ≤ j.val → (t.th j.val).st = .stopped)
      ∧ t.hng.l2f.st = .free ∧ t.hng.f2l.st = .free ∧ t.hng.l2f.words = s.hng.l2f.words ∧ t.hng.f2l.words = s.hng.f2l.words
      ∧ t.mems.data = [] ∧ t.mems.plotRam = [] ∧ t.mems.latch = s.mems.latch ∧ t.mems.iram = s.mems.iram
      ∧ t.bays.unlocking = s.bays.unlocking ∧ t.bays.lockNotes = s.bays.lockNotes)

/-- The field functions announce in the order of R76 once the field is up, each once, when all before it have announced, with
what it brings: FIELD the state FIELD, the tags and the fans' time (R41, R79, R83, R174), SOWER dispatch and the queues of R641,
GRANARY the mode as stored (R651), a row of BAYS the release of its clamps once its rails are proved (R41, R80), ENVELOPE the
guard's words (R431), LEDGER, TENANCY the bay grants (R82), and a plot its image (R81, R522). A FIELD that fails its ROM check ends the
WAKE (R79). At its announcement (`announceField`) the handles that wait for it are posted, and its notice follows them; it waits
while the copy of such a handle is not durable (R276). -/
def Obligations.FieldSequence : Prop :=
  ∀ (s : State) (r : Fin 12) (p : Ten), s.sys.fieldUp = true →
    let turn := fun (before : List Fn) (f : Fn) =>
      s.isUp f = false ∧ f ∉ s.down ∧ (∀ g ∈ before, s.isUp g = true ∨ g ∈ s.down) ∧ s.copyDue f = false
    let rows := fun n : Nat => [Fn.field, .sower, .granary] ++ (List.range n).map Fn.baysRow
    (∀ (v : State) (f : Fn), v.announceField f = (({ v with up := v.up ++ [f] } : State).runDue).notice ("^READY " ++ f.name))
    ∧ (s.isUp .field = false → Fn.field ∉ s.down → s.sys.kst = .waking →
      (s.replayField.copyDue .field = false → ∃ u : State, exec (.readyField true) s = .next
          (((u.announceField .field).modFans fun x => x.timed s.replayField.cal.tick).readBoard.runDue)
        ∧ u.sys.kst = .field ∧ u.tags.en = true ∧ u.up = s.replayField.up)
      ∧ (s.replayField.copyDue .field = true → exec (.readyField true) s = .next s.replayField)
      ∧ (∃ u : State, exec (.readyField false) s = .next (u.wakeFails 3 0x87) ∧ u.up = s.up ∧ Fn.field ∈ u.down ∧ Fn.sower ∈ u.down
        ∧ Fn.tenancy ∈ u.down))
    ∧ (turn [.field] .sower → ∃ u : State, exec .readySower s = .next (u.announceField .sower) ∧ u.up = s.up
      ∧ u.sow.dispatch = true ∧ (u.que 1).limit = 256 ∧ (u.que 54).urg = 3 ∧ (u.que 39).limit = 64 ∧ (u.que 7).limit = 1)
    ∧ (turn [.field, .sower] .granary → s.gran.allFree = true → ∃ u : State, exec .readyGranary s = .next (u.announceField .granary)
      ∧ u.up = s.up ∧ u.gran.sized = s.sdb.granSized ∧ u.mems = s.mems)
    ∧ (turn (rows r.val) (.baysRow r.val) → s.rowProved r.val = true → ∃ u : State, exec (.readyBaysRow r) s = .next u.runDue
      ∧ u = ((s.announceField (.baysRow r.val)).modSys fun y => { y with clamps := u.sys.clamps })
      ∧ ∀ j : Fin 12, u.sys.clamps.getLsbD j.val = ((s.announceField (.baysRow r.val)).sys.clamps.getLsbD j.val && j != r))
    ∧ (turn (rows 12) .envelope → exec .readyEnvelope s = .next (s.guardWords.announceField .envelope))
    ∧ (turn (rows 12 ++ [.envelope]) .ledger → exec .readyLedger s = .next (s.announceField .ledger))
    ∧ (turn (rows 12 ++ [.envelope, .ledger]) .tenancy →
      exec .readyTenancy s = .next ((s.writeBayGrants.announceField .tenancy).wakesDone.runDue))
    ∧ (s.plotTurn p.val = true → s.copyDue (.plot p.val) = false →
      let a := ((s.plotAt p.val).addr).getD 0
      let i := s.findImage p.val a
      (i.1 = 0 → exec (.readyPlot p) s =
        .next ((((s.startPlot p.val a i.2.1 i.2.2).announceField (.plot p.val)).tellWoken p.val).runDue))
      ∧ (i.1 ≠ 0 → ∃ u : State, exec (.readyPlot p) s = .next u.runDue ∧ u.down = s.down ++ [Fn.plot p.val] ∧ u.up = s.up
        ∧ (u.plotAt p.val).st = .down (imageReason i.1)))

/-- The field falls (R44 to R49): a loss of power or lock turns it off at once, names itself in LAST_LOSS, and every open
handle is hit; a REST, whose item a keeper thread has taken up (log 52), stops every bay that is on; once none is STOPPING it posts an
item to every loaded plot (its type is free, log 10); once the plots are idle, or its limit ends, which stops those that are not, the
ledger closes its interval; with that checkpoint written the REST commits, and with its record durable the field is turned off and the
REST completes. -/
def Obligations.FieldFalls : Prop :=
  ∀ s : State, s.sys.inReset = false →
    (s.sys.fieldEn = true → s.sys.pll = .locked →
      exec .fieldLostPg s = .next (s.fieldLost 1 "PG") ∧ exec .fieldLostPll s = .next (s.fieldLost 2 "PLL"))
    ∧ (∀ n w, ∃ u : State, s.fieldLost n w = (u.hitAll s.sys.fieldUp .counted).runDue ∧ u.sys.kst = .latch ∧ u.sys.fieldUp = false
      ∧ u.sys.fieldEn = false ∧ u.sys.lastLoss = n ∧ u.mems.latch = s.mems.latch)
    ∧ (∀ h, s.sys.fieldUp = true → s.restReady = some h →
      ∃ u : State, exec .restDispatch s = .next u.settle ∧ u.sys.kst = .resting ∧ u.sys.restStep = 2
        ∧ u.env.waiting = [] ∧ u.env.placed = []
        ∧ ∀ n : Fin 96, (u.bayAt n.val).st ≠ .on ∧ (u.bayAt n.val).st ≠ .starting ∧ (u.bayAt n.val).st ≠ .held
          ∧ (u.bayAt n.val).st ≠ .tripped)
    ∧ (s.sys.kst = .resting → s.sys.restStep = 2 →
      ((∀ n : Fin 96, (s.bayAt n.val).st ≠ .stopping) →
        s.restPlots = s.loadedPlots.foldl State.restItem { s with sys := { s.sys with restStep := 3 } })
      ∧ ∀ n : Fin 96, (s.bayAt n.val).st = .stopping → s.restPlots = s)
    ∧ (s.sys.fieldUp = true → s.sys.kst = .resting → s.sys.restStep = 3 →
      let ends := fun v : State => (v.sumsEnd.endEarly.modSys fun y => { y with restStep := 4 }).restGoes
      (s.loadedPlots.all s.plotIdle = true → exec .restPlotsIdle s = .next (ends s))
      ∧ exec .restPlotTimeout s = .next (ends (s.loadedPlots.foldl State.stopBusy s)))
    ∧ (s.sys.kst = .resting →
      (s.sys.restStep = 4 → s.headerDue = true → s.restGoes = s)
      ∧ (∀ h, s.sys.restStep = 4 → s.headerDue = false → s.restHandle = some h →
        s.restCommits = (s.modSys fun y => { y with restStep := 5 }).reqCommit h.kk h.seq)
      ∧ (∀ h, s.sys.restStep = 5 → s.restHandle = some h → h.phase = .committed → ∃ u : State,
        s.restGoes = (u.fieldOff.retire h.kk h.seq (complDone [] false)).runDue))
    ∧ (∀ p : Ten, s.plotIdle p.val = false → ((s.stopBusy p.val).plotAt p.val).st = .stopped)
    ∧ (∀ p : Ten, s.plotIdle p.val = true → s.stopBusy p.val = s)

/-! ### The hinge, and recovery -/

/-- The mailboxes of the hinge (R59 to R63), reached by a side of it: a FREE mailbox is claimed by a side that owns it, written and
posted by its claimer with a count of 1 to 16, released by its owner while CLAIMED or by the receiving side once POSTED, and forced
FREE by LC with its words kept; the notification is an item in its queue, or waits with NPEND until it has its place, and NPEND
stays while another of the same mailbox waits. Any other attempt changes nothing but IGNORED. A core touches its own heartbeat
counter (R64); where the access is refused, as in a plot (R66), nothing happens. An access by a field core moves the round robin (R54).
Hinge transfers (R52 to R57): a lone request is granted at once; of LC's request and a field core's in one cycle the side that
TIE_NEXT names is granted, the other is held, and TIE_NEXT goes to the other side; of two field cores the next after the last one
granted goes first, and the other waits its turn; a held transfer is granted before a later request, and one that waits its turn
meets a request of LC in a tie. With a transfer that waited, a stop of its core or thread that waited for it comes about (R57, R614);
otherwise its grant is that of any other. One of LC that has met a field reset meanwhile reads 0 from a field-domain port, and
writes none (R673; that it is held until then is log 100). While an access of its own waits, a core issues nothing. What a core asks for
comes after its earlier port writes have taken effect (R554; log 95). The model's reading: the order of transfers and what a held one
stops is log 81, NPEND with a second notification log 82, and a refused access as a command that changes nothing log 67. -/
def Obligations.Hinge : Prop :=
  (∀ (s : State) (who : Who) (b : Box) (n : BitVec 5) (i : Fin 16) (w : Word),
      let d := s.drained who
      d.sys.fieldUp = true → Reaches s who (boxCtlPort b) true → Reaches s who (boxWordPort b + i.val) true →
      let m := d.hng.box b
      let q := d.hng.noteQ b
      let g := d.granted (coreOfWho who)
      let ignored : State := { g with hng := { g.hng with ignored := satInc 65535 g.hng.ignored } }
      let mine := m.st = .claimed ∧ m.owner = who.code
      (m.st = .free → b.ownedBy who = true → ∃ t, exec (.mailboxClaim who b) s = .next t ∧ (t.hng.box b).st = .claimed
        ∧ (t.hng.box b).owner = who.code ∧ (t.hng.box b).words = m.words ∧ t.sow = d.sow ∧ t.mems = d.mems)
      ∧ (m.st ≠ .free ∨ b.ownedBy who = false → exec (.mailboxClaim who b) s = .next ignored)
      ∧ (mine → ∃ t, exec (.mailboxWordWrite who b i w) s = .next t ∧ t.sow = d.sow ∧ t.mems = d.mems
        ∧ ∀ j : Fin 16, (t.hng.box b).words[j] = if j = i then w else m.words[j])
      ∧ (¬ mine → exec (.mailboxWordWrite who b i w) s = .next ignored ∧ exec (.mailboxPost who b n) s = .next ignored)
      ∧ (mine → 1 ≤ n.toNat → n.toNat ≤ 16 → ∃ t, exec (.mailboxPost who b n) s = .next t ∧ (t.hng.box b).st = .posted
        ∧ (t.hng.box b).count = n.toNat ∧ (t.hng.box b).words = m.words ∧ t.mems = d.mems
        ∧ (d.hasRoom q = true → d.waiter q = none → ∃ it ∈ t.sow.store, it.words = noteWords b ∧ it.q = q)
        ∧ (d.hasRoom q = false → (t.hng.box b).npend = true ∧ t.sow.store = d.sow.store))
      ∧ (mine → n.toNat = 0 ∨ 16 < n.toNat → exec (.mailboxPost who b n) s = .next ignored)
      ∧ (mine ∨ (m.st = .posted ∧ b.ownedBy who = false) → ∃ t, exec (.mailboxRelease who b) s = .next t
        ∧ (t.hng.box b).st = .free ∧ (t.hng.box b).count = 0 ∧ (t.hng.box b).words = m.words ∧ t.sow = d.sow)
      ∧ (¬ mine → ¬ (m.st = .posted ∧ b.ownedBy who = false) → exec (.mailboxRelease who b) s = .next ignored))
  ∧ (∀ (s : State) (b : Box), s.sys.inReset = false → s.sys.fieldUp = true →
      let e := s.drained .lc
      (e.sys.fieldUp = true → Reaches s .lc 0x106 true → ∃ t, exec (.mailboxForceFree b) s = .next t ∧ (t.hng.box b).st = .free
        ∧ (t.hng.box b).npend = false ∧ (t.hng.box b).words = (e.hng.box b).words ∧ t.sow.store = e.sow.store
        ∧ ∀ x, (x, noteClaim b) ∉ t.sow.claims)
      ∧ (∀ q, s.noteWaits b = some q → s.hasRoom q = true → s.waiter q = some (noteClaim b) →
        ∃ t, exec (.hingeNotifyPost b) s = .next t ∧ (t.hng.box b).npend = (t.noteWaits b).isSome
          ∧ (t.hng.box b).words = (s.hng.box b).words ∧ ∃ it ∈ t.sow.store, it.words = noteWords b ∧ it.q = q))
  ∧ (∀ (s : State) (k j : Fin 6) (a b c : Access) (x : Transfer) (l : List Transfer), s.sys.inReset = false →
      let lone := fun (v : State) => v.hng.waiting = [] ∧ v.hng.asking = []
      let lc := s.asked 6 a
      let fk := s.asked k.val b
      let fj := s.asked j.val c
      let d := s.drainCores [k.val]
      let e := s.drainCores [k.val, j.val]
      let rank := fun (n : Nat) => (n + 5 - e.hng.lastFc % 6) % 6
      (lone s → s.requests .lc a = true → exec (.hingeTransferRequest (some a) []) s = .next (s.hingeGrant lc))
      ∧ (lone d → s.requests (.fc k) b = true → exec (.hingeTransferRequest none [(k, b)]) s = .next (d.hingeGrant fk))
      ∧ (lone d → s.requests .lc a = true → s.requests (.fc k) b = true →
        exec (.hingeTransferRequest (some a) [(k, b)]) s =
          .next ((d.modHng fun y => { y with tieField := !y.tieField, ties := (y.ties + 1) % 65536
                                             waiting := [if d.hng.tieField then lc else fk] }).hingeGrant
            (if d.hng.tieField then fk else lc)))
      ∧ (lone e → s.requests (.fc k) b = true → s.requests (.fc j) c = true → rank k.val < rank j.val →
        exec (.hingeTransferRequest none [(k, b), (j, c)]) s = .next ((e.modHng fun y => { y with asking := [fj] }).hingeGrant fk)
        ∧ exec (.hingeTransferRequest none [(j, c), (k, b)]) s =
          .next ((e.modHng fun y => { y with asking := [fj] }).hingeGrant fk))
      ∧ (s.hng.waiting = [x] → s.requests .lc a = true →
        let v := (s.modHng fun y => { y with waiting := [] }).lateGrant x
        exec (.hingeTransferRequest (some a) []) s = .next (v.arbitrate (some lc) v.hng.asking))
      ∧ (s.hng.waiting = [] → s.hng.asking = x :: l → s.requests .lc a = true →
        let w := s.modHng fun y => { y with tieField := !y.tieField, ties := (y.ties + 1) % 65536, asking := l,
                                            waiting := [if s.hng.tieField then lc else x] }
        exec (.hingeTransferRequest (some a) []) s = .next (if s.hng.tieField then w.lateGrant x else w.hingeGrant lc))
      ∧ (s.hng.waiting = x :: l → exec .hingeHeldGrant s = .next ((s.modHng fun y => { y with waiting := l }).lateGrant x))
      ∧ (s.hng.waiting = [] → s.hng.asking = x :: l →
        exec .hingeHeldGrant s = .next ((s.modHng fun y => { y with asking := l }).lateGrant x))
      ∧ (let v := s.hingeGrant x
        (v.core x.core).halting = false → (v.th x.tid).stopping = false → s.lateGrant x = v)
      ∧ (∀ p w rd, s.hingeGrant ⟨x.core, x.tid, .write p w, false, false⟩ = s.outPort x.core x.tid p w
        ∧ s.hingeGrant ⟨x.core, x.tid, .read p 0, false, false⟩ = (s.inPort x.core x.tid p).2
        ∧ (fieldPort p = true → s.hingeGrant ⟨x.core, x.tid, .write p w, false, true⟩ = s
          ∧ s.hingeGrant ⟨x.core, x.tid, .read p rd, false, true⟩ = s.toReg x.core x.tid rd 0#32))
      ∧ (∀ (n : CoreId) (rd ra rb : Reg), s.stalled n.val = true →
        exec (.add n rd ra rb) s = .next s ∧ exec (.portIn n rd ra 0#16) s = .next s ∧ exec (.nop n) s = .next s)
      ∧ (let v := s.drained (.fc k)
        Reaches s (.fc k) 0x103 true → v.sys.fieldUp = true → exec (.heartbeatTouch k) s =
          .next { v with hng := { v.hng with lastFc := k.val, beat := vset v.hng.beat k.val 0 } })
      ∧ (s.mayAccess k.val 0x103 true = false → exec (.heartbeatTouch k) s = .next s))

/-- A core whose heartbeat expires stops with its thread FAULTED, its EXPIRED bit set and an item for LC, or, where it stalls at a
hinge access, once that has completed (R57, R65). LC serves that item, or finds a full spill, and tells of the fault (R266);
recovery restarts the field where the spill was full or the core alone served its queue (R267, R270), and is in place where neither
holds, no other core fault came in this field start and no keeper thread was caught there; in the other cases it is one of the two,
as the model's free values decide (log 65). A fault that stands at the end of its limit restarts the field (R267). In place, the core
is free again and the handles hit are replayed (R268, R269): those open handles that run and that an item names which a thread caught
there was serving. Recovery of a trap leaves the thread IDLE, none of its flows fenced, its item lost with the handles that it names
FAILED, and its fault item served (R265, R269); where the thread that listens to Q54, the recovery thread, itself trapped, the field
restarts (R270). The item of a BREAK is served and changes nothing else (R696). -/
def Obligations.Recovering : Prop :=
  ∀ (s : State) (k : Fin 6), s.sys.inReset = false →
    let served := (s.heartServed k.val).tellFault k.val
    let found := s.sys.spillStop.getLsbD k.val = true ∨ s.sys.hbStop.getLsbD k.val = true ∧ s.heartKnown k.val = true
    (s.sys.fieldUp = true → (s.core k.val).run.isSome = true → (s.core k.val).stopped = false → s.stalled k.val = true →
      exec (.heartbeatExpiry k) s = .next (s.modCore k.val fun c => { c with halting := true }))
    ∧ (s.sys.fieldUp = true → (s.core k.val).run.isSome = true → (s.core k.val).stopped = false → s.stalled k.val = false →
      ∃ t, exec (.heartbeatExpiry k) s = .next t ∧ (t.core k.val).stopped = true ∧ (t.core k.val).run = none
        ∧ t.hng.expired.getLsbD k.val = true ∧ t.sys.hbStop.getLsbD k.val = true ∧ t.mems = s.mems
        ∧ ((∃ it ∈ t.sow.store, it.words = heartWords k.val ∧ it.q = s.hng.f2lQ)
          ∨ (s.hng.f2lQ, Claimant.hw (heartWords k.val)) ∈ t.sow.claims)
        ∧ ∀ x, (s.core k.val).run = some x → x < 120 → (t.th x).st = .faulted ∧ (t.th x).openItem = none)
    ∧ (s.sys.fieldUp = true → found →
      (∀ v, served.endsInRestart k.val = (true, v) → exec (.coreFaultRecovery k) s = .next (v.fieldRestart 3 .counted))
      ∧ (∀ v, served.endsInRestart k.val = (false, v) → exec (.coreFaultRecovery k) s = .next (v.recoverInPlace k.val)))
    ∧ (s.sys.spillStop.getLsbD k.val = true ∨ s.onlyServer k.val = true → s.endsInRestart k.val = (true, s))
    ∧ (s.sys.spillStop.getLsbD k.val = false → s.onlyServer k.val = false → s.sys.recentF2 = false →
      (∀ t ∈ s.party k.val, 24 ≤ t) → s.endsInRestart k.val = (false, s))
    ∧ (s.sys.fieldUp = false ∨ ¬ found →
      exec (.coreFaultRecovery k) s = .next (if (s.heartItem k.val).isSome then served else s))
    ∧ (s.sys.fieldUp = true → (List.range 6).find? s.coreFault = some k.val →
      exec .recoveryTimeout s = .next (served.fieldRestart 3 .counted))
    ∧ (let hit := s.handlesNamed ((s.party k.val).flatMap s.lostItems)
      s.recoverInPlace k.val = (hit.foldl (fun v h => (v.withdraw h).replay { h with hit := .counted })
        ((hit.foldl State.dropRest ((s.party k.val).foldl State.recoverThread (s.freeBoxes k.val))).coreBack k.val)).runDue)
    ∧ (∀ l h, h ∈ s.handlesNamed l ↔ h ∈ s.hnd.opens ∧ h.isLive = true ∧ h.running = true ∧ ∃ it ∈ l, it.names h.kk h.seq = true)
    ∧ (∀ t, t ∈ s.party k.val ↔ t < 120 ∧ (s.th t).st = .faulted ∧ (s.th t).trap = 0 ∧ (s.th t).lastCore = k.val)
    ∧ ((s.coreBack k.val).core k.val = { s.core k.val with stopped := false, wbuf := [] }
      ∧ (s.coreBack k.val).sys.hbStop.getLsbD k.val = false ∧ (s.coreBack k.val).sys.recentF2 = true)
    ∧ (∀ cause kind, ∃ u : State, s.fieldRestart cause kind = (u.hitAll true kind).runDue ∧ u.sys.kst = .waking
      ∧ u.sys.fieldUp = false ∧ u.sys.fieldEn = s.sys.fieldEn ∧ u.sys.nextFieldCause = cause)
    ∧ (∀ it, s.nextFault = some it →
      let t := fieldAt (it.word 1).toNat 0 7
      (24 ≤ t → s.isRecovery t = (false, s))
      ∧ (t < 24 → (s.th t).listen.getLsbD 54 = true → s.isRecovery t = (true, s))
      ∧ (it.typ = 0xFE0F → exec .threadFaultRecovery s = .next (s.serveItem it))
      ∧ (∀ v, it.typ ≠ 0xFE0F → s.isRecovery t = (true, v) → s.sys.fieldUp = true →
        exec .threadFaultRecovery s = .next ((v.serveItem it).fieldRestart 3 .counted))
      ∧ (∀ v, it.typ ≠ 0xFE0F → s.isRecovery t = (false, v) → (s.th t).st = .faulted → ∃ u : State,
        exec .threadFaultRecovery s =
          .next ((v.handlesNamed (v.lostItems t)).foldl (fun v h => v.retire h.kk h.seq (complFailed 0x84 false)) u).runDue
        ∧ v.hnd = s.hnd ∧ v.lostItems t = s.lostItems t ∧ (u.th t).st = .idle ∧ (u.th t).trap = 0 ∧ (∀ p ∈ u.sow.fenced, p.2.2 ≠ t)
        ∧ u.sow.store = removeAge it.age s.sow.store))

/-! ### The console and its lines -/

/-- Characters (R95 to R100, R674): a framing error counts and the character is gone; XON and XOFF act at once where they are
enabled; a character for a full store counts in OVERRUN; any other joins the store, and LC reads on. Read from an empty store, a
printable character joins the line being typed and a CR ends the line. CONS_CTS and a received XOFF stop what is sent; a flow
character that waited for CONS_CTS goes out when it falls, where XON/XOFF is still enabled. A write of CON_TX finds room while fewer
than 16 characters wait there, LC's output among them. The rate changes once the transmitter is at rest and its store empty: to that of
the result of LINE BAUD sent last, or, where no such result is still to be sent, to that of CON_CTL (R94; both are the model's reading,
log 61).
Lines that are no verb of this keeper: a malformed line counts as ignored (R126), and one of PROVE consumes the challenge (R188; of
another token class, log 96); a line addressed to another keeper (held to the grammar here, log 109) goes
onto the ring as it stands (R113, R303), one with the keeper's own number runs here (R112), and on a keeper without a number every
other is an unanswered line (R115); a broadcast line goes onto the ring and is the console's next line (R114); before `^READY RING`
each is a host error, which with PROVE consumes the challenge (R126). An idle ring session without open handles ends (R109); one with
lines still to run is opened anew for them (log 58). -/
def Obligations.ConsoleAndLines : Prop :=
  (∀ (s : State) (c : Byte) (b : Bool), s.sys.inReset = false →
      exec (.consoleChar c true) s = .next { s with con := { s.con with framing := (s.con.framing + 1) % 4294967296 } }
      ∧ (s.con.xon = true → c = 0x11#8 ∨ c = 0x13#8 →
        exec (.consoleChar c false) s = .next { s with con := { s.con with stopped := decide (c = 0x13#8) } })
      ∧ (s.con.xon = false ∨ c ≠ 0x11#8 ∧ c ≠ 0x13#8 → s.isUp .line = true →
        (512 ≤ s.con.rx.length → ∃ u : State, exec (.consoleChar c false) s = .next u.readOn
          ∧ u = { s with con := { s.con with overrun := (s.con.overrun + 1) % 4294967296, marks := s.con.marks ++ [s.con.rx.length] } })
        ∧ (s.con.rx.length < 512 → exec (.consoleChar c false) s =
          .next ({ s with con := { s.con with rx := s.con.rx ++ [c] } } : State).flowPoints.readOn)
        ∧ (s.con.rx = [] → s.con.marks = [] → s.con.lines = [] → s.con.overlong = false → s.con.buf.length < 200 →
          (32 ≤ c.toNat → c.toNat ≤ 126 → ∃ t, exec (.consoleChar c false) s = .next t ∧ t.con.buf = s.con.buf ++ textOf [c]
            ∧ t.con.rx = [] ∧ t.con.lines = [] ∧ t.hnd = s.hnd ∧ t.ring = s.ring)
          ∧ (c = 13#8 → blankText s.con.buf = false → ∃ t, exec (.consoleChar c false) s = .next t ∧ t.con.lines = [s.con.buf]
            ∧ t.con.buf = "" ∧ t.con.rx = [])))
      ∧ exec (.consCtsChange true) s = .next { s with con := { s.con with cts := true } }
      ∧ (s.con.flowDue = none → exec (.consCtsChange b) s = .next { s with con := { s.con with cts := b } })
      ∧ (∀ x, s.con.flowDue = some x → exec (.consCtsChange false) s =
        .next { s with con :=
          { s.con with cts := false, flowDue := none, flowOut := if s.con.xon then x :: s.con.flowOut else s.con.flowOut } })
      ∧ (∃ t, exec .consoleRxRead s = .next t ∧ t.con.rx = s.con.rx.drop 1 ∧ t.con.outq = s.con.outq ∧ t.con.buf = s.con.buf)
      ∧ exec (.consoleTxWrite c) s = .next (if s.con.txUsed < 16 then { s with con := { s.con with tx := s.con.tx ++ [c] } } else s)
      ∧ s.con.txUsed ≤ 16 ∧ (s.con.outq = [] → s.con.txUsed = min 16 s.con.tx.length)
      ∧ (∀ n, (s.con.cts = true ∨ s.con.stopped = true → exec (.outputQueueRoom n) s = .next s)
        ∧ (s.con.cts = false → s.con.stopped = false → s.con.lostSince = 0 → s.con.held = [] →
          exec (.outputQueueRoom n) s = .next ({ s with con := s.con.send n } : State).readOn.dueRuns
          ∧ (s.con.send n).tx = s.con.tx.drop n))
      ∧ (s.con.tx = [] →
        (∀ c, s.con.rateDue = some c →
          exec .baudApply s = .next { s with con := { s.con with baudNow := if c = 3 then 1 else c, rateDue := none } })
        ∧ (s.con.rateDue = none → s.con.outq = [] → (∀ h ∈ s.con.held, h.out.isRate = false) →
          exec .baudApply s = .next { s with con := { s.con with baudNow := if s.con.baud = 3 then 1 else s.con.baud } }))
      ∧ (s.con.tx ≠ [] → exec .baudApply s = .next s)
      ∧ (s.con.rateDue = none → s.con.outSent < outChars s.con.outq → exec .baudApply s = .next s))
  ∧ (∀ (s : State) (k : Fin 16) (n : Byte) (text : String),
      let u := (s.nextLine 0).2
      let comes := fun (w : Typed) => s.canRun 0 = true ∧ s.addresses w = true
      let runsHere := fun v : State => v.modCon fun x => { x with lines := text :: x.lines }
      let wrong := ((if provesLine text then u.modSes 0 fun x => { x with challenge := none } else u).ignore 0).afterLine 0
      (s.canRun k.val = true → s.badLine k = true →
        (s.badProof k.val = false → exec (.malformedLine k) s = .next (((s.nextLine k.val).2.ignore k.val).afterLine k.val))
        ∧ (s.badProof k.val = true → exec (.malformedLine k) s =
          .next ((((s.nextLine k.val).2.modSes k.val fun x => { x with challenge := none }).ignore k.val).afterLine k.val)))
      ∧ (comes (.addressed n.toNat text) →
        (u.isUp .ring = false → exec (.forwardAddressedLine n text) s = .next wrong)
        ∧ (u.isUp .ring = true → n.toNat = u.keeperNo → exec (.forwardAddressedLine n text) s = .next ((runsHere u).afterLine 0))
        ∧ (u.isUp .ring = true → n.toNat ≠ u.keeperNo → u.ring.number.isSome = true → exec (.forwardAddressedLine n text) s =
          .next ((u.pushFrame (.sol u.sys.head n.toNat u.keeperNo 0 text) none).afterLine 0))
        ∧ (u.isUp .ring = true → n.toNat ≠ u.keeperNo → u.ring.number = none →
          exec (.forwardAddressedLine n text) s = .next ((u.ignore 0).afterLine 0)))
      ∧ (comes (.broadcast text) →
        (u.isUp .ring = false → exec (.broadcastLine text) s = .next wrong)
        ∧ (u.isUp .ring = true → u.ring.number.isSome = true → exec (.broadcastLine text) s =
          .next ((runsHere (u.pushFrame (.sob u.sys.head u.keeperNo u.keeperNo 0 text) none)).afterLine 0))
        ∧ (u.isUp .ring = true → u.ring.number = none → exec (.broadcastLine text) s = .next ((runsHere u).afterLine 0)))
      ∧ (s.sys.inReset = false → k.val ≠ 0 → (s.sesAt k.val).isOpen = true → (s.sesAt k.val).lastTick + 57600 ≤ s.cal.tick →
        s.hasOpen k.val = false →
        ((∀ l ∈ s.ring.linesIn, l.1 ≠ k.val) → ∃ t, exec (.sessionIdleTimeout k) s = .next t ∧ (t.sesAt k.val).isOpen = false
          ∧ (∀ j : Fin 16, j ≠ k → t.sesAt j.val = s.sesAt j.val) ∧ t.ring = s.ring ∧ t.hnd = s.hnd)
        ∧ ((∃ l ∈ s.ring.linesIn, l.1 = k.val) → ∃ (t : State) (j : Fin 16), exec (.sessionIdleTimeout k) s = .next t
          ∧ (t.sesAt j.val).isOpen = true ∧ (t.sesAt j.val).src = (s.sesAt k.val).src ∧ (t.sesAt j.val).byte = (s.sesAt k.val).byte
          ∧ (t.sesAt j.val).proved = none)))

/-! ### The ring -/

/-- Frames that arrive (R296, R301 to R305, R311, R315 to R317, R324): a line frame is taken in, copied, forwarded, removed or
counted as R301 decides, and what is forwarded carries the head's mark; the errors of a wrong line are counted, and what had left of
it is ended with ABT, at the release of HOLD where HOLD stands (R296, R312). That a frame is one command, whose operand says how much of
it the store still holds and whose errors count symbol by symbol, is the model's choice (log 56). An enumeration frame numbers a member and goes on with NEXT one higher, ends the head's
pass, or tells of OVERFLOW; a join frame or a break report is forwarded by a member, a report with HOPS one higher, and a join frame
makes the head send a pass where none is out (R315). -/
def Obligations.RingFrames : Prop :=
  ∀ (s : State) (mark b : Bool) (dest src ses pass next hops : Byte) (text : String) (left : Fin 65), s.sys.inReset = false →
    let waits := fun (v : State) => v.ring.fwd.map Fwd.frame
    (∀ p ∈ [(LineKind.sol, exec (.ringSolFrame mark dest src ses text left) s), (.sob, exec (.ringSobFrame mark dest src ses text left) s),
        (.sor, exec (.ringSorFrame mark dest src ses text left) s)],
      let f := p.1.frame (mark || s.sys.head) dest.toNat src.toNat ses.toNat text
      let act := s.lineAct p.1 mark dest.toNat src.toNat
      let n := textErrors text
      let counted : Ring := { s.ring with dropped := (s.ring.dropped + n) % 4294967296 }
      (n ≠ 0 → act.forwards = false ∨ goodSyms text ≤ left.val → p.2 = .next { s with ring := counted })
      ∧ (n ≠ 0 → act.forwards = true → left.val < goodSyms text →
        (s.ring.holdIn = false →
          p.2 = .next { s with ring := { counted with aborts := s.ring.aborts + 1, ctlOut := some symAbt, abtDue := false } })
        ∧ (s.ring.holdIn = true → p.2 = .next { s with ring := { counted with abtDue := true } }))
      ∧ (n = 0 →
        (act = .forwarded → p.2 = .next { s with ring := s.ring.forward f left.val })
        ∧ (act = .removed → p.2 = .next s)
        ∧ (act = .looped → p.2 = .next { s with ring := { s.ring with looped := satInc 65535 s.ring.looped } })
        ∧ (act = .stale → p.2 = .next { s with ring := { s.ring with stale := satInc 65535 s.ring.stale } })
        ∧ (act = .returned → ∃ u : State, u = { s with ring := { s.ring with returned := satInc 65535 s.ring.returned } }
          ∧ p.2 = .next (if p.1 = .sol then u.ignore 0 else u))
        ∧ (act = .copied → ∃ t, p.2 = .next t ∧ waits t = waits s ++ [f])
        ∧ (∀ k, act = .taken → p.1 = .sol → blankText text = false → s.isUp .ring = true →
          s.sessionOf src.toNat ses.toNat = some k → ∃ t, p.2 = .next t ∧ t.ring.linesIn = s.ring.linesIn ++ [(k, text)])
        ∧ (act = .taken → p.1 = .sor → p.2 = .next ({ s with ring := s.ring.storeTaken f left.val }.printReply src.toNat text))))
    ∧ (s.sys.head = false →
      (∃ t, exec (.ringEnumFrame pass next false b) s = .next t ∧ t.ring.number = some next.toNat ∧ t.ring.st = .ok
        ∧ waits t = waits s ++ [if next = 255#8 then Frame.enum pass.toNat 0 (1 + 2 * bitNat b)
          else Frame.enum pass.toNat (next.toNat + 1) (2 * bitNat b)])
      ∧ (∃ t, exec (.ringEnumFrame pass next true b) s = .next t ∧ t.ring.number = none ∧ t.ring.st = .overflow
        ∧ waits t = waits s ++ [Frame.enum pass.toNat next.toNat 3])
      ∧ (∃ t, exec .ringJoinFrame s = .next t ∧ waits t = waits s ++ [Frame.join] ∧ t.ring.own = s.ring.own)
      ∧ (∃ t, exec (.ringBrkFrame src b hops) s = .next t
        ∧ waits t = waits s ++ [Frame.brk src.toNat (bitNat b) (min 255 (hops.toNat + 1))]))
    ∧ (s.sys.head = true →
      (s.ring.passOut = true → pass.toNat = s.ring.pass → ∃ t, exec (.ringEnumFrame pass next false b) s = .next t
        ∧ t.ring.passOut = false ∧ t.ring.count = next.toNat ∧ t.ring.st = (if b then .overflow else .ok) ∧ t.ring.number = s.ring.number)
      ∧ (s.ring.passOut = false → ∃ t, exec .ringJoinFrame s = .next t ∧ t.ring.passOut = true
        ∧ t.ring.own = s.ring.own ++ [Frame.enum ((s.ring.pass + 1) % 256) 1 0])
      ∧ (∃ t, exec (.ringBrkFrame src b hops) s = .next t ∧ t.ring.st = .broken ∧ t.ring.fwd = s.ring.fwd))

/-- What a keeper sends of itself (R315, R318, R321 to R324): the head's passes, one at a time, with one second try; a break
after it; join requests until a pass numbers a keeper that announced ALONE; a break report when the upstream segment dies, and
again while it is dead.
The ring port (R294 to R296, R309 to R313, R329): errors count and ABT ends what was forwarded, at the release of HOLD where HOLD stands;
HOLD follows its two points, each symbol counting once, though one of a copied frame waits both for LC and to be sent;
the transmitter takes own frames first and otherwise alternates, a frame of the ring's own counting for neither side; a keeper without
a number sends no line (R303), and a line carries the number that it holds when it is sent (log 110); a frame that LC writes becomes
eligible at its EOL. The model's choices: the discard of a frame up to its EOL where the insertion queue is full is log 59, an ABT due
at the release of HOLD and whole frames log 56, and a joinRepeat or RING-ENUM out of its turn that changes nothing log 11. -/
def Obligations.RingItself : Prop :=
  (∀ s : State, s.sys.inReset = false →
      let sent := fun (o : Host.Outcome State Fault Refusal) (f : Frame) =>
        ∃ t, o = .next t ∧ t.ring.own = s.ring.own ++ [f] ∧ t.ring.fwd = s.ring.fwd
      (s.sys.head = true → s.ring.passOut = false →
        sent (exec .rngEnumWrite s) (.enum ((s.ring.pass + 1) % 256) 1 0)
        ∧ (s.ring.st = .broken → sent (exec .enumBrokenRetry s) (.enum ((s.ring.pass + 1) % 256) 1 0)))
      ∧ (s.sys.head = false ∨ s.ring.passOut = true → exec .rngEnumWrite s = .next s)
      ∧ (s.sys.head = true → s.ring.passOut = true →
        (s.ring.passTry = 1 → sent (exec .enumPassTimeout s) (.enum ((s.ring.pass + 1) % 256) 1 0))
        ∧ (s.ring.passTry = 2 → ∃ t, exec .enumPassTimeout s = .next t ∧ t.ring.passOut = false ∧ t.ring.st = .broken))
      ∧ (s.ring.joining = true → sent (exec .joinRepeat s) .join)
      ∧ (s.ring.joining = false → exec .joinRepeat s = .next s)
      ∧ (s.ring.upDead = false → s.ring.holdOut = false →
        sent (exec .upstreamDead s) (.brk (s.ring.number.getD 0) (bitNat s.ring.number.isSome) 0)
        ∧ ∃ t, exec .upstreamDead s = .next t ∧ t.ring.upDead = true ∧ (s.sys.head = true → t.ring.st = .broken)
          ∧ (s.sys.head = false → t.ring.event = true))
      ∧ (s.ring.upDead = true → sent (exec .breakReportRepeat s) (.brk (s.ring.number.getD 0) (bitNat s.ring.number.isSome) 0))
      ∧ exec .upstreamAlive s = .next { s with ring := { s.ring with upDead := false } })
  ∧ (∀ (s : State) (b : Bool) (sym : BitVec 9), s.sys.inReset = false →
      let r := s.ring
      let held := fun (l : List (BitVec 9)) (m : List Fwd) => l.length + (m.map fun f => f.held - f.shared).sum
      let ended := fun (x : Ring) => if b = false then x
        else if r.holdIn = true then { x with abtDue := true }
        else { x with aborts := r.aborts + 1, ctlOut := some symAbt, abtDue := false }
      exec (.ringFramingError b) s = .next { s with ring := ended { r with dropped := (r.dropped + 1) % 4294967296 } }
      ∧ exec (.ringAbt b) s = .next { s with ring := ended r }
      ∧ exec (.ringOverrun b) s = .next (if held r.rx r.fwd < 64 then s
          else { s with ring := ended { r with overrun := satInc 65535 r.overrun } })
      ∧ (b = true ∨ r.abtDue = false → exec (.ringHoldInput b) s = .next { s with ring := { r with holdIn := b } })
      ∧ (r.abtDue = true → exec (.ringHoldInput false) s =
        .next { s with ring := { r with aborts := r.aborts + 1, ctlOut := some symAbt, abtDue := false, holdIn := false } })
      ∧ exec (.ringBypass b) s = .next { s with ring := { r with bypass := b } }
      ∧ (r.holdIn = true → exec .ringTxFrameStart s = .next s)
      ∧ (r.holdIn = false → ∀ f l, r.own = f :: l → exec .ringTxFrameStart s = .next { s with ring := { r with own := l, tx := some f } })
      ∧ (r.holdIn = false → r.own = [] → ∀ f g l m, r.fwd = f :: l → r.insq = g :: m →
        (r.lastLocal = some true ∨ r.number = none → ∃ t, exec .ringTxFrameStart s = .next t ∧ t.ring.tx = some f.frame ∧ t.ring.fwd = l
          ∧ t.ring.insq = r.insq ∧ t.ring.lastLocal = if f.frame.isLine then some false else r.lastLocal)
        ∧ (∀ n, r.number = some n → r.lastLocal = some false → r.wait = [] → s.sys.due = [] →
          ∃ t, exec .ringTxFrameStart s = .next t ∧ t.ring.tx = some (g.sentBy n) ∧ t.ring.fwd = r.fwd ∧ t.ring.insq = m
            ∧ t.ring.lastLocal = some true))
      ∧ (r.own = [] → r.fwd = [] → r.number = none → exec .ringTxFrameStart s = .next s)
      ∧ (r.holdIn = false → r.own = [] → r.fwd = [] → r.insq = [] ∨ r.number = none →
        exec .idleSymbol s = .next { s with ring := { r with idles := r.idles + 1, ctlOut := some symIdle } })
      ∧ (r.rx = [] → exec .rngRxRead s = .next s)
      ∧ (∀ x l, r.rx = x :: l → ∃ t, exec .rngRxRead s = .next t ∧ t.ring.rx = l ∧ t.ring.fwd = r.fwd.map Fwd.read
        ∧ let left := held l (r.fwd.map Fwd.read)
          (left ≤ 16 → t.ring.holdOut = false) ∧ (48 ≤ left → t.ring.holdOut = true)
            ∧ (16 < left → left < 48 → t.ring.holdOut = r.holdOut))
      ∧ (r.wait = [] → s.sys.due = [] →
        (r.discard = false → r.insUsed < 2048 → r.build.getLast? ≠ some (ctlSym 4 false) →
          (sym ≠ ctlSym 4 false → exec (.rngTxSymbol sym) s = .next { s with ring := { r with build := r.build ++ [sym] } })
          ∧ (sym = ctlSym 4 false → r.build.length ≤ 204 →
            exec (.rngTxSymbol sym) s = .next { s with ring := { r with build := [], insq := r.insq ++ [.raw (r.build ++ [sym])] } }))
        ∧ (r.discard = false → 2048 ≤ r.insUsed →
          exec (.rngTxSymbol sym) s = .next { s with ring := { r with build := [], discard := sym ≠ ctlSym 4 false } })
        ∧ exec .rngTxCancel s = .next { s with ring := { r with build := [], discard := false } }))
/-! ### The verbs -/

/-- The verbs that report (R126, R127 to R220): where the line's checks hold, the session receives the report with its tag and
nothing else changes; where one fails, the session's ignored count rises and nothing else happens. Each clause holds a verb, its
checks of readiness and rights, and its report's lines; the last line is the `=` line, the others `~` lines. -/
def Obligations.VerbReports : Prop :=
  ∀ (s u v : State) (q : Src) (n : BayNo) (r : Fin 16) (bays : List BayNo) (t : Ten) (x : Fin 32),
    let k := q.ses.val
    let l := bayList bays
    let plots := (List.range 16).filter fun t => (v.plotAt t).st ≠ .none
    let report := fun (ok : Bool) (lines : List String) =>
      (Host.Outcome.next ((if ok then v.lines q lines else u.ignore k).afterLine k) : Host.Outcome State Fault Refusal)
    (LineRuns s q (.state q) u v → exec (.state q) s = report true [v.stateLine])
    ∧ (LineRuns s q (.envelope q) u v → exec (.envelope q) s = report (u.inField && u.isUp .envelope) [v.envelopeLine])
    ∧ (LineRuns s q (.profile q n) u v → exec (.profile q n) s = report (u.inField && u.isUp .envelope && u.bayRights k [n.val])
        (v.profileLines n.val))
    ∧ (LineRuns s q (.scan q) u v → exec (.scan q) s = report (u.isUp .keys && u.steward k)
        ["SCAN FRAME " ++ (if v.keys.fast then "256" else "16") ++ " BANK " ++ decText (bitNat v.keys.active) ++ " STEPS "
        ++ decText v.keys.steps ++ " EVENTS " ++ decText v.keys.events ++ " STALLS " ++ decText v.keys.stalls])
    ∧ (LineRuns s q (.scanRow q r) u v → exec (.scanRow q r) s = report (u.isUp .keys && u.steward k)
        ["SCAN ROW " ++ decText r.val ++ " DEB " ++ wordText (vget v.keys.pubDeb r.val).toNat ++ " RAW "
        ++ wordText (vget v.keys.pubRaw r.val).toNat])
    ∧ (LineRuns s q (.keys q bays) u v → exec (.keys q bays) s = report (u.isUp .keys && !l.isEmpty && u.bayRights k l)
        (l.map fun n => "KEYS " ++ decText n ++ " " ++ v.keyNames n))
    ∧ (LineRuns s q (.keysPanel q) u v → exec (.keysPanel q) s = report (u.isUp .keys && u.steward k)
        ["KEYS PANEL " ++ v.panelClosed])
    ∧ (LineRuns s q (.keysGeneral q) u v → exec (.keysGeneral q) s = report (u.isUp .keys && u.steward k)
        ["KEYS GENERAL " ++ joinText " " ([13, 14, 15].map fun r => wordText (vget v.keys.pubDeb r).toNat)])
    ∧ (LineRuns s q (.face q) u v → exec (.face q) s = report (u.isUp .face) [v.faceText])
    ∧ (LineRuns s q (.fan q) u v → exec (.fan q) s = report (u.inField && u.isUp .field) ((List.range 8).map v.fanLine))
    ∧ (LineRuns s q (.temp q) u v → exec (.temp q) s = report (u.inField && u.isUp .field) (v.tempLines))
    ∧ (LineRuns s q (.line q) u v → exec (.line q) s = report true [v.lineLine k])
    ∧ (LineRuns s q (.echo q) u v → exec (.echo q) s = report true [v.echoLine k])
    ∧ (LineRuns s q (.who q) u v → exec (.who q) s = report true [v.whoLine k])
    ∧ (LineRuns s q (.whoAll q) u v → exec (.whoAll q) s = report (u.steward k)
        (((List.range 16).filter fun k => (v.sesAt k).isOpen).map v.sessionLine))
    ∧ (LineRuns s q (.key q t) u v → exec (.key q t) s = report (u.isUp .seedbank && u.steward k)
        ["KEY T" ++ decText t.val ++ " " ++ setText (v.keySet t.val)])
    ∧ (LineRuns s q (.tenancy q t) u v → exec (.tenancy q t) s = report (u.tenReady && u.tenant k t.val) [v.tenancyLine t.val])
    ∧ (LineRuns s q (.quota q t) u v → exec (.quota q t) s = report (u.tenReady && u.tenant k t.val) [v.quotaLine t.val])
    ∧ (LineRuns s q (.ledger q t) u v → exec (.ledger q t) s = report (u.ledgerReady && u.tenant k t.val) (v.ledgerLines t.val))
    ∧ (LineRuns s q (.ledgerGaps q t) u v → exec (.ledgerGaps q t) s = report (u.ledgerReady && u.tenant k t.val)
        (v.gapLines t.val))
    ∧ (LineRuns s q (.time q) u v → exec (.time q) s = report (u.isUp .calendar) [v.timeLine])
    ∧ (LineRuns s q (.plot q) u v → exec (.plot q) s = report (u.tenReady && u.steward k)
        (if plots.isEmpty then ["PLOT NONE"] else plots.map v.plotLine))
    ∧ (LineRuns s q (.plotTenancy q t) u v → exec (.plotTenancy q t) s = report (u.tenReady && u.tenant k t.val)
        [v.plotLine t.val])
    ∧ (LineRuns s q (.ring q) u v → exec (.ring q) s = report (u.isUp .ring) [v.ringLine])
    ∧ (LineRuns s q (.trace q) u v → exec (.trace q) s = report (u.traceReady k) [v.traceLine])
    ∧ (LineRuns s q (.granary q) u v → exec (.granary q) s = report (u.granReady k) [v.granaryLine v.sdb.granSized])
    ∧ (LineRuns s q (.granaryUse q x) u v → exec (.granaryUse q x) s = report (u.granReady k)
        ["GRANARY USE " ++ decText x.val ++ " INUSE " ++ joinText "," (v.pools.map fun p => decText (v.gran.inuseOf x.val p))])
    ∧ (LineRuns s q (.seedbank q) u v → exec (.seedbank q) s = report (u.isUp .seedbank && u.steward k) [v.seedbankLine])
    ∧ (LineRuns s q (.furrow q) u v → exec (.furrow q) s = report (u.isUp .furrow && u.steward k) [v.furrowText])
    ∧ (LineRuns s q (.handles q) u v → exec (.handles q) s = report (u.isUp .replay)
        (((v.hnd.opens.filter fun x => x.isOpen && v.sees k x.ten).map fun x =>
        handleText x.kk x.seq ++ " " ++ x.phaseText ++ " T" ++ decText x.ten ++ " " ++ x.name) ++ [v.handlesEnd k]))
    ∧ (LineRuns s q (.handlesOrphan q) u v → exec (.handlesOrphan q) s = report (u.isUp .replay)
        (((v.hnd.kept.filter fun x => x.orphaned && v.sees k x.ten).map fun x =>
        handleText x.kk x.seq ++ " T" ++ decText x.ten ++ " " ++ x.name) ++ [v.handlesEnd k]))

/-- The verbs that open a handle (R129, R138, R139, R181, R206, R221, R224, R225): each clause holds a verb, the checks of R126 of
its line, and the form that `State.open_` is given where they hold; the last clause of the first part says what that does: a handle
of that form, with the line's tag, the session's tenancy and the keeper's number, stands open and not yet accepted, or, where a
resource is lacking, the answer is BUSY. The verbs that store a setting (R191, R193, R197, R212, R216, R360): each clause
holds a verb, its checks, and the setting and answer that `State.store` is given where they hold; the last clause says that they
stand among the seedbank's jobs while another write is under way. Where a check fails, the line of either counts as ignored (R127).
The model's reading: a command of a verb is the session's next line (log 20), and SHARE and ALLOT answer the value as typed (log 43). -/
def Obligations.VerbForms : Prop :=
  (∀ (s u v : State) (q : Src) (bays : List BayNo) (t : Ten) (w : EnvWord) (d : DecVal) (c : Colour) (p : Pattern) (a : Nat)
      (text name : String) (view : View) (key : BitVec 256),
    let k := q.ses.val
    let l := bayList bays
    let opens := fun (ok : Bool) (name : String) (f : Form) =>
      (Host.Outcome.next ((if ok then v.open_ q name f else u.ignore k).afterLine k) : Host.Outcome State Fault Refusal)
    let acted := fun (f : BitVec 96 → Form) =>
      let form := f (bayMap (v.actedBays l))
      (Host.Outcome.next ((if !(u.bayReady l && u.bayRights k l) then u.ignore k
        else if v.resources q form then (v.open_ q "BAY" form).countLeft k l else v.busy q).afterLine k) :
        Host.Outcome State Fault Refusal)
    (LineRuns s q (.wake q) u v → exec (.wake q) s = opens (u.usable .wake && (u.holds k).isSome) "WAKE" .wake)
    ∧ (LineRuns s q (.rest q) u v → exec (.rest q) s = opens (u.usable .rest && u.steward k) "REST" .rest)
    ∧ (LineRuns s q (.envelopeSet q w d) u v → exec (.envelopeSet q w d) s = opens
        (u.envOk w d && u.usable (.envSet w (envValue w d)) && u.steward k) "ENVELOPE" (.envSet w (envValue w d)))
    ∧ (LineRuns s q (.profileForget q bays) u v → exec (.profileForget q bays) s = opens
        (u.usable (.forget (bayMap l) 0#96) && u.steward k) "PROFILE" (.forget (bayMap l) 0#96))
    ∧ (LineRuns s q (.tag q bays c p) u v → exec (.tag q bays c p) s = opens
        (u.usable (.tag (bayMap l) c p) && u.bayRights k l) "TAG" (.tag (bayMap l) c p))
    ∧ (LineRuns s q (.tagAuto q bays) u v → exec (.tagAuto q bays) s = opens
        (u.usable (.tagAuto (bayMap l)) && u.bayRights k l) "TAG" (.tagAuto (bayMap l)))
    ∧ (LineRuns s q (.faceText q text) u v → exec (.faceText q text) s = opens
        (textShows text && u.usable (.face (.text text)) && u.steward k) "FACE" (.face (.text text)))
    ∧ (LineRuns s q (.faceTextOff q) u v → exec (.faceTextOff q) s = opens
        (u.usable (.face .off) && u.steward k) "FACE" (.face .off))
    ∧ (LineRuns s q (.faceView q view) u v → exec (.faceView q view) s = opens
        (u.usable (.face (.view view)) && u.steward k) "FACE" (.face (.view view)))
    ∧ (LineRuns s q (.keySet q t key) u v → exec (.keySet q t key) s = opens
        (u.usable (.keySet t.val key) && u.steward k) "KEY" (.keySet t.val key))
    ∧ (LineRuns s q (.keyClear q t) u v → exec (.keyClear q t) s = opens
        (u.usable (.keyClear t.val) && u.steward k) "KEY" (.keyClear t.val))
    ∧ (LineRuns s q (.plotLoad q t a) u v → exec (.plotLoad q t a) s = opens
        (a % 4096 = 0 && a < 4294967296 && u.usable (.plotLoad t.val a) && u.steward k) "PLOT" (.plotLoad t.val a))
    ∧ (LineRuns s q (.plotUnload q t) u v → exec (.plotUnload q t) s = opens
        (u.usable (.plotUnload t.val) && u.steward k) "PLOT" (.plotUnload t.val))
    ∧ (LineRuns s q (.selftest q) u v → exec (.selftest q) s = opens
        (u.usable (.selftest 0) && u.steward k) "SELFTEST" (.selftest 0))
    ∧ (LineRuns s q (.ledgerEpoch q t) u v → exec (.ledgerEpoch q t) s = opens
        (u.steward k && u.usable (.epoch t.val 0)) "LEDGER" (.epoch t.val (vget v.led.epochs t.val).number))
    ∧ (LineRuns s q (.bayOn q bays) u v → exec (.bayOn q bays) s = acted fun m => .bayOn m 0#96)
    ∧ (LineRuns s q (.bayOff q bays) u v → exec (.bayOff q bays) s = acted fun m => .bayOff m)
    ∧ (LineRuns s q (.xVerb q name text) u v →
      (∀ t i r, u.xVerb k name text = some (t, i, r) → v.xVerb k name text = some (t, i, r) →
        exec (.xVerb q name text) s = .next ((v.open_ q name (.x t i text r)).afterLine k))
      ∧ (u.xVerb k name text = none → exec (.xVerb q name text) s = .next ((u.ignore k).afterLine k)))
    ∧ (∀ form, let o := v.open_ q name form
      (v.resources q form = false → o = v.reply q "BUSY")
      ∧ (v.resources q form = true → o.hnd.opens.length = v.hnd.opens.length + 1 ∧ ∃ h ∈ o.hnd.opens, h.form = form
        ∧ h.accepted = false ∧ h.phase = .accepted ∧ h.tag = q.tag ∧ h.ten = v.recorded k ∧ h.kk = v.keeperNo)))
  ∧ (∀ (s u v : State) (q : Src) (t : Ten) (g w p n : Nat) (d : DecVal) (bays : List BayNo),
    let k := q.ses.val
    let l := bayList bays
    let stores := fun (ok : Bool) (x : Setting) (answer : String) =>
      (Host.Outcome.next ((if ok then v.store q x answer else u.ignore k).afterLine k) : Host.Outcome State Fault Refusal)
    (LineRuns s q (.tenancyGroup q t g) u v → exec (.tenancyGroup q t g) s = stores
        (g ≤ 7 && u.tenReady && u.steward k) (.group t.val g) ("TENANCY T" ++ decText t.val ++ " GROUP " ++ decText g))
    ∧ (LineRuns s q (.tenancyShare q t d) u v → exec (.tenancyShare q t d) s = stores
        (d.digits ≤ 1 && scaledOf d 1 ≤ 1000 && u.sdb.shareSum t.val (scaledOf d 1) ≤ 1000 && u.tenReady && u.steward k) 
        (.share t.val (scaledOf d 1)) ("TENANCY T" ++ decText t.val ++ " SHARE " ++ valText d))
    ∧ (LineRuns s q (.tenancyAllot q t d) u v → exec (.tenancyAllot q t d) s = stores
        (d.digits ≤ 4 && scaledOf d 4 ≤ 99999999 && u.tenReady && u.steward k) 
        (.allot t.val (scaledOf d 4 * 100000000)) ("TENANCY T" ++ decText t.val ++ " ALLOT " ++ valText d))
    ∧ (LineRuns s q (.tenancyWeight q g w) u v → exec (.tenancyWeight q g w) s = stores
        (g ≤ 7 && 1 ≤ w && w ≤ 255 && u.tenReady && u.steward k) (.weight g w) ("TENANCY WEIGHT " ++ decText g ++ " " ++ decText w))
    ∧ (LineRuns s q (.assign q bays t) u v → exec (.assign q bays t) s = stores
        (u.tenReady && u.steward k) (.assign (bayMap l) (some t.val)) ("ASSIGN " ++ decText l.length ++ " T" ++ decText t.val))
    ∧ (LineRuns s q (.assignNone q bays) u v → exec (.assignNone q bays) s = stores
        (u.tenReady && u.steward k) (.assign (bayMap l) none) ("ASSIGN " ++ decText l.length ++ " NONE"))
    ∧ (LineRuns s q (.quotaPool q t p n) u v → exec (.quotaPool q t p n) s = stores
        (u.pools.contains p && n ≤ poolBuffers p && u.tenReady && u.steward k) (.quota t.val (v.quotaAt p) n)
        ("QUOTA T" ++ decText t.val ++ " POOL " ++ decText p ++ " " ++ decText n))
    ∧ (LineRuns s q (.granaryModeSingle q) u v → exec (.granaryModeSingle q) s = stores
        (u.granReady k) (.granMode false) (v.granaryLine false))
    ∧ (LineRuns s q (.granaryModeSized q) u v → exec (.granaryModeSized q) s = stores
        (u.granReady k) (.granMode true) (v.granaryLine true))
    ∧ (LineRuns s q (.ringTermOn q) u v → exec (.ringTermOn q) s = stores
        (u.isUp .ring && u.steward k) (.term true) "RING TERM ON")
    ∧ (LineRuns s q (.ringTermOff q) u v → exec (.ringTermOff q) s = stores
        (u.isUp .ring && u.steward k) (.term false) "RING TERM OFF")
    ∧ (∀ x a, v.sdb.jobBusy = true → ∃ j ∈ (v.store q x a).sdb.jobs, j.setting = x ∧ j.reply = some (k, q.tag, a) ∧ j.handle = none))

/-- The verbs with an effect of their own and no handle (R94, R155 to R157, R175, R184 and R185, R187 to R189, R200, R212 to R215, R220,
R237, R246 to R249, R428). Each clause holds a verb, the checks of R126 of its line, and what it does where they hold; where one
fails the line counts as ignored (R127) and does nothing else. The clauses of PROVE say that it consumes the challenge in either
case, and that a right proof makes the session prove its tenancy, or is answered BUSY where no place is free (R188). What a verb does
after its answer waits while that answer is held for room (`State.later`).
The model's reading: a command of a verb is the session's next line (log 20), the rate of LINE BAUD changes after its result (log 61),
and the answer that delivers an orphan's completion says ORPHAN (log 90). -/
def Obligations.VerbActs : Prop :=
  ∀ (s u v : State) (q : Src) (b m : Nat) (n : BayNo) (pm pa : Bool) (bays : List BayNo) (fans : List (Fin 8)) (p : Fin 101)
    (w : Word) (cores : List CoreId) (t : Ten) (groups : List (BitVec 16)) (r : HRef) (i : Fin 64) (core : CoreId),
    let k := q.ses.val
    let l := bayList bays
    let does := fun (ok : Bool) (x : State) =>
      (Host.Outcome.next ((if ok then x else u.ignore k).afterLine k) : Host.Outcome State Fault Refusal)
    let traces := fun (x : State) => x.reply q x.traceLine
    let unlocked := v.unlockProofs n.val pm pa
    (LineRuns s q (.lineBaud q b) u v → exec (.lineBaud q b) s = does
        ((baudCode b).isSome && k = 0) ((v.modCon fun c => { c with baud := (baudCode b).getD 1 }).replyRate q ("LINE BAUD " ++ decText b)))
    ∧ (LineRuns s q (.lineXonOn q) u v → exec (.lineXonOn q) s = does
        (k = 0) ((v.modCon fun c => { c with xon := true }).reply q "LINE XON ON"))
    ∧ (LineRuns s q (.lineXonOff q) u v → exec (.lineXonOff q) s = does
        (k = 0) ((v.modCon fun c => { c with xon := false, stopped := false, flowDue := none }).reply q "LINE XON OFF"))
    ∧ (LineRuns s q (.echoOn q) u v → exec (.echoOn q) s = does
        true ((v.modSes k fun x => { x with echo := true }).reply q "ECHO ON"))
    ∧ (LineRuns s q (.echoOff q) u v → exec (.echoOff q) s = does
        true ((v.modSes k fun x => { x with echo := false }).reply q "ECHO OFF"))
    ∧ (LineRuns s q (.bayLocateOn q n) u v → exec (.bayLocateOn q n) s = does
        (u.rowReady n.val && u.bayRights k [n.val]) ((v.setLocate n.val true).reply q ("LOCATE " ++ decText n.val ++ " ON")))
    ∧ (LineRuns s q (.bayLocateOff q n) u v → exec (.bayLocateOff q n) s = does
        (u.rowReady n.val && u.bayRights k [n.val]) ((v.setLocate n.val false).reply q ("LOCATE " ++ decText n.val ++ " OFF")))
    ∧ (LineRuns s q (.bayUnlock q n pm pa) u v → exec (.bayUnlock q n pm pa) s = does
        (u.isUp (.baysRow (n.val / 8)) && u.steward k && u.sys.kst = .field && (u.bayAt n.val).st = .locked)
        (if pm && pa && (unlocked.bayAt n.val).agree then
          (unlocked.putLock n.val false 0 0).modBays fun b => { b with unlocking := b.unlocking ++ [(n.val, k, q.tag)] }
        else unlocked.reply q ("BAY " ++ decText n.val ++ " LOCKED PROOF-FAIL")))
    ∧ (LineRuns s q (.bayInfo q bays) u v → exec (.bayInfo q bays) s = does
        (u.inField && !(u.actedBays l).isEmpty && u.bayRights k l) ((v.lines q ((v.actedBays l).map v.infoLine)).countLeft k l))
    ∧ (LineRuns s q (.fanDuty q fans p) u v → exec (.fanDuty q fans p) s = does (u.inField && u.isUp .field && u.steward k)
        (((fanList fans).foldl (fun s n => s.modFan n fun f => { f with duty := p.val, manual := true }) v).reply q
          ("FAN " ++ decText (fanList fans).length ++ " SET")))
    ∧ (LineRuns s q (.fanAuto q fans) u v → exec (.fanAuto q fans) s = does (u.inField && u.isUp .field && u.steward k)
        ((((fanList fans).foldl (fun s n => s.modFan n fun f => { f with manual := false }) v).fansAuto).reply q
          ("FAN " ++ decText (fanList fans).length ++ " SET")))
    ∧ (LineRuns s q (.timeSet q w) u v → exec (.timeSet q w) s = does
        (u.isUp .calendar && u.steward k) ((v.setTime w.toNat).reply q ("TIME SET " ++ decText w.toNat)))
    ∧ (LineRuns s q (.traceModeStop q) u v → exec (.traceModeStop q) s = does
        (u.traceReady k) (traces (v.modSow fun w => { w with trWrap := false })))
    ∧ (LineRuns s q (.traceModeWrap q) u v → exec (.traceModeWrap q) s = does
        (u.traceReady k) (traces (v.modSow fun w => { w with trWrap := true })))
    ∧ (LineRuns s q (.traceClear q) u v → exec (.traceClear q) s = does
        (u.traceReady k) (traces (v.modSow fun w => { w with trace := [], trMissed := 0 })))
    ∧ (LineRuns s q (.traceCoresOn q cores) u v → exec (.traceCoresOn q cores) s = does
        (u.traceReady k) (traces (v.setTraced cores true)))
    ∧ (LineRuns s q (.traceCoresOff q cores) u v → exec (.traceCoresOff q cores) s = does
        (u.traceReady k) (traces (v.setTraced cores false)))
    ∧ (LineRuns s q (.traceDump q m) u v → exec (.traceDump q m) s = does (1 ≤ m && m ≤ 4096 && u.traceReady k)
        ((v.lines q (((v.sow.trace.drop (v.sow.trace.length - m)).map fun e => "0x" ++ hexText 16 e.toNat)
          ++ [v.traceLine])).later k .dump))
    ∧ (LineRuns s q (.statsClear q) u v → exec (.statsClear q) s = does
        (u.statsReady k) ((v.zeroStats fun _ => 0).reply q "STATS CLEARED"))
    ∧ (LineRuns s q (.ringEnum q) u v → exec (.ringEnum q) s = does
        (u.isUp .ring && u.steward k && u.sys.head) ((v.reply q "RING ENUM").startPass))
    ∧ (LineRuns s q (.resetField q) u v → exec (.resetField q) s = does (u.sys.kst = .field && u.isUp .field && u.steward k)
        (if (v.reply q "RESET FIELD").linesHeld k then (v.reply q "RESET FIELD").later k .resetField
        else (v.reply q "RESET FIELD").fieldRestart 2 .free))
    ∧ (LineRuns s q (.cancel q r) u v → exec (.cancel q r) s = does
        (u.isUp .replay) ((v.cancelLine k r).2.reply q (v.cancelLine k r).1))
    ∧ (LineRuns s q (.statsQ q i) u v → exec (.statsQ q i) s = does (u.statsReady k)
        (let x := v.timed i.val
        x.reply q ("STATS Q " ++ decText i.val ++ " DEPTH " ++ decText (x.depth i.val) ++ " HIGH " ++ decText (x.que i.val).high
          ++ " DISPATCH " ++ decText (x.que i.val).dispatch ++ " WAITSUM " ++ decText (x.que i.val).waitSum ++ " WAITMAX "
          ++ decText (x.que i.val).waitMax)))
    ∧ (LineRuns s q (.statsCore q core) u v → exec (.statsCore q core) s = does (u.statsReady k)
        (let x := v.timed (64 + core.val)
        let c := x.core core.val
        x.reply q ("STATS CORE " ++ decText core.val ++ " BUSY " ++ decText c.busy ++ " IDLE " ++ decText c.idle ++ " SWITCHES "
          ++ decText c.switches ++ " PREFETCH " ++ decText c.prefetches ++ " UNPREFETCH " ++ decText c.unprefetches
          ++ " PREEMPT " ++ decText c.preempts)))
    ∧ (LineRuns s q (.close q) u v → exec (.close q) s = does (u.isUp .seedbank)
        (let x := (v.modSes k fun x => { x with proved := none, challenge := none }).reply q "CLOSED"
        if k = 0 then x else if x.linesHeld k then x.later k .close else x.endSession k))
    ∧ (LineRuns s q (.openT q t) u v → exec (.openT q t) s = does (u.isUp .seedbank && u.keySet t.val)
        (let c := Config.challenge v.draw.1
        ((v.draw.2.modSes k fun x => { x with challenge := some (t.val, c), openTick := v.cal.tick }).reply q
          ("CHALLENGE " ++ groupText 4 c.toNat)).later k .opened))
    ∧ (LineRuns s q (.prove q groups) u v →
      (∀ t, u.isUp .seedbank = true → u.proves k groups = some t → v.proves k groups = some t →
        exec (.prove q groups) s = .next (((if v.placeFree k t
          then (v.modSes k fun x => { x with proved := some t }).reply q ("PROVED T" ++ decText t)
          else v.busy q).afterLine k).modSes k fun x => { x with challenge := none }))
      ∧ (u.isUp .seedbank = false ∨ u.proves k groups = none →
        exec (.prove q groups) s = .next (((u.ignore k).afterLine k).modSes k fun x => { x with challenge := none })))
    ∧ (LineRuns s q (.handle q r) u v → u.isUp .replay = true →
      let name := "HANDLE " ++ handleText r.kk.toNat r.seq.toNat
      (v.seenOpen k r = none → v.seenKept k r = none → exec (.handle q r) s = does true (v.reply q (name ++ " UNKNOWN")))
      ∧ (∀ x, v.seenOpen k r = some x → exec (.handle q r) s = does true (v.reply q (name
        ++ " OPEN " ++ x.phaseText ++ " T" ++ decText x.ten ++ " " ++ x.name ++ " REPLAYS " ++ decText x.replays)))
      ∧ (∀ x, v.seenOpen k r = none → v.seenKept k r = some x → exec (.handle q r) s = does true (((v.more q (name
        ++ " CLOSED T" ++ decText x.ten ++ " " ++ x.name ++ " REPLAYS " ++ decText x.replays
        ++ (if x.orphaned then " ORPHAN" else " DELIVERED"))).reply q (complText x.form x.compl)).deliver x)))

/-- Where a verb completes: in every state in which its line comes to be run and passes the checks of R126 (`LineOk`: readiness,
rights, legal state and values, by the tables of R138 and R181), the command answers a next state, and this is what stands in it. A
form whose resources are there stands open under its name, tag, tenancy and keeper number, not yet accepted (R221, R224, R225). A
setting stands among the seedbank's jobs with the line that waits for its answer (R191, R360). A verb with an effect of its own has
left that effect in the state (R155, R156, R175, R184, R185, R187 to R189, R200, R212 to R215); one that only answers has queued its
lines (`State.lines`, `State.reply`). Recovery of a core or a thread whose outcome is certain (`Obligations.Recovering` says when it
is not) ends as R267 and R270 say. That a command of a verb is the session's next line is log 20, and which thread is the recovery
thread log 65. -/
def Obligations.VerbsTakeEffect : Prop :=
  (∀ (s u v : State) (q : Src) (bays : List BayNo) (t : Ten) (w : EnvWord) (d : DecVal) (c : Colour) (p : Pattern) (a : Nat)
      (text name : String) (view : View) (key : BitVec 256) (i : Nat) (r : Bool),
    let l := bayList bays
    let opened := fun (c : Instr) (name : String) (f : Form) => LineOk s q c u v → v.resources q f = true →
      ∃ t, exec c s = .next t ∧ ∃ h ∈ t.hnd.opens, h.form = f ∧ h.name = name ∧ h.tag = q.tag ∧ h.ten = v.recorded q.ses.val
        ∧ h.kk = v.keeperNo ∧ h.accepted = false
    opened (.wake q) "WAKE" .wake ∧ opened (.rest q) "REST" .rest
    ∧ opened (.envelopeSet q w d) "ENVELOPE" (.envSet w (envValue w d))
    ∧ opened (.profileForget q bays) "PROFILE" (.forget (bayMap l) 0#96)
    ∧ opened (.tag q bays c p) "TAG" (.tag (bayMap l) c p) ∧ opened (.tagAuto q bays) "TAG" (.tagAuto (bayMap l))
    ∧ opened (.faceText q text) "FACE" (.face (.text text)) ∧ opened (.faceTextOff q) "FACE" (.face .off)
    ∧ opened (.faceView q view) "FACE" (.face (.view view))
    ∧ opened (.keySet q t key) "KEY" (.keySet t.val key) ∧ opened (.keyClear q t) "KEY" (.keyClear t.val)
    ∧ opened (.plotLoad q t a) "PLOT" (.plotLoad t.val a) ∧ opened (.plotUnload q t) "PLOT" (.plotUnload t.val)
    ∧ opened (.selftest q) "SELFTEST" (.selftest 0)
    ∧ opened (.ledgerEpoch q t) "LEDGER" (.epoch t.val (vget v.led.epochs t.val).number)
    ∧ opened (.bayOn q bays) "BAY" (.bayOn (bayMap (v.actedBays l)) 0#96)
    ∧ opened (.bayOff q bays) "BAY" (.bayOff (bayMap (v.actedBays l)))
    ∧ (v.xVerb q.ses.val name text = some (t.val, i, r) → opened (.xVerb q name text) name (.x t.val i text r)))
  ∧ (∀ (s u v : State) (q : Src) (t : Ten) (g w p n : Nat) (d : DecVal) (bays : List BayNo),
    let asked := fun (c : Instr) (x : Setting) => LineOk s q c u v → ∃ t, exec c s = .next t ∧ ∃ j ∈ t.sdb.jobs, j.setting = x
      ∧ j.handle = none ∧ ∃ answer, j.reply = some (q.ses.val, q.tag, answer)
    asked (.tenancyGroup q t g) (.group t.val g) ∧ asked (.tenancyShare q t d) (.share t.val (scaledOf d 1))
    ∧ asked (.tenancyAllot q t d) (.allot t.val (scaledOf d 4 * 100000000)) ∧ asked (.tenancyWeight q g w) (.weight g w)
    ∧ asked (.assign q bays t) (.assign (bayMap (bayList bays)) (some t.val))
    ∧ asked (.assignNone q bays) (.assign (bayMap (bayList bays)) none) ∧ asked (.quotaPool q t p n) (.quota t.val (v.quotaAt p) n)
    ∧ asked (.granaryModeSingle q) (.granMode false) ∧ asked (.granaryModeSized q) (.granMode true)
    ∧ asked (.ringTermOn q) (.term true) ∧ asked (.ringTermOff q) (.term false))
  ∧ (∀ (s u v : State) (q : Src) (b m : Nat) (n : BayNo) (pm pa : Bool) (bays : List BayNo) (fans : List (Fin 8)) (p : Fin 101)
      (w : Word) (cores : List CoreId) (t : Ten) (groups : List (BitVec 16)) (r : HRef) (i : Fin 64) (core : CoreId),
    let k := q.ses.val
    let l := bayList bays
    let does := fun (c : Instr) (done : State → Prop) => LineOk s q c u v → ∃ t, exec c s = .next t ∧ done t
    let answers := fun (c : Instr) (x : State) => LineOk s q c u v → exec c s = .next (x.afterLine k)
    does (.lineBaud q b) (fun t => t.con.baud = (baudCode b).getD 1)
    ∧ does (.lineXonOn q) (fun t => t.con.xon = true) ∧ does (.lineXonOff q) (fun t => t.con.xon = false ∧ t.con.stopped = false ∧ t.con.flowDue = none)
    ∧ does (.echoOn q) (fun t => (t.sesAt k).echo = true) ∧ does (.echoOff q) (fun t => (t.sesAt k).echo = false)
    ∧ does (.bayLocateOn q n) (fun t => (t.bayAt n.val).locate = some v.cal.tick)
    ∧ does (.bayLocateOff q n) (fun t => (t.bayAt n.val).locate = none)
    ∧ (pm = true → pa = true → ((v.unlockProofs n.val pm pa).bayAt n.val).agree = true →
      does (.bayUnlock q n pm pa) fun t => (n.val, k, q.tag) ∈ t.bays.unlocking)
    ∧ (pm = false ∨ pa = false → does (.bayUnlock q n pm pa) fun t => (t.bayAt n.val).st = .locked)
    ∧ answers (.bayInfo q bays) ((v.lines q ((v.actedBays l).map v.infoLine)).countLeft k l)
    ∧ does (.fanDuty q fans p) (fun t => ∀ f ∈ fans, (t.fanAt f.val).duty = p.val ∧ (t.fanAt f.val).manual = true)
    ∧ does (.fanAuto q fans) (fun t => ∀ f ∈ fans, (t.fanAt f.val).manual = false)
    ∧ does (.timeSet q w) (fun t => t.cal.utcLoad = some w.toNat)
    ∧ does (.traceModeStop q) (fun t => t.sow.trWrap = false) ∧ does (.traceModeWrap q) (fun t => t.sow.trWrap = true)
    ∧ does (.traceClear q) (fun t => t.sow.trace = [] ∧ t.sow.trMissed = 0)
    ∧ does (.traceCoresOn q cores) (fun t => ∀ c ∈ cores, t.sow.trCores.getLsbD c.val = true)
    ∧ does (.traceCoresOff q cores) (fun t => ∀ c ∈ cores, t.sow.trCores.getLsbD c.val = false)
    ∧ answers (.traceDump q m) ((v.lines q (((v.sow.trace.drop (v.sow.trace.length - m)).map fun e => "0x" ++ hexText 16 e.toNat)
      ++ [v.traceLine])).later k .dump)
    ∧ does (.statsClear q) (fun t => ∀ j : Fin 64, (t.que j.val).dispatch = 0 ∧ (t.que j.val).waitSum = 0 ∧ (t.que j.val).waitMax = 0)
    ∧ does (.ringEnum q) (fun t => t.ring.passOut = true)
    ∧ ((v.reply q "RESET FIELD").linesHeld k = false →
      answers (.resetField q) ((v.reply q "RESET FIELD").fieldRestart 2 .free))
    ∧ ((v.reply q "RESET FIELD").linesHeld k = true → does (.resetField q) fun t => (k, Due.resetField) ∈ t.sys.due)
    ∧ answers (.cancel q r) ((v.cancelLine k r).2.reply q (v.cancelLine k r).1)
    ∧ (let x := v.timed i.val
      answers (.statsQ q i) (x.reply q ("STATS Q " ++ decText i.val ++ " DEPTH " ++ decText (x.depth i.val) ++ " HIGH "
        ++ decText (x.que i.val).high ++ " DISPATCH " ++ decText (x.que i.val).dispatch ++ " WAITSUM "
        ++ decText (x.que i.val).waitSum ++ " WAITMAX " ++ decText (x.que i.val).waitMax)))
    ∧ (let x := v.timed (64 + core.val)
      let c := x.core core.val
      answers (.statsCore q core) (x.reply q ("STATS CORE " ++ decText core.val ++ " BUSY " ++ decText c.busy ++ " IDLE "
        ++ decText c.idle ++ " SWITCHES " ++ decText c.switches ++ " PREFETCH " ++ decText c.prefetches ++ " UNPREFETCH "
        ++ decText c.unprefetches ++ " PREEMPT " ++ decText c.preempts)))
    ∧ does (.close q) (fun t => (t.sesAt k).proved = none ∧ (t.sesAt k).challenge = none)
    ∧ does (.openT q t) (fun x => (x.sesAt k).challenge = some (t.val, Config.challenge v.draw.1))
    ∧ (∀ ten, v.proves k groups = some ten → v.placeFree k ten = true →
      does (.prove q groups) fun t => (t.sesAt k).proved = some ten ∧ (t.sesAt k).challenge = none)
    ∧ (let name := "HANDLE " ++ handleText r.kk.toNat r.seq.toNat
      (v.seenOpen k r = none → v.seenKept k r = none → answers (.handle q r) (v.reply q (name ++ " UNKNOWN")))
      ∧ (∀ x, v.seenOpen k r = some x → answers (.handle q r) (v.reply q (name ++ " OPEN " ++ x.phaseText ++ " T" ++ decText x.ten
        ++ " " ++ x.name ++ " REPLAYS " ++ decText x.replays)))
      ∧ (∀ x, v.seenOpen k r = none → v.seenKept k r = some x → answers (.handle q r) (((v.more q (name ++ " CLOSED T" ++ decText x.ten
        ++ " " ++ x.name ++ " REPLAYS " ++ decText x.replays ++ (if x.orphaned then " ORPHAN" else " DELIVERED"))).reply q
          (complText x.form x.compl)).deliver x))))
  ∧ (∀ (s : State) (k : Fin 6) (it : Item), s.sys.inReset = false → s.sys.fieldUp = true →
    let t := fieldAt (it.word 1).toNat 0 7
    let served := (s.heartServed k.val).tellFault k.val
    ((s.core k.val).run.isSome = true → (s.core k.val).stopped = false → s.stalled k.val = false →
      ∃ u, exec (.heartbeatExpiry k) s = .next u ∧ (u.core k.val).stopped = true ∧ u.hng.expired.getLsbD k.val = true)
    ∧ (s.sys.spillStop.getLsbD k.val = true → exec (.coreFaultRecovery k) s = .next (served.fieldRestart 3 .counted))
    ∧ ((List.range 6).find? s.coreFault = some k.val → exec .recoveryTimeout s = .next (served.fieldRestart 3 .counted))
    ∧ (s.nextFault = some it → it.typ ≠ 0xFE0F → t < 24 → (s.th t).listen.getLsbD 54 = true →
      exec .threadFaultRecovery s = .next ((s.serveItem it).fieldRestart 3 .counted))
    ∧ (s.nextFault = some it → it.typ ≠ 0xFE0F → 24 ≤ t → exec .threadFaultRecovery s = .next (s.threadTaken it t)))

/-! ### Furrow, seedbank, calendar and ledger -/

/-- The furrow and the seedbank (R223, R249, R261, R263, R284, R285, R357 to R361, R733 to R740): a journal write begins with the
next SEQ in a slot; once verified its bytes stand in its line, and every other line is as before; a write of the port stores the
buffer in the line of its command, a read fills it; a failed verification sets VERIFY_FAIL; a stored setting leaves the queue of
jobs; the oldest line that waits is written once no record goes first. That lines wait their turn one by one is log 13; a write of
the seedbank that fails is `State.jobFailed` (log 42). -/
def Obligations.Storing : Prop :=
  ∀ (s : State) (r : Rec) (l : List Rec) (slot seq : Nat), s.sys.inReset = false → s.sys.vstbyLow = false →
    let other := fun (m m' : Mem) (lo n : Nat) => ∀ a, a < lo ∨ lo + n ≤ a → Mem.get zeroByte m' a = Mem.get zeroByte m a
    (s.jrn.queue = r :: l → s.jrn.writing = none → s.fur.op = none → s.isUp .furrow = true → ∃ t slot, exec .journalWriteStart s = .next t
      ∧ t.jrn.queue = l ++ s.jrn.late.take (16 - (l.length + 1)) ∧ t.jrn.writing = some (slot, (s.jrn.lastSeq + 1) % 4294967296, r)
      ∧ t.fur.mem = s.fur.mem ∧ t.fur.writes = (s.fur.writes + 1) % 4294967296)
    ∧ (s.jrn.writing = some (slot, seq, r) →
      (∃ u : State, exec (.recordDurable true) s = .next (u.recordDone r slot seq).restGoes ∧ u.jrn.writing = none ∧ u.jrn.lastSeq = seq
        ∧ u.jrn.lastSlot = slot ∧ Mem.gets zeroByte u.fur.mem (slot * 64) 64 = padBytes 64 (r.bytes seq)
        ∧ other s.fur.mem u.fur.mem (slot * 64) 64)
      ∧ (∃ u : State, exec (.recordDurable false) s = .next u.restGoes ∧ u.jrn.writing = none ∧ u.jrn.queue = r :: s.jrn.queue
        ∧ u.fur.verifyFail = true ∧ u.fur.errs = satInc 65535 s.fur.errs ∧ other s.fur.mem u.fur.mem (slot * 64) 64))
    ∧ (s.furBusy = false → exec .furRead s = .next { s with fur := { s.fur with op := some .read, opLine := s.fur.line } }
      ∧ exec .furWrite s = .next { s with fur :=
        { s.fur with op := some .write, opLine := s.fur.line, writes := (s.fur.writes + 1) % 4294967296 } })
    ∧ (s.furBusy = true → exec .furRead s = .next s ∧ exec .furWrite s = .next s)
    ∧ (s.fur.op = some .read → ∀ b, ∃ u : State, exec (.furrowOpDone b) s = .next u.restGoes ∧ u.fur.op = none ∧ u.fur.mem = s.fur.mem
      ∧ ∀ i : Fin 16, u.fur.buf[i] = BitVec.ofNat 32 (Mem.unit zeroByte s.fur.mem (s.fur.opLine * 64 + 4 * i.val) 4))
    ∧ (s.fur.op = some .write →
      (∃ u : State, exec (.furrowOpDone true) s = .next u.restGoes ∧ u.fur.op = none ∧ other s.fur.mem u.fur.mem (s.fur.opLine * 64) 64
        ∧ Mem.gets zeroByte u.fur.mem (s.fur.opLine * 64) 64 = bytesOf s.fur.buf.toList)
      ∧ (∃ u : State, exec (.furrowOpDone false) s = .next u.restGoes ∧ u.fur.op = none ∧ u.fur.verifyFail = true
        ∧ other s.fur.mem u.fur.mem (s.fur.opLine * 64) 64))
    ∧ (s.sdb.op = none → exec .sdbRead s = .next { s with sdb := { s.sdb with op := some .read, opPage := s.sdb.page } }
      ∧ exec .sdbWrite s = .next { s with sdb := { s.sdb with op := some .write, opPage := s.sdb.page } })
    ∧ (s.sdb.jobBusy = false → s.sdb.jobs = [] →
      (s.sdb.op = some .write → ∃ t, exec (.seedbankOpDone true) s = .next t ∧ t.sdb.op = none
        ∧ other s.sdb.mem t.sdb.mem (256 * s.sdb.opPage) 256
        ∧ Mem.gets zeroByte t.sdb.mem (256 * s.sdb.opPage) 256 = bytesOf s.sdb.buf.toList)
      ∧ (s.sdb.op = some .read → ∃ t, exec (.seedbankOpDone true) s = .next t ∧ t.sdb.op = none ∧ t.sdb.mem = s.sdb.mem))
    ∧ (∀ j k, s.sdb.jobBusy = true → s.sdb.jobs = j :: k →
      exec (.seedbankOpDone true) s = .next ((s.jobStored j).jobEnds j).sdbKick.runDue ∧ (s.jobStored j).sdb.jobs = k
        ∧ (s.jobStored j).sdb.op = none ∧ exec (.seedbankOpDone false) s = .next (s.jobFailed j))
    ∧ (∀ line b n rest, s.jrn.writing = none → s.jrn.queue = [] → s.fur.op = none → s.fur.pendingLines = (line, b, n) :: rest →
      exec (.furrowOpDone true) s = .next (s.lineWrite true).runDue.restGoes
      ∧ (headerLine line = true → exec (.checkpointDurable true) s = .next (s.lineWrite true).runDue.restGoes))

/-- Handles as their events move them (R207 to R209, R236, R243, R261, R327, R352, R453): a held completion is sent when
the ring carries it, and is an orphan where its session has ended (whether a member's head reports BROKEN is free, log 60); an X verb
completes by its plot's item once its records are durable, and an item that names none of them counts in XBAD (the count's bounds are
log 79); a plot's wake request is held until its tick and joins the causes of the WAKE asked for (in RESTING too, log 90); settings
whose tick has come are written to the field's registers, and the planner replans where a SHARE or an ASSIGN is among them; handles
whose resources are there go on (log 11 names the events that come out of turn). When the settings of a tick are written is
log 51. -/
def Obligations.HandleEvents : Prop :=
  ∀ (s : State) (t : Ten), s.sys.inReset = false →
    (∀ kk seq a b line l h c, s.hnd.heldOut = (kk, seq, a, b, line) :: l → s.openAt kk seq = some h → h.compl = some c →
      let u : State := { s with hnd := { s.hnd with heldOut := l } }
      let r := s.ringCarries
      (∀ k, h.opener = some k → r.1 = true →
        exec .completionHeldSend s = .next (({ r.2 with hnd := { r.2.hnd with heldOut := l } } : State).sendDone k h c line))
      ∧ (∀ k, h.opener = some k → r.1 = false → exec .completionHeldSend s = .next r.2)
      ∧ (h.opener = none → exec .completionHeldSend s = .next (u.orphan h c)))
    ∧ (s.ring.upDead = true ∨ s.ring.number = none → s.ringCarries = (false, s))
    ∧ (s.sys.head = true → s.ring.upDead = false → s.ring.number.isSome = true →
      s.ringCarries = (decide (s.ring.st ≠ .broken), s))
    ∧ (s.sys.fieldUp = true → ∀ it h, (s.plotItem fun n => n = 0x200 || n = 0x201) = some it → it.words.length = 3 → it.plotTen.isSome = true →
      let p := fieldAt (it.word 0).toNat 16 4
      let text := (s.serveItem it).bufferText (it.word 2)
      let u := (s.serveItem it).giveBuffer p it
      s.xHandle p (it.word 1) = some h →
      (s.recordsDue h.kk h.seq = true → exec .xCompletion s = .next s.runDue)
      ∧ (s.recordsDue h.kk h.seq = false →
        (it.typ = 0x200 → exec .xCompletion s = .next (u.retire h.kk h.seq { complDone [] false with text := text }).runDue)
        ∧ (it.typ = 0x201 → exec .xCompletion s =
          .next (u.retire h.kk h.seq { complFailed 0 false with text := if text = "" then "PLOT" else text }).runDue)))
    ∧ (s.sys.fieldUp = true → ∀ it, (s.plotItem fun n => n = 0x200 || n = 0x201) = some it →
      let p := fieldAt (it.word 0).toNat 16 4
      it.words.length ≠ 3 ∨ it.plotTen = none ∨ s.xHandle p (it.word 1) = none →
        exec .xCompletion s = .next (((s.serveItem it).giveBuffer p it).countXbad p).runDue)
    ∧ (s.sys.fieldUp = true → ∀ it, s.plotItem (fun n => n = 0x202) = some it → it.words.length = 2 → it.plotTen.isSome = true →
      ∃ u, exec .plotWakeRequest s = .next u ∧ u.sow.store = removeAge it.age s.sow.store
        ∧ (u.plotAt (fieldAt (it.word 0).toNat 16 4)).wakeAt
          = (if (it.word 1).toNat = 0 then none else some (s.cal.tick + (it.word 1).toNat)))
    ∧ (∀ k, (s.plotAt t.val).wakeAt = some k → k ≤ s.cal.tick → s.sys.kst = .latch ∨ s.sys.kst = .resting →
      ∃ u, exec (.plotWakeDue t) s = .next u ∧ (u.plotAt t.val).wakeAt = none
        ∧ u.sys.wakePend = (if .plot t.val ∈ s.sys.wakePend then s.sys.wakePend else s.sys.wakePend ++ [.plot t.val]))
    ∧ exec .deferredResourceClaim s = .next s.retryX.runDue
    ∧ (s.sdb.applyNow = true → ∃ u, exec .tenancySettingApply s = .next u ∧ u.sdb.applyNow = false ∧ u.sdb.groupNow = false
      ∧ u.sdb.shareNow = s.sdb.ten.map TenSet.share ∧ u.sdb.planNow = false ∧ u.env.replanDue = (s.env.replanDue || s.sdb.planNow && s.sys.fieldUp)
      ∧ u.mems = s.mems)
    ∧ (∀ x, (s.applySetting x).sdb.planDue = (s.sdb.planDue || match x with
      | .share _ _ => true
      | .assign _ _ => true
      | _ => false))
    ∧ (s.sdb.applyNow = false → exec .tenancySettingApply s = .next s)

/-- The calendar and the ledger (R362 to R368, R371 to R373, R388): a tick raises the count by 1 modulo 2^48 or loads it, a UTC that was
set takes its value at a tick and advances when its second ends; a tick's item finds its place; the count is saved to a line of the
furrow (the command comes with its verify, log 13). At a tick every tenancy's CAPACITY grows, and what its powered bays add, by voltage
and current of each rail, is noted; the ledger serves its ticks in order and adds what was noted. An accumulator holds at 32 nines, and
its overflow is marked. An interval that has ended goes into the newest checkpoint's values once the ledger thread has served its last
tick, and the next one begins; where the keeper serves ticks it tries its X handles' TAKEs again (R243). Which commands serve ticks is
log 19; when a bay's part is taken and when an interval's sums are handed over is log 44. -/
def Obligations.CalendarAndLedger : Prop :=
  ∀ (s : State) (t : Tid) (lo : Word) (hi : BitVec 16), s.sys.inReset = false →
    (∃ u, exec .calendarTick s = .next u ∧ u.cal.tick = s.cal.load.getD ((s.cal.tick + 1) % 2 ^ 48) ∧ u.cal.load = none
      ∧ u.cal.sinceReset = s.cal.sinceReset + 1 ∧ u.cal.ticked = true
      ∧ (s.sdb.applyDue = true → u.sdb.allotNow = s.sdb.ten.map TenSet.allot ∧ u.sdb.assignNow = s.sdb.assign ∧ u.sdb.applyNow = true)
      ∧ (∀ v, s.cal.utcLoad = some v → u.cal.utc = v ∧ u.cal.utcSet = true) ∧ (s.cal.utcLoad = none → u.cal.utc = s.cal.utc)
      ∧ (s.led.loaded = true → ∀ p : Ten, (s.led.value p.val).capacity ≤ accTop →
        (u.led.value p.val).capacity = min accTop ((s.led.value p.val).capacity + vget u.sdb.allotNow p.val / 64))
      ∧ (s.led.loaded = true → s.ledgerRuns = true → ∃ v : State, u.led.marks = s.led.marks ++ [(u.cal.tick, v.tickAdds)]
        ∧ v.bays = s.bays ∧ v.sdb.assignNow = u.sdb.assignNow ∧ v.sdb.allotNow = u.sdb.allotNow)
      ∧ u.mems = s.mems ∧ u.fur.mem = s.fur.mem)
    ∧ accTop = 10 ^ 32 - 1
    ∧ (0 < s.cal.utcDue →
      exec .utcAdvance s = .next { s with cal := { s.cal with utc := (s.cal.utc + 1) % 4294967296, utcDue := s.cal.utcDue - 1 } })
    ∧ (∀ k q, s.cal.pend = some k → s.tickClaim = some q → s.hasRoom q = true → s.waiter q = some .tick →
      ∃ u, exec .tickItemPost s = .next u ∧ u.cal.pend = none ∧ ∃ it ∈ u.sow.store, it.words = tickWords k ∧ it.q = q)
    ∧ (s.cal.saveDue = true → s.lineFree = true → ∃ u, exec (.calendarSave true) s = .next u ∧ u.cal.saveDue = false
      ∧ u.cal.saveSeq = (s.cal.saveSeq + 1) % 4294967296 ∧ u.cal.newestB = some (decide (s.cal.saveLine = 3009))
      ∧ Mem.gets zeroByte u.fur.mem (s.cal.saveLine * 64) 64 = padBytes 64 (calBytes ((s.cal.saveSeq + 1) % 4294967296) s.cal.tick))
    ∧ (∀ k v, s.ledgerRuns = true → s.lcTicks.takeTick 2 s.lcTicks.led.served = some (k, v) → (∀ j, v.led.served = some j → j < k) →
      let u := v.serveTick k
      exec .ledgerTick s = .next (s.ticked u) ∧ u.led.served = some k ∧ u.sow.store = v.sow.store ∧ u.cal = v.cal
      ∧ ∀ m (p : Ten) (i : Fin 2), (v.led.marks.filter fun x => x.1 = k) = [(k, m)] → (v.led.value p.val).at i.val ≤ accTop →
        (u.led.value p.val).at i.val = min accTop ((v.led.value p.val).at i.val + (vget m p.val).at i.val))
    ∧ (∀ (p r : Ten) (i j : Fin 4) (k x : Nat), (s.led.value p.val).at i.val ≤ accTop →
      let u := s.accrue k p.val i.val x
      (u.led.value p.val).at i.val = min accTop ((s.led.value p.val).at i.val + x)
      ∧ ((p, i) ≠ (r, j) → (u.led.value r.val).at j.val = (s.led.value r.val).at j.val)
      ∧ (u.led.overflow.getLsbD (4 * p.val + i.val) =
        (s.led.overflow.getLsbD (4 * p.val + i.val) || decide (accTop < (s.led.value p.val).at i.val + x))))
    ∧ (∀ p : Ten,
      let mine := (List.range 96).filter fun n => (s.bayAt n).powered && s.meterTen n = p.val
      let a := vget s.tickAdds p.val
      a.baysec = 15625 * mine.length ∧ a.capacity = vget s.sdb.allotNow p.val / 64 ∧ a.wakes = 0
      ∧ a.energy = 15625 * (mine.map fun n => (s.bayAt n).main.milliVolts * s.milliAmps n .main
          + (s.bayAt n).aux.milliVolts * s.milliAmps n .aux).sum)
    ∧ (∀ u : State, s.ticked u = if (s.tickItem 58).isSome = true ∨ (s.tickItem 2).isSome = true ∨ (s.tickItem 3).isSome = true
      then u.retryX.runDue else u)
    ∧ (∀ p l, let v := if s.ledgerRuns then s.serveTicks else s
      s.led.ends = p :: l → v.led.ends = p :: l →
      (v.handedOver p.1 = true → ∃ u, exec .intervalEnd s = .next (s.ticked u) ∧ u.led.ends = l ∧ u.led.from_ = p.1 + 1 ∧ u.led.cpTick = p.1
        ∧ u.led.base = addSums v.led.base p.2)
      ∧ (v.handedOver p.1 = false → exec .intervalEnd s = .next (s.ticked v)))
    ∧ exec (.calTickLoRead t) s = .next { s with cal := { s.cal with capture := vset s.cal.capture t.val (s.cal.tick / 4294967296 % 65536) } }
    ∧ exec (.calLoad lo hi) s = .next { s with cal := { s.cal with loadLo := lo.toNat, load := some (lo.toNat + hi.toNat * 4294967296) } }
    ∧ exec (.calUtcSet lo) s = .next { s with cal := { s.cal with utcLoad := some lo.toNat, timeSet := none } }

/-- What lapses in time (R155, R172, R174, R177, R337, R344, R677). Each clause holds an event, when it comes, and the state after it
(at other times it changes nothing, log 11; which ticks and seconds the model holds is log 3):
a challenge lapses 3,840 ticks after its answer, but not while that is held, a LOCATE mark after 57,600 and the keypad's display after 3,840 without a press; a
keyswitch in an invalid combination for 64 ticks is a fault; a fan without a pulse since its time began is ABSENT, and one that
runs slowly for 128 ticks stalls; a calendar second that has ended gives the fans' pulses, and a thermistor's conversion its code. -/
def Obligations.Lapses : Prop :=
  ∀ (s : State) (k : Fin 16) (n : BayNo) (f : Fin 8) (i : Fin 17) (code : BitVec 12) (pulses : Vector (BitVec 16) 8),
    s.sys.inReset = false →
    ((s.sesAt k.val).openTick + 3840 ≤ s.cal.tick → (k.val, Due.opened) ∉ s.sys.due →
      ∃ u, exec (.challengeLapse k) s = .next u ∧ (u.sesAt k.val).challenge = none
        ∧ (u.sesAt k.val).proved = (s.sesAt k.val).proved ∧ ∀ j : Fin 16, j ≠ k → u.sesAt j.val = s.sesAt j.val)
    ∧ (s.cal.tick < (s.sesAt k.val).openTick + 3840 ∨ (k.val, Due.opened) ∈ s.sys.due → exec (.challengeLapse k) s = .next s)
    ∧ (∀ t, (s.bayAt n.val).locate = some t → t + 57600 ≤ s.cal.tick → ∃ u, exec (.locateMarkTimeout n) s = .next u
      ∧ (u.bayAt n.val).locate = none ∧ (u.bayAt n.val).st = (s.bayAt n.val).st)
    ∧ (s.face.keyTick + 3840 ≤ s.cal.tick → exec .keypadHoldTimeout s = .next { s with face := { s.face with keypad := none } })
    ∧ (s.switchValid = false → s.keys.ksFault = false → 64 ≤ s.keys.ksTicks → ∃ u, exec .keyswitchFault s = .next u
      ∧ u.keys = { s.keys with ksFault := true })
    ∧ (s.sys.fieldUp = true → s.fansTimed = true → (s.fanAt f.val).seen = false → ∃ u, exec (.fanAbsentTimeout f) s = .next u
      ∧ u.fanAt f.val = { s.fanAt f.val with absent := true } ∧ ∀ j : Fin 8, j ≠ f → u.fanAt j.val = s.fanAt j.val)
    ∧ (s.sys.fieldUp = true → s.fans.secondDue = true → ∃ u, exec (.fanTachSecond pulses) s = .next u ∧ u.fans.secondDue = false
      ∧ ∀ j : Fin 8, (u.fanAt j.val).pulses = pulses[j].toNat ∧ (u.fanAt j.val).duty = (s.fanAt j.val).duty)
    ∧ (s.fans.secondDue = false → exec (.fanTachSecond pulses) s = .next s)
    ∧ (s.sys.fieldUp = true → (s.fanAt f.val).stall = false → (s.fanAt f.val).slow = true → 128 ≤ (s.fanAt f.val).low →
      ∃ u, exec (.fanStall f) s = .next u ∧ u.fanAt f.val = { s.fanAt f.val with stall := true })
    ∧ (s.sys.fieldUp = true → ∃ u, exec (.thermistorConversion i code) s = .next u ∧ u.fans.th[i] = code.toNat
      ∧ u.fans.thSeen.getLsbD i.val = true)

/-! ### Bays, the guard and the planner -/

/-- Bay states (R397, R402 to R407, R412, R413, R434): a legal START enters STARTING, or HELD while the guard holds; a STOP drives
the bay off; a gate that stands up is GOOD, and the gates' fall clears GOOD and ends STOPPING by the PRESENT key; both rails GOOD
and the end of BLANK make a starting bay ON; a trip decision makes the bay TRIPPED with its cause. A command that the table
refuses counts. In each case the bay items in service then look at their bays: `State.settle`. A bay item is dispatched where it
is its bay's next (R146, R149, R163); that keeper firmware serves it is log 19, and that a comparator
whose output is not told reads as a free value log 86. -/
def Obligations.BayStates : Prop :=
  ∀ (s : State) (n : BayNo) (rail : Rail), s.sys.inReset = false → s.sys.fieldUp = true →
    let b := s.bayAt n.val
    let tripped := fun (o : Host.Outcome State Fault Refusal) (cause : Nat) => ∃ u : State, o = .next (u.noteTrip n.val).settle
      ∧ (u.bayAt n.val).st = .tripped ∧ (u.bayAt n.val).tripCause = cause ∧ (u.bayAt n.val).tripRail = rail
      ∧ (u.bayAt n.val).tripEv = true ∧ (u.bayAt n.val).trips = satInc 65535 b.trips ∧ n.val ∉ u.env.order
    (s.startLegal n.val = true → s.guardHolding = false → ∃ u : State, exec (.bayStart n) s = .next u.settle
      ∧ (u.bayAt n.val).st = .starting ∧ (u.bayAt n.val).main.blankRun = decide (b.main.work.blank ≠ 0)
      ∧ (u.bayAt n.val).aux.blankRun = decide (b.aux.work.blank ≠ 0) ∧ (u.bayAt n.val).measure = some s.cal.tick
      ∧ u.env.order.head? = some n.val)
    ∧ (s.startLegal n.val = true → s.guardHolding = true → ∃ u : State, exec (.bayStart n) s = .next u.settle
      ∧ (u.bayAt n.val).st = .held ∧ u.env.heldQ = s.env.heldQ ++ [n.val])
    ∧ (s.startLegal n.val = false → exec (.bayStart n) s = .next (s.cmdRejected n.val).settle)
    ∧ (b.st = .starting ∨ b.st = .on ∨ b.st = .held ∨ b.st = .tripped → ∃ u : State, exec (.bayStop n) s = .next u.settle
      ∧ (u.bayAt n.val).st = .stopping ∧ (u.bayAt n.val).main.good = false ∧ (u.bayAt n.val).aux.good = false
      ∧ n.val ∉ u.env.heldQ)
    ∧ (b.st = .empty ∨ b.st = .presentOff ∨ b.st = .stopping ∨ b.st = .locked →
      exec (.bayStop n) s = .next (s.cmdRejected n.val).settle)
    ∧ (s.cmdRejected n.val).bayAt n.val = { b with cmdRej := satInc 255 b.cmdRej }
    ∧ (b.st = .stopping → ∃ u : State, exec (.gatesBelow1v n) s = .next u.settle ∧ (u.bayAt n.val).main.good = false
      ∧ (u.bayAt n.val).aux.good = false ∧ (u.bayAt n.val).st = if s.present n.val then .presentOff else .empty)
    ∧ (b.st ≠ .stopping → ∃ u : State, exec (.gatesBelow1v n) s = .next u
      ∧ u.bayAt n.val = { b with main := { b.main with good := false }, aux := { b.aux with good := false } })
    ∧ (∃ u : State, exec (.gateGood n rail) s = .next u.settle ∧ ((u.bayAt n.val).rail rail).good = true)
    ∧ (b.st = .starting → b.main.good = true → b.aux.good = true → (b.rail rail).blankRun = true → (b.rail rail).fastOver = false →
      b.main.blankRun = false ∨ b.aux.blankRun = false → ∃ u : State, exec (.blankWindowEnd n rail) s = .next u.settle
        ∧ (u.bayAt n.val).st = .on)
    ∧ (b.st = .starting ∨ b.st = .on →
      ((b.rail rail).blankRun = false → (b.rail rail).frozen = false → tripped (exec (.fastOver n rail) s) 1)
      ∧ tripped (exec (.slowTrip n rail) s) 2 ∧ (b.st = .starting → (b.rail rail).good = false → tripped (exec (.gateTimeout n rail) s) 4))
    ∧ (∀ w, (s.serveBayKeys n.val).nextWork n.val = some w → w.tid.isSome = true ∨ (s.serveBayKeys n.val).sow.dispatch = true →
      let v := ((s.serveBayKeys n.val).takeUp w).settleOne w
      (w.kind = .on → exec (.bayOnItem n) s = .next v) ∧ (w.kind = .off → exec (.bayOffItem n) s = .next v)
        ∧ (w.kind = .forget → exec (.profileForgetItem n) s = .next v))

/-- Lock-outs, proofs and samples (R409, R415, R418 to R430, R442): a lock-out sets the bay's latch and its cause; LC takes its item
and asks for its record (which takes its tick as it is written, log 13); a write of SYS_LOCK locks or unlocks; a proof freezes the
channel, passes or locks the bay, and ends, and one that another proof keeps waiting does not begin (R423); a sample gives the sums of
the sense codes of its 16 slots, or, where not 16 have been given, those that come with it (log 104), and raises the sequence. What the
SLOW comparator reads at a proof's end is free (log 86), and so is what differs at a shadow mismatch (log 34). -/
def Obligations.LocksAndProofs : Prop :=
  ∀ (s : State) (n : BayNo) (rail : Rail) (f g : Bool) (isum : List Int) (vsum : List Nat), s.sys.inReset = false →
    let b := s.bayAt n.val
    let lockedBy := fun (o : Host.Outcome State Fault Refusal) (cause : Nat) => ∃ u : State, o = .next u.settle ∧ (u.bayAt n.val).st = .locked
      ∧ u.locked n.val = true ∧ (u.bayAt n.val).lockCause = cause ∧ (u.bayAt n.val).lockEv = true
      ∧ ∀ m : BayNo, m ≠ n → u.locked m.val = s.locked m.val
    (s.sys.fieldUp = true →
      (b.st = .presentOff ∨ b.st = .empty ∨ b.st = .stopping ∨ b.st = .tripped ∨ b.st = .held → f = true ∨ g = true →
        lockedBy (exec (.gateOffLockout n f g) s) 4)
      ∧ (b.st ≠ .locked → lockedBy (exec (.shadowMismatch n rail true) s) 3
        ∧ lockedBy (exec (.shadowMismatch n rail false) s) 2)
      ∧ ((b.rail rail).frozen = true ∨ b.demanded rail = true ∧ (b.main.frozen = true ∨ b.aux.frozen = true) →
        exec (.proofStart n rail) s = .next s)
      ∧ ((b.rail rail).frozen = false → b.demanded rail = false ∨ b.main.frozen = false ∧ b.aux.frozen = false →
        ∃ u, exec (.proofStart n rail) s = .next u
        ∧ (u.bayAt n.val).rail rail = { b.rail rail with frozen := true, checked := false, proving := b.demanded rail }
        ∧ (u.bayAt n.val).st = b.st)
      ∧ ((b.rail rail).frozen = true →
        (∃ u, exec (.proofCheck n rail true true) s = .next u
          ∧ (u.bayAt n.val).rail rail = { b.rail rail with pass := true, fastOver := true, slowOver := true, checked := true })
        ∧ (f = false ∨ g = false → b.st ≠ .locked → lockedBy (exec (.proofCheck n rail f g) s) 1)
        ∧ ((b.rail rail).checked = true → ∃ u : State, exec (.proofEnd n rail false) s = .next u.runDue ∧ ((u.bayAt n.val).rail rail).frozen = false
          ∧ ((b.rail rail).proving = true → ((u.bayAt n.val).rail rail).wanted = false) ∧ (u.bayAt n.val).st = b.st))
      ∧ (b.main.wanted = false → b.aux.wanted = false → ∃ u, exec (.proofRun n) s = .next u ∧ (u.bayAt n.val).main.wanted = true
        ∧ (u.bayAt n.val).aux.wanted = true)
      ∧ (∃ u, exec (.adcSampleComplete isum vsum) s = .next u ∧ (u.bayAt n.val).seq = (b.seq + 1) % 256
        ∧ (u.bayAt n.val).main.isum = (if s.bays.sumSlots = 16 then vget s.bays.sumM n.val else isum.getD (2 * n.val) 0)
        ∧ (u.bayAt n.val).aux.isum = (if s.bays.sumSlots = 16 then vget s.bays.sumA n.val else isum.getD (2 * n.val + 1) 0)
        ∧ (u.bayAt n.val).aux.vsum = vsum.getD (2 * n.val + 1) 0 ∧ (u.bayAt n.val).main.vsum = vsum.getD (2 * n.val) 0
        ∧ u.bays.sumSlots = 0 ∧ (∀ j : BayNo, vget u.bays.sumM j.val = 0 ∧ vget u.bays.sumA j.val = 0)
        ∧ (u.bayAt n.val).st = b.st))
    ∧ (∀ it, (s.sow.store.find? fun it => it.q = s.hng.f2lQ && it.isLockOut) = some it →
      let w := (it.word 1).toNat
      let m := fieldAt w 0 7
      ∃ u, exec .lockItemServe s = .next u ∧ u.sow.store = removeAge it.age s.sow.store ∧ u.bays.lockNotes = s.bays.lockNotes ++ [m]
        ∧ u.fur.pendingLines = s.fur.pendingLines
          ++ [(lockLine m, padBytes 64 (lockBytes true (fieldAt w 8 3) (fieldAt w 12 1) (s.cal.tick % 4294967296)), 0)])
    ∧ (s.locked n.val = false → ∃ u : State, u.locked n.val = true ∧ (s.sys.fieldUp = true → exec (.sysLockSet n) s = .next u.settle
        ∧ (u.bayAt n.val).st = .locked) ∧ (s.sys.fieldUp = false → exec (.sysLockSet n) s = .next u))
    ∧ (s.locked n.val = true → ∃ u : State, u.locked n.val = false ∧ (s.sys.fieldUp = true → b.st = .locked →
        exec (.sysLockClear n) s = .next u.settle ∧ (u.bayAt n.val).st = s.restingState n.val)
        ∧ (s.sys.fieldUp = false → exec (.sysLockClear n) s = .next u))

/-- The guard and the planner (R432 to R438, R443 to R456): a slot's totals and peaks; HOLD at the end of
the GUARD-th consecutive over ms tick (`Env.holdDue`) and its end after the 250th clear one; a release at its
pace starts the front of the queue; a shed trips the top of the start order; a placed start is written at its tick; a replan places
what waits: each start at least 60 ticks after the last one and after now, the first at the first tick at which it fits (R448 to
R450), and it keeps what it predicted from (log 103); a measured start updates each point of its bay's profile (R445; a point that 16
bits do not hold is free, log 84, and all its samples are converted with ADC_SHUNT as it stands, log 106); a read of ENV_PEAK clears it.
How currents are rounded is log 37, and when a slot's flags count log 36. -/
def Obligations.GuardAndPlanner : Prop :=
  ∀ (s : State) (n : BayNo) (m a : List Int), s.sys.inReset = false → s.sys.fieldUp = true →
    let e := s.env
    let tm := guardTotal m s.bays.shuntM
    let ta := guardTotal a s.bays.shuntA
    (∃ u, exec (.guardSlot m a) s = .next u ∧ u.env.totM = tm ∧ u.env.totA = ta ∧ u.env.overM = decide (e.ceilM * 10 < tm)
      ∧ u.env.overA = decide (e.ceilA * 10 < ta) ∧ u.env.peakM = max e.peakM tm ∧ u.env.peakA = max e.peakA ta
      ∧ u.env.heldQ = e.heldQ ∧ u.bays.bay = s.bays.bay ∧ u.bays.sumSlots = s.bays.sumSlots + 1
      ∧ ∀ j : BayNo, vget u.bays.sumM j.val = vget s.bays.sumM j.val + m.getD j.val 0
        ∧ vget u.bays.sumA j.val = vget s.bays.sumA j.val + a.getD j.val 0)
    ∧ (e.hold = false → e.holdDue = true → ∃ u, exec .guardHold s = .next u ∧ u.env.hold = true ∧ u.env.holdEv = true
      ∧ u.env.holds = satInc 65535 e.holds ∧ u.bays = s.bays)
    ∧ (e.hold = true → e.clearDue = true → ∃ u, exec .guardHoldClear s = .next u ∧ u.env.hold = false
      ∧ u.env.heldQ = e.heldQ ∧ u.bays = s.bays)
    ∧ (∀ (k : BayNo) l, e.heldQ = k.val :: l → e.hold = false → s.paceMet = true → ∃ u : State, exec .guardRelease s = .next u.settle
      ∧ (u.bayAt k.val).st = .starting ∧ u.env.relEv = true ∧ u.env.lastStart = some s.cal.tick ∧ k.val ∉ u.env.heldQ)
    ∧ (∀ k l, e.order = k :: l → 2 ≤ e.shedRun → ∃ u : State, exec .guardShed s = .next (u.trip k 3 .main).assertHold
      ∧ u.env.shedEv = true ∧ u.env.sheds = satInc 255 e.sheds ∧ u.env.shedRun = 0 ∧ u.bays = s.bays)
    ∧ (∀ p, s.lcTicks.env.placed.find? (fun p => p.1 = n.val) = some p →
      let w := s.lcTicks.planTicks fun x => !x.planReached p.2
      w.planReached p.2 = true → w.plannerUp = true → w.startLegal n.val = true →
      ∃ u : State, exec (.plannerStart n) s = .next (s.ticked u.settle) ∧ u.env.lastWritten = some w.cal.tick ∧ n.val ∉ u.env.waiting
        ∧ (u.bayAt n.val).st = if w.guardHolding then .held else .starting)
    ∧ (e.replanDue = true → s.plannerUp = true → ∃ u : State, exec .replan s = .next u ∧ u.env.replanDue = false
      ∧ u.env.waiting = e.waiting ∧ u.bays = s.bays ∧ u.env.placed.length + u.env.unplaced = e.waiting.length
      ∧ (∀ p ∈ u.env.placed, p.1 ∈ e.waiting ∧ s.cal.tick < p.2 ∧ ∀ k, e.lastWritten = some k → k + 60 ≤ p.2)
      ∧ (u.env.placed.Pairwise fun p q => p.2 + 60 ≤ q.2)
      ∧ (u.env.plan = s.draws ++ u.env.placed.map fun p => s.placedDraw p.1 p.2)
      ∧ (∀ b l t, e.waiting = b :: l →
        let t0 := max (s.cal.tick + 1) ((e.lastWritten.map fun k => k + 60).getD 0)
        let fits := s.fits s.draws (s.envTen b) (l.map s.envTen) (s.curve b)
        t0 ≤ t → t ≤ s.cal.tick + 3840 → fits t = true → (∀ x, t0 ≤ x → x < t → fits x = false) → u.env.placed.head? = some (b, t)))
    ∧ (∀ (l : List Draw) (t : Ten) (o : List Nat) (c : List Nat) (x : Nat), s.fits l t.val o c x = true ↔ ∀ k : Fin 64,
      (predicted l (x + 16 * k.val) + (c.getD k.val 0 : Nat)) * 10 + s.sdb.envMargin * 1000
        + s.reserved l t.val o (x + 16 * k.val) ≤ s.sdb.envMain * 1000)
    ∧ (∀ t, (s.bayAt n.val).measure = some t → t + 1024 ≤ s.cal.tick → (s.bayAt n.val).st = .on ∨ (s.bayAt n.val).st = .starting →
      ∃ u : State, exec (.profileUpdate n) s = .next u.settle ∧ (u.bayAt n.val).measure = none ∧ (u.bayAt n.val).points = []
        ∧ (let p := fun i : Nat => newPoint ((s.curve n.val).getD i 0) ((s.bayAt n.val).points.getD i (0, 0)) (s.shunt n.val .main)
          let r := recordBytes ((List.range 64).flatMap fun i => leBytes 2 (p i)) (satInc 65535 (s.profileStarts n.val)) 1 s.cal.tick
          u.fur.pendingLines = s.fur.pendingLines ++ [(profileLine n.val, r.take 64, 0), (profileLine n.val + 1, (r.drop 64).take 64, 0),
            (profileLine n.val + 2, r.drop 128, 0)]))
    ∧ (∀ (old count sh : Nat) (sum : Int), newPoint old (sum, 0) sh = old
      ∧ (0 < count → let v := (3 * (old : Int) + pointMean sum count sh + 2) / 4
        0 ≤ v → v < 65536 → (newPoint old (sum, count) sh : Int) = v))
    ∧ exec .envPeakRead s = .next { s with env := { e with peakM := 0, peakA := 0 } }

/-! ### Keys, panel and face -/

/-- The scanner (R459 to R471): a frame runs unless one is under way, which counts as missed; a bank swap takes effect at its start. A
sample gives its position's RAW level, and the fourth in a row that differs from its debounced state changes that (R461); a change
while the scanner is armed is posted to its queue, with position and level (R467, R469), or stalls the shift, which resumes with
room. A complete frame is published; the inactive bank is written; events are served by LC, with their notice from `^READY KEYS` on
(R83), and a closing panel key takes the face (R475). That LC's copies keep their type, and that arming acts at the next frame, is
log 38; what the steps after a stall sample is log 93. -/
def Obligations.Scanning : Prop :=
  ∀ (s : State) (x : Vector (BitVec 32) 16) (j : Fin 64) (w : Word), s.sys.inReset = false →
    let k := s.keys
    let posts := fun (u : State) (e : Nat × Bool) => u.keys.events = inc32 k.events ∧ u.sow.store = s.sow.store
      ++ [{ words := [header 0 0 0 (0xC000 + 0x200 * bitNat e.2 + e.1)], q := k.evq, age := s.sow.nextAge }]
    (k.run.isSome = true → exec (.scanFrameStart x) s = .next { s with keys :=
      { k with missed := satInc 65535 k.missed, fast := s.sys.fastClk } })
    ∧ (k.run = none → ∃ u, exec (.scanFrameStart x) s = .next u ∧ u.keys.active = (k.active != k.swapPend) ∧ u.keys.swapPend = false
      ∧ u.keys.run.isSome = true ∧ u.keys.pubDeb = k.pubDeb ∧ u.keys.fast = s.sys.fastClk)
    ∧ (∀ r, k.run = some r → r.stalled = true → s.scanRoom = true → exec .shiftStallResume s = .next (s.runLater r))
    ∧ (∀ r, k.run = some r → r.finished = true → r.events = [] → ∃ u : State, exec .scanFrameComplete s = .next u.keysReach.switchSeen.showTags
      ∧ u.keys = { k with pubDeb := k.deb, pubRaw := k.raw, frame := inc32 k.frame, run := none })
    ∧ exec .scanSwap s = .next { s with keys := { k with swapPend := true } }
    ∧ (k.swapPend = true → exec (.scanStepWrite j w) s = .next { s with keys := { k with rej := satInc 255 k.rej } })
    ∧ (k.swapPend = false → exec (.scanStepWrite j w) s = .next { s with keys :=
        if k.active then { k with bank0 := vset k.bank0 j.val (w.setWidth 11) } else { k with bank1 := vset k.bank1 j.val (w.setWidth 11) } })
    ∧ exec .scanArm s = .next { s with keys := { k with post := true } }
    ∧ (k.run = none → exec .scanDisarm s = .next { s with keys := { k with post := false, armed := false } })
    ∧ (∀ (y : Keys) (row : Fin 16) (col : Fin 32) (b : Bool),
      let z := (y.sample row.val col.val b).1
      let p := 32 * row.val + col.val
      let was := (y.deb[row]).getLsbD col.val
      (z.raw[row]).getLsbD col.val = b
      ∧ (was = b → (y.sample row.val col.val b).2 = [] ∧ z.deb = y.deb ∧ z.count p = 0)
      ∧ (was ≠ b → y.count p ≠ 3 → (y.sample row.val col.val b).2 = [] ∧ z.deb = y.deb ∧ z.count p = y.count p + 1)
      ∧ (was ≠ b → y.count p = 3 → (y.sample row.val col.val b).2 = [(p, b)] ∧ z.count p = 0
        ∧ ∀ (i : Fin 16) (j : Fin 32), (z.deb[i]).getLsbD j.val = if i = row ∧ j = col then b else (y.deb[i]).getLsbD j.val)
      ∧ (∀ q, q ≠ p → z.count q = y.count q)
      ∧ ∀ (i : Fin 16) (j : Fin 32), (i, j) ≠ (row, col) → (z.raw[i]).getLsbD j.val = (y.raw[i]).getLsbD j.val)
    ∧ (let w := vget k.program 0
      let row := fieldAt w.toNat 0 4
      let r := k.sampleRow row (vget x row) (stepCols w)
      k.run = none → k.swapPend = false → k.post = false ∨ k.armed = true → w.getLsbD 10 = true →
        (k.armed = false ∨ r.2 = [] → ∃ u, exec (.scanFrameStart x) s = .next u ∧ u.keys.raw = r.1.raw ∧ u.keys.deb = r.1.deb
          ∧ u.keys.counts = r.1.counts ∧ u.sow = s.sow ∧ u.keys.events = k.events)
        ∧ (∀ e, k.armed = true → s.scanRoom = true → r.2 = [e] → ∃ u, exec (.scanFrameStart x) s = .next u
          ∧ u.keys.raw = r.1.raw ∧ u.keys.deb = r.1.deb ∧ posts u e)
        ∧ (∀ e l, k.armed = true → s.scanRoom = false → r.2 = e :: l → ∃ u, exec (.scanFrameStart x) s = .next u
          ∧ u.keys.raw = r.1.raw ∧ u.keys.deb = r.1.deb ∧ u.sow.store = s.sow.store ∧ (k.evq, Claimant.scan) ∈ u.sow.claims
          ∧ u.keys.stalls = satInc 65535 k.stalls ∧ ∃ c, u.keys.run = some c ∧ c.stalled = true ∧ c.events = e :: l))
    ∧ (∀ r e, k.run = some r → r.stalled = true → s.scanRoom = true → r.finished = true → r.events = [e] →
      ∃ u, exec .shiftStallResume s = .next u ∧ posts u e ∧ ∃ c, u.keys.run = some c ∧ c.stalled = false ∧ c.events = [])
    ∧ (∀ it, (s.sow.store.find? fun it => it.q = k.evq && 0xC000 ≤ it.typ && it.typ < 0xC400) = some it →
      let p := fieldAt it.typ 0 9
      let v := if s.isUp .keys then (s.serveItem it).notice ("*KEY " ++ positionText p ++ (if it.typ / 512 % 2 = 1 then " CLOSED" else " OPEN"))
        else s.serveItem it
      (v.sow.store = removeAge it.age s.sow.store)
      ∧ (384 ≤ p → takesFace it = false → exec .keyEventServe s = .next v)
      ∧ (p < 384 → s.sys.kst ≠ .field → exec .keyEventServe s = .next (v.showTag (keyBay p)))
      ∧ (p < 384 → s.sys.kst = .field → exec .keyEventServe s =
        .next ((v.lcPost 5 [header 1 (1 + keyBay p) 0 it.typ, BitVec.ofNat 32 it.typ]).showTag (keyBay p)))
      ∧ (s.isUp .keys = true → takesFace it = true → ∃ u : State, u.sow.store = removeAge it.age s.sow.store
        ∧ exec .keyEventServe s = .next u.press))

/-- The panel and the face (R155, R172, R473 to R476, R482, R484, R488, R489): the keypad's entries show what they name or ERR (an
empty one is log 40); LOCATE marks and unmarks; WAKE asks for a WAKE, beside the causes that have asked before (R35), and REST opens a
handle where the keyswitch is turned; DOT lights all; ERR ends after 64 ticks, with the display that stood there; an image is
shown from the next frame. -/
def Obligations.PanelAndFace : Prop :=
  ∀ (s : State) (n : BayNo) (d : List (Fin 10)) (b : Bool), s.sys.inReset = false → s.isUp .keys = true →
    let f := s.face
    let shows := fun (o : Host.Outcome State Fault Refusal) (x : Display) =>
      o = .next { s with face := { f with keypad := some x, keyTick := s.cal.tick } }
    let err := fun (o : Host.Outcome State Fault Refusal) => ∃ u, o = .next u ∧ u.face.keypad = some .err ∧ u.face.errTick = s.cal.tick
    ((s.bayAt n.val).locate = none → shows (exec (.keyLocate n) s) (.bay n.val))
    ∧ ((s.bayAt n.val).locate.isSome = true → ∃ u, exec (.keyLocate n) s = .next u ∧ (u.bayAt n.val).locate = none)
    ∧ (s.sys.kst ≠ .field → exec (.keyLever n) s = .next (s.showTag n.val))
    ∧ (s.sys.kst = .field → ∃ t : String, exec (.keyLever n) s = .next ((s.notice t).showTag n.val))
    ∧ (d ≠ [] → entryOf d ≤ 95 → shows (exec (.keypadBay d) s) (.bay (entryOf d)))
    ∧ (d = [] ∨ 95 < entryOf d → err (exec (.keypadBay d) s))
    ∧ (d ≠ [] → entryOf d ≤ 15 → shows (exec (.keypadTenancy d) s) (.tenancy (entryOf d)))
    ∧ (d = [] ∨ 15 < entryOf d → err (exec (.keypadTenancy d) s))
    ∧ (∀ m, s.shownNow = .bay m → shows (exec (.keypadUpDown b) s) (.bay ((if b then m + 1 else m + 95) % 96))
      ∧ (s.sys.kst = .field → m < 96 → ∃ u, exec .keypadLocate s = .next u ∧ (u.bayAt m).locate.isSome = (s.bayAt m).locate.isNone)
      ∧ (s.sys.kst ≠ .field → err (exec .keypadLocate s)))
    ∧ (∀ m, s.shownNow = .tenancy m → shows (exec (.keypadUpDown b) s) (.tenancy ((if b then m + 1 else m + 15) % 16)) ∧ err (exec .keypadLocate s))
    ∧ shows (exec .keypadView s) (.view (nextView s.shownNow))
    ∧ exec .keypadClear s = .next { s with face := { f with keypad := none } }
    ∧ (s.sys.kst = .latch ∨ s.sys.kst = .resting → ∃ u, exec .panelWake s = .next u
      ∧ u.sys.wakePend = if .panel ∈ s.sys.wakePend then s.sys.wakePend else s.sys.wakePend ++ [.panel])
    ∧ (s.turned = false → err (exec .panelRest s))
    ∧ (s.turned = true → s.canAccept 0 = true → ∃ u, exec .panelRest s = .next u ∧ ∃ h ∈ u.hnd.opens, h.form = .rest ∧ h.ten = 0
      ∧ h.accepted = false)
    ∧ (∃ u, exec (.panelDot b) s = .next u ∧ u.face.dot = b)
    ∧ (f.keypad = some .err → f.errTick + 64 ≤ s.cal.tick →
      exec .errTimeout s = .next { s with face := { f with keypad := f.errPrev.getD none, errPrev := none } })
    ∧ exec .faceCommit s = .next { s with face := { f with pend := true } }
    ∧ (f.pend = true → exec .faceFrameStart s = .next { s with face :=
      { f with shown := f.img, pend := false, inverted := !f.inverted } })
    ∧ (f.started = true → ∃ u, exec .faceRender s = .next u ∧ u.face.pend = true ∧ u.face.shown = f.shown ∧ u.face.keypad = f.keypad)
    ∧ (f.autoTick + 320 ≤ s.cal.tick → ∃ u, exec .faceViewRotate s = .next u ∧ u.face.autoTick = s.cal.tick
      ∧ u.face.auto = (f.auto + 1) % s.autoRound.length)

/-! ### JTAG -/

/-- The instructions of the JTAG port (R692 to R699): a scan shifts out 0b000001 and loads a code, of which each instruction has one, and
which stands until the next; a code that is not listed selects BYPASS. EXTEST takes the field's supply away. SAMPLE-PRELOAD captures
and loads the 282 cells (what no state of the model tells comes with the command, log 6). A scan for a debug read or write captures the
result of the one before (whether that still runs is free; ADDR, SPACE and SIDE read as updated last: log 6), and then makes
its access, whose OK and data are the next capture's; a take port's word is free (log 17). DBG_RESUME lets a thread parked by BREAK
go on with its item, but for one of flow 0x000, which is gone (log 24); DBG_RESET holds a cold start while it is asserted.
Test-Logic-Reset loads BYPASS and ends DBG_RESET. -/
def Obligations.JtagInstructions : Prop :=
  ∀ (s : State) (c l : List Bool) (sp : DbgSpace) (b : Bool) (a w : Word) (t : Tid),
    let held := fun (x : Jtag) => { s with jtag := { s.jtag with ir := x.code, irOut := 1#6, dbgReset := false } }
    let scanned := fun (x : Jtag) => (held x).scanDbg sp b a
    (∀ i : Jtag, jtagOf i.code = i) ∧ (∀ x : BitVec 6, (∀ i : Jtag, i.code ≠ x) → jtagOf x = .bypass)
    ∧ (s.sys.fieldEn = false ∨ s.sys.inReset = true → exec .extest s = .next (held .extest))
    ∧ (s.sys.fieldEn = true → s.sys.inReset = false → exec .extest s = .next ((held .extest).fieldLost 3 "JTAG"))
    ∧ (∃ u, exec (.samplePreload c l) s = .next u ∧ u.jtag.ir = Jtag.sample.code ∧ u.jtag.irOut = 1#6 ∧ u.jtag.dbgReset = false
      ∧ u.jtag.captured.length = 282 ∧ u.jtag.cells.length = 282
      ∧ (∀ i, i < 282 → u.jtag.cells.getD i false = l.getD i false
        ∧ u.jtag.captured.getD i false = (held .sample).cellNow (scanCells.getD i (.tck, .input)) (c.getD i false))
      ∧ u.sys = s.sys ∧ u.mems = s.mems)
    ∧ (s.jtag.breakTid < 128 → ∃ u, exec .dbgStatus s = .next u ∧ u.jtag.ir = Jtag.dbgStatus.code
      ∧ u.jtag.status.toNat / 65536 = 0x4896 ∧ u.jtag.status.toNat / 4096 % 16 = s.sys.coldCause % 16 ∧ u.sys = s.sys)
    ∧ (∀ x : Jtag, ∃ busy, (scanned x).jtag.drOut = s.jtag.word busy ∧ (s.jtag.running = false → busy = false)
      ∧ (scanned x).jtag.addr = a ∧ (scanned x).jtag.side = b ∧ (scanned x).jtag.running = true)
    ∧ (((scanned .dbgRead).dbgPeek sp b a.toNat).1 = none → ∃ u, exec (.dbgRead sp b a) s = .next u ∧ u.jtag.ok = false
      ∧ u.jtag.data = 0#32)
    ∧ (∀ v, ((scanned .dbgRead).dbgPeek sp b a.toNat).1 = some v → ∃ u, exec (.dbgRead sp b a) s = .next u ∧ u.jtag.ok = true
      ∧ u.jtag.data = v)
    ∧ ((scanned .dbgWrite).dbgPoke sp b a.toNat w = none → ∃ u, exec (.dbgWrite sp b a w) s = .next u ∧ u.jtag.ok = false
      ∧ u.jtag.data = 0#32 ∧ u.jtag.ir = Jtag.dbgWrite.code ∧ u.mems = s.mems)
    ∧ (∀ v, (scanned .dbgWrite).dbgPoke sp b a.toNat w = some v → ∃ u, exec (.dbgWrite sp b a w) s = .next u ∧ u.jtag.ok = true
      ∧ u.mems = v.mems)
    ∧ ((s.th t.val).st = .faulted → (s.th t.val).trap = 15 → ∃ u : State, exec (.dbgResume t) s = .next u.settle
      ∧ (u.th t.val).st = .ready ∧ (u.th t.val).trap = 0 ∧ (u.th t.val).pc = (s.th t.val).pc ∧ (u.th t.val).regs = (s.th t.val).regs
      ∧ (u.th t.val).item = (s.sow.fenced.find? fun p => p.2.2 = t.val).map (fun p => p.2.1) ∧ ∀ p ∈ u.sow.fenced, p.2.2 ≠ t.val)
    ∧ (s.jtag.dbgReset = false → ∃ u, exec (.dbgReset true) s = .next u ∧ u.sys.inReset = true ∧ u.jtag.dbgReset = true
      ∧ u.up = [] ∧ (s.sys.inReset = false → u.sys.coldCause = 5))
    ∧ (∃ u, exec (.dbgReset false) s = .next u ∧ u.jtag.dbgReset = false ∧ u.sys = s.sys ∧ u.mems = s.mems)
    ∧ exec .jtagBypass s = .next (held .bypass)
    ∧ exec .testLogicReset s = .next { s with jtag := { s.jtag with ir := 0x3F#6, dbgReset := false } }
end

