-- ==== Sys2Proof/Laws/State.lean ====
section
/-! SUPPORT. One lemma per field of State per update of a component: what each update changes and what it leaves. -/

namespace Sys2Proof.Machine

variable (s : State)

@[simp] theorem State.modSow_pending (f : Sower → Sower) : (s.modSow f).pending = s.pending := rfl
@[simp] theorem State.modSow_sys (f : Sower → Sower) : (s.modSow f).sys = s.sys := rfl
@[simp] theorem State.modSow_up (f : Sower → Sower) : (s.modSow f).up = s.up := rfl
@[simp] theorem State.modSow_down (f : Sower → Sower) : (s.modSow f).down = s.down := rfl
@[simp] theorem State.modSow_jtag (f : Sower → Sower) : (s.modSow f).jtag = s.jtag := rfl
@[simp] theorem State.modSow_con (f : Sower → Sower) : (s.modSow f).con = s.con := rfl
@[simp] theorem State.modSow_ses (f : Sower → Sower) : (s.modSow f).ses = s.ses := rfl
@[simp] theorem State.modSow_jrn (f : Sower → Sower) : (s.modSow f).jrn = s.jrn := rfl
@[simp] theorem State.modSow_hnd (f : Sower → Sower) : (s.modSow f).hnd = s.hnd := rfl
@[simp] theorem State.modSow_fur (f : Sower → Sower) : (s.modSow f).fur = s.fur := rfl
@[simp] theorem State.modSow_sdb (f : Sower → Sower) : (s.modSow f).sdb = s.sdb := rfl
@[simp] theorem State.modSow_cal (f : Sower → Sower) : (s.modSow f).cal = s.cal := rfl
@[simp] theorem State.modSow_led (f : Sower → Sower) : (s.modSow f).led = s.led := rfl
@[simp] theorem State.modSow_ring (f : Sower → Sower) : (s.modSow f).ring = s.ring := rfl
@[simp] theorem State.modSow_hng (f : Sower → Sower) : (s.modSow f).hng = s.hng := rfl
@[simp] theorem State.modSow_bays (f : Sower → Sower) : (s.modSow f).bays = s.bays := rfl
@[simp] theorem State.modSow_env (f : Sower → Sower) : (s.modSow f).env = s.env := rfl
@[simp] theorem State.modSow_keys (f : Sower → Sower) : (s.modSow f).keys = s.keys := rfl
@[simp] theorem State.modSow_face (f : Sower → Sower) : (s.modSow f).face = s.face := rfl
@[simp] theorem State.modSow_tags (f : Sower → Sower) : (s.modSow f).tags = s.tags := rfl
@[simp] theorem State.modSow_fans (f : Sower → Sower) : (s.modSow f).fans = s.fans := rfl
@[simp] theorem State.modSow_sow (f : Sower → Sower) : (s.modSow f).sow = f s.sow := rfl
@[simp] theorem State.modSow_gran (f : Sower → Sower) : (s.modSow f).gran = s.gran := rfl
@[simp] theorem State.modSow_plots (f : Sower → Sower) : (s.modSow f).plots = s.plots := rfl
@[simp] theorem State.modSow_spi (f : Sower → Sower) : (s.modSow f).spi = s.spi := rfl
@[simp] theorem State.modSow_mems (f : Sower → Sower) : (s.modSow f).mems = s.mems := rfl

@[simp] theorem State.modSys_pending (f : Sys → Sys) : (s.modSys f).pending = s.pending := rfl
@[simp] theorem State.modSys_sys (f : Sys → Sys) : (s.modSys f).sys = f s.sys := rfl
@[simp] theorem State.modSys_up (f : Sys → Sys) : (s.modSys f).up = s.up := rfl
@[simp] theorem State.modSys_down (f : Sys → Sys) : (s.modSys f).down = s.down := rfl
@[simp] theorem State.modSys_jtag (f : Sys → Sys) : (s.modSys f).jtag = s.jtag := rfl
@[simp] theorem State.modSys_con (f : Sys → Sys) : (s.modSys f).con = s.con := rfl
@[simp] theorem State.modSys_ses (f : Sys → Sys) : (s.modSys f).ses = s.ses := rfl
@[simp] theorem State.modSys_jrn (f : Sys → Sys) : (s.modSys f).jrn = s.jrn := rfl
@[simp] theorem State.modSys_hnd (f : Sys → Sys) : (s.modSys f).hnd = s.hnd := rfl
@[simp] theorem State.modSys_fur (f : Sys → Sys) : (s.modSys f).fur = s.fur := rfl
@[simp] theorem State.modSys_sdb (f : Sys → Sys) : (s.modSys f).sdb = s.sdb := rfl
@[simp] theorem State.modSys_cal (f : Sys → Sys) : (s.modSys f).cal = s.cal := rfl
@[simp] theorem State.modSys_led (f : Sys → Sys) : (s.modSys f).led = s.led := rfl
@[simp] theorem State.modSys_ring (f : Sys → Sys) : (s.modSys f).ring = s.ring := rfl
@[simp] theorem State.modSys_hng (f : Sys → Sys) : (s.modSys f).hng = s.hng := rfl
@[simp] theorem State.modSys_bays (f : Sys → Sys) : (s.modSys f).bays = s.bays := rfl
@[simp] theorem State.modSys_env (f : Sys → Sys) : (s.modSys f).env = s.env := rfl
@[simp] theorem State.modSys_keys (f : Sys → Sys) : (s.modSys f).keys = s.keys := rfl
@[simp] theorem State.modSys_face (f : Sys → Sys) : (s.modSys f).face = s.face := rfl
@[simp] theorem State.modSys_tags (f : Sys → Sys) : (s.modSys f).tags = s.tags := rfl
@[simp] theorem State.modSys_fans (f : Sys → Sys) : (s.modSys f).fans = s.fans := rfl
@[simp] theorem State.modSys_sow (f : Sys → Sys) : (s.modSys f).sow = s.sow := rfl
@[simp] theorem State.modSys_gran (f : Sys → Sys) : (s.modSys f).gran = s.gran := rfl
@[simp] theorem State.modSys_plots (f : Sys → Sys) : (s.modSys f).plots = s.plots := rfl
@[simp] theorem State.modSys_spi (f : Sys → Sys) : (s.modSys f).spi = s.spi := rfl
@[simp] theorem State.modSys_mems (f : Sys → Sys) : (s.modSys f).mems = s.mems := rfl

@[simp] theorem State.modCon_pending (f : Console → Console) : (s.modCon f).pending = s.pending := rfl
@[simp] theorem State.modCon_sys (f : Console → Console) : (s.modCon f).sys = s.sys := rfl
@[simp] theorem State.modCon_up (f : Console → Console) : (s.modCon f).up = s.up := rfl
@[simp] theorem State.modCon_down (f : Console → Console) : (s.modCon f).down = s.down := rfl
@[simp] theorem State.modCon_jtag (f : Console → Console) : (s.modCon f).jtag = s.jtag := rfl
@[simp] theorem State.modCon_con (f : Console → Console) : (s.modCon f).con = f s.con := rfl
@[simp] theorem State.modCon_ses (f : Console → Console) : (s.modCon f).ses = s.ses := rfl
@[simp] theorem State.modCon_jrn (f : Console → Console) : (s.modCon f).jrn = s.jrn := rfl
@[simp] theorem State.modCon_hnd (f : Console → Console) : (s.modCon f).hnd = s.hnd := rfl
@[simp] theorem State.modCon_fur (f : Console → Console) : (s.modCon f).fur = s.fur := rfl
@[simp] theorem State.modCon_sdb (f : Console → Console) : (s.modCon f).sdb = s.sdb := rfl
@[simp] theorem State.modCon_cal (f : Console → Console) : (s.modCon f).cal = s.cal := rfl
@[simp] theorem State.modCon_led (f : Console → Console) : (s.modCon f).led = s.led := rfl
@[simp] theorem State.modCon_ring (f : Console → Console) : (s.modCon f).ring = s.ring := rfl
@[simp] theorem State.modCon_hng (f : Console → Console) : (s.modCon f).hng = s.hng := rfl
@[simp] theorem State.modCon_bays (f : Console → Console) : (s.modCon f).bays = s.bays := rfl
@[simp] theorem State.modCon_env (f : Console → Console) : (s.modCon f).env = s.env := rfl
@[simp] theorem State.modCon_keys (f : Console → Console) : (s.modCon f).keys = s.keys := rfl
@[simp] theorem State.modCon_face (f : Console → Console) : (s.modCon f).face = s.face := rfl
@[simp] theorem State.modCon_tags (f : Console → Console) : (s.modCon f).tags = s.tags := rfl
@[simp] theorem State.modCon_fans (f : Console → Console) : (s.modCon f).fans = s.fans := rfl
@[simp] theorem State.modCon_sow (f : Console → Console) : (s.modCon f).sow = s.sow := rfl
@[simp] theorem State.modCon_gran (f : Console → Console) : (s.modCon f).gran = s.gran := rfl
@[simp] theorem State.modCon_plots (f : Console → Console) : (s.modCon f).plots = s.plots := rfl
@[simp] theorem State.modCon_spi (f : Console → Console) : (s.modCon f).spi = s.spi := rfl
@[simp] theorem State.modCon_mems (f : Console → Console) : (s.modCon f).mems = s.mems := rfl

@[simp] theorem State.modRing_pending (f : Ring → Ring) : (s.modRing f).pending = s.pending := rfl
@[simp] theorem State.modRing_sys (f : Ring → Ring) : (s.modRing f).sys = s.sys := rfl
@[simp] theorem State.modRing_up (f : Ring → Ring) : (s.modRing f).up = s.up := rfl
@[simp] theorem State.modRing_down (f : Ring → Ring) : (s.modRing f).down = s.down := rfl
@[simp] theorem State.modRing_jtag (f : Ring → Ring) : (s.modRing f).jtag = s.jtag := rfl
@[simp] theorem State.modRing_con (f : Ring → Ring) : (s.modRing f).con = s.con := rfl
@[simp] theorem State.modRing_ses (f : Ring → Ring) : (s.modRing f).ses = s.ses := rfl
@[simp] theorem State.modRing_jrn (f : Ring → Ring) : (s.modRing f).jrn = s.jrn := rfl
@[simp] theorem State.modRing_hnd (f : Ring → Ring) : (s.modRing f).hnd = s.hnd := rfl
@[simp] theorem State.modRing_fur (f : Ring → Ring) : (s.modRing f).fur = s.fur := rfl
@[simp] theorem State.modRing_sdb (f : Ring → Ring) : (s.modRing f).sdb = s.sdb := rfl
@[simp] theorem State.modRing_cal (f : Ring → Ring) : (s.modRing f).cal = s.cal := rfl
@[simp] theorem State.modRing_led (f : Ring → Ring) : (s.modRing f).led = s.led := rfl
@[simp] theorem State.modRing_ring (f : Ring → Ring) : (s.modRing f).ring = f s.ring := rfl
@[simp] theorem State.modRing_hng (f : Ring → Ring) : (s.modRing f).hng = s.hng := rfl
@[simp] theorem State.modRing_bays (f : Ring → Ring) : (s.modRing f).bays = s.bays := rfl
@[simp] theorem State.modRing_env (f : Ring → Ring) : (s.modRing f).env = s.env := rfl
@[simp] theorem State.modRing_keys (f : Ring → Ring) : (s.modRing f).keys = s.keys := rfl
@[simp] theorem State.modRing_face (f : Ring → Ring) : (s.modRing f).face = s.face := rfl
@[simp] theorem State.modRing_tags (f : Ring → Ring) : (s.modRing f).tags = s.tags := rfl
@[simp] theorem State.modRing_fans (f : Ring → Ring) : (s.modRing f).fans = s.fans := rfl
@[simp] theorem State.modRing_sow (f : Ring → Ring) : (s.modRing f).sow = s.sow := rfl
@[simp] theorem State.modRing_gran (f : Ring → Ring) : (s.modRing f).gran = s.gran := rfl
@[simp] theorem State.modRing_plots (f : Ring → Ring) : (s.modRing f).plots = s.plots := rfl
@[simp] theorem State.modRing_spi (f : Ring → Ring) : (s.modRing f).spi = s.spi := rfl
@[simp] theorem State.modRing_mems (f : Ring → Ring) : (s.modRing f).mems = s.mems := rfl

@[simp] theorem State.modGran_pending (f : Granary → Granary) : (s.modGran f).pending = s.pending := rfl
@[simp] theorem State.modGran_sys (f : Granary → Granary) : (s.modGran f).sys = s.sys := rfl
@[simp] theorem State.modGran_up (f : Granary → Granary) : (s.modGran f).up = s.up := rfl
@[simp] theorem State.modGran_down (f : Granary → Granary) : (s.modGran f).down = s.down := rfl
@[simp] theorem State.modGran_jtag (f : Granary → Granary) : (s.modGran f).jtag = s.jtag := rfl
@[simp] theorem State.modGran_con (f : Granary → Granary) : (s.modGran f).con = s.con := rfl
@[simp] theorem State.modGran_ses (f : Granary → Granary) : (s.modGran f).ses = s.ses := rfl
@[simp] theorem State.modGran_jrn (f : Granary → Granary) : (s.modGran f).jrn = s.jrn := rfl
@[simp] theorem State.modGran_hnd (f : Granary → Granary) : (s.modGran f).hnd = s.hnd := rfl
@[simp] theorem State.modGran_fur (f : Granary → Granary) : (s.modGran f).fur = s.fur := rfl
@[simp] theorem State.modGran_sdb (f : Granary → Granary) : (s.modGran f).sdb = s.sdb := rfl
@[simp] theorem State.modGran_cal (f : Granary → Granary) : (s.modGran f).cal = s.cal := rfl
@[simp] theorem State.modGran_led (f : Granary → Granary) : (s.modGran f).led = s.led := rfl
@[simp] theorem State.modGran_ring (f : Granary → Granary) : (s.modGran f).ring = s.ring := rfl
@[simp] theorem State.modGran_hng (f : Granary → Granary) : (s.modGran f).hng = s.hng := rfl
@[simp] theorem State.modGran_bays (f : Granary → Granary) : (s.modGran f).bays = s.bays := rfl
@[simp] theorem State.modGran_env (f : Granary → Granary) : (s.modGran f).env = s.env := rfl
@[simp] theorem State.modGran_keys (f : Granary → Granary) : (s.modGran f).keys = s.keys := rfl
@[simp] theorem State.modGran_face (f : Granary → Granary) : (s.modGran f).face = s.face := rfl
@[simp] theorem State.modGran_tags (f : Granary → Granary) : (s.modGran f).tags = s.tags := rfl
@[simp] theorem State.modGran_fans (f : Granary → Granary) : (s.modGran f).fans = s.fans := rfl
@[simp] theorem State.modGran_sow (f : Granary → Granary) : (s.modGran f).sow = s.sow := rfl
@[simp] theorem State.modGran_gran (f : Granary → Granary) : (s.modGran f).gran = f s.gran := rfl
@[simp] theorem State.modGran_plots (f : Granary → Granary) : (s.modGran f).plots = s.plots := rfl
@[simp] theorem State.modGran_spi (f : Granary → Granary) : (s.modGran f).spi = s.spi := rfl
@[simp] theorem State.modGran_mems (f : Granary → Granary) : (s.modGran f).mems = s.mems := rfl

@[simp] theorem State.modBays_pending (f : Bays → Bays) : (s.modBays f).pending = s.pending := rfl
@[simp] theorem State.modBays_sys (f : Bays → Bays) : (s.modBays f).sys = s.sys := rfl
@[simp] theorem State.modBays_up (f : Bays → Bays) : (s.modBays f).up = s.up := rfl
@[simp] theorem State.modBays_down (f : Bays → Bays) : (s.modBays f).down = s.down := rfl
@[simp] theorem State.modBays_jtag (f : Bays → Bays) : (s.modBays f).jtag = s.jtag := rfl
@[simp] theorem State.modBays_con (f : Bays → Bays) : (s.modBays f).con = s.con := rfl
@[simp] theorem State.modBays_ses (f : Bays → Bays) : (s.modBays f).ses = s.ses := rfl
@[simp] theorem State.modBays_jrn (f : Bays → Bays) : (s.modBays f).jrn = s.jrn := rfl
@[simp] theorem State.modBays_hnd (f : Bays → Bays) : (s.modBays f).hnd = s.hnd := rfl
@[simp] theorem State.modBays_fur (f : Bays → Bays) : (s.modBays f).fur = s.fur := rfl
@[simp] theorem State.modBays_sdb (f : Bays → Bays) : (s.modBays f).sdb = s.sdb := rfl
@[simp] theorem State.modBays_cal (f : Bays → Bays) : (s.modBays f).cal = s.cal := rfl
@[simp] theorem State.modBays_led (f : Bays → Bays) : (s.modBays f).led = s.led := rfl
@[simp] theorem State.modBays_ring (f : Bays → Bays) : (s.modBays f).ring = s.ring := rfl
@[simp] theorem State.modBays_hng (f : Bays → Bays) : (s.modBays f).hng = s.hng := rfl
@[simp] theorem State.modBays_bays (f : Bays → Bays) : (s.modBays f).bays = f s.bays := rfl
@[simp] theorem State.modBays_env (f : Bays → Bays) : (s.modBays f).env = s.env := rfl
@[simp] theorem State.modBays_keys (f : Bays → Bays) : (s.modBays f).keys = s.keys := rfl
@[simp] theorem State.modBays_face (f : Bays → Bays) : (s.modBays f).face = s.face := rfl
@[simp] theorem State.modBays_tags (f : Bays → Bays) : (s.modBays f).tags = s.tags := rfl
@[simp] theorem State.modBays_fans (f : Bays → Bays) : (s.modBays f).fans = s.fans := rfl
@[simp] theorem State.modBays_sow (f : Bays → Bays) : (s.modBays f).sow = s.sow := rfl
@[simp] theorem State.modBays_gran (f : Bays → Bays) : (s.modBays f).gran = s.gran := rfl
@[simp] theorem State.modBays_plots (f : Bays → Bays) : (s.modBays f).plots = s.plots := rfl
@[simp] theorem State.modBays_spi (f : Bays → Bays) : (s.modBays f).spi = s.spi := rfl
@[simp] theorem State.modBays_mems (f : Bays → Bays) : (s.modBays f).mems = s.mems := rfl

@[simp] theorem State.modEnv_pending (f : Env → Env) : (s.modEnv f).pending = s.pending := rfl
@[simp] theorem State.modEnv_sys (f : Env → Env) : (s.modEnv f).sys = s.sys := rfl
@[simp] theorem State.modEnv_up (f : Env → Env) : (s.modEnv f).up = s.up := rfl
@[simp] theorem State.modEnv_down (f : Env → Env) : (s.modEnv f).down = s.down := rfl
@[simp] theorem State.modEnv_jtag (f : Env → Env) : (s.modEnv f).jtag = s.jtag := rfl
@[simp] theorem State.modEnv_con (f : Env → Env) : (s.modEnv f).con = s.con := rfl
@[simp] theorem State.modEnv_ses (f : Env → Env) : (s.modEnv f).ses = s.ses := rfl
@[simp] theorem State.modEnv_jrn (f : Env → Env) : (s.modEnv f).jrn = s.jrn := rfl
@[simp] theorem State.modEnv_hnd (f : Env → Env) : (s.modEnv f).hnd = s.hnd := rfl
@[simp] theorem State.modEnv_fur (f : Env → Env) : (s.modEnv f).fur = s.fur := rfl
@[simp] theorem State.modEnv_sdb (f : Env → Env) : (s.modEnv f).sdb = s.sdb := rfl
@[simp] theorem State.modEnv_cal (f : Env → Env) : (s.modEnv f).cal = s.cal := rfl
@[simp] theorem State.modEnv_led (f : Env → Env) : (s.modEnv f).led = s.led := rfl
@[simp] theorem State.modEnv_ring (f : Env → Env) : (s.modEnv f).ring = s.ring := rfl
@[simp] theorem State.modEnv_hng (f : Env → Env) : (s.modEnv f).hng = s.hng := rfl
@[simp] theorem State.modEnv_bays (f : Env → Env) : (s.modEnv f).bays = s.bays := rfl
@[simp] theorem State.modEnv_env (f : Env → Env) : (s.modEnv f).env = f s.env := rfl
@[simp] theorem State.modEnv_keys (f : Env → Env) : (s.modEnv f).keys = s.keys := rfl
@[simp] theorem State.modEnv_face (f : Env → Env) : (s.modEnv f).face = s.face := rfl
@[simp] theorem State.modEnv_tags (f : Env → Env) : (s.modEnv f).tags = s.tags := rfl
@[simp] theorem State.modEnv_fans (f : Env → Env) : (s.modEnv f).fans = s.fans := rfl
@[simp] theorem State.modEnv_sow (f : Env → Env) : (s.modEnv f).sow = s.sow := rfl
@[simp] theorem State.modEnv_gran (f : Env → Env) : (s.modEnv f).gran = s.gran := rfl
@[simp] theorem State.modEnv_plots (f : Env → Env) : (s.modEnv f).plots = s.plots := rfl
@[simp] theorem State.modEnv_spi (f : Env → Env) : (s.modEnv f).spi = s.spi := rfl
@[simp] theorem State.modEnv_mems (f : Env → Env) : (s.modEnv f).mems = s.mems := rfl

@[simp] theorem State.modTags_pending (f : Tags → Tags) : (s.modTags f).pending = s.pending := rfl
@[simp] theorem State.modTags_sys (f : Tags → Tags) : (s.modTags f).sys = s.sys := rfl
@[simp] theorem State.modTags_up (f : Tags → Tags) : (s.modTags f).up = s.up := rfl
@[simp] theorem State.modTags_down (f : Tags → Tags) : (s.modTags f).down = s.down := rfl
@[simp] theorem State.modTags_jtag (f : Tags → Tags) : (s.modTags f).jtag = s.jtag := rfl
@[simp] theorem State.modTags_con (f : Tags → Tags) : (s.modTags f).con = s.con := rfl
@[simp] theorem State.modTags_ses (f : Tags → Tags) : (s.modTags f).ses = s.ses := rfl
@[simp] theorem State.modTags_jrn (f : Tags → Tags) : (s.modTags f).jrn = s.jrn := rfl
@[simp] theorem State.modTags_hnd (f : Tags → Tags) : (s.modTags f).hnd = s.hnd := rfl
@[simp] theorem State.modTags_fur (f : Tags → Tags) : (s.modTags f).fur = s.fur := rfl
@[simp] theorem State.modTags_sdb (f : Tags → Tags) : (s.modTags f).sdb = s.sdb := rfl
@[simp] theorem State.modTags_cal (f : Tags → Tags) : (s.modTags f).cal = s.cal := rfl
@[simp] theorem State.modTags_led (f : Tags → Tags) : (s.modTags f).led = s.led := rfl
@[simp] theorem State.modTags_ring (f : Tags → Tags) : (s.modTags f).ring = s.ring := rfl
@[simp] theorem State.modTags_hng (f : Tags → Tags) : (s.modTags f).hng = s.hng := rfl
@[simp] theorem State.modTags_bays (f : Tags → Tags) : (s.modTags f).bays = s.bays := rfl
@[simp] theorem State.modTags_env (f : Tags → Tags) : (s.modTags f).env = s.env := rfl
@[simp] theorem State.modTags_keys (f : Tags → Tags) : (s.modTags f).keys = s.keys := rfl
@[simp] theorem State.modTags_face (f : Tags → Tags) : (s.modTags f).face = s.face := rfl
@[simp] theorem State.modTags_tags (f : Tags → Tags) : (s.modTags f).tags = f s.tags := rfl
@[simp] theorem State.modTags_fans (f : Tags → Tags) : (s.modTags f).fans = s.fans := rfl
@[simp] theorem State.modTags_sow (f : Tags → Tags) : (s.modTags f).sow = s.sow := rfl
@[simp] theorem State.modTags_gran (f : Tags → Tags) : (s.modTags f).gran = s.gran := rfl
@[simp] theorem State.modTags_plots (f : Tags → Tags) : (s.modTags f).plots = s.plots := rfl
@[simp] theorem State.modTags_spi (f : Tags → Tags) : (s.modTags f).spi = s.spi := rfl
@[simp] theorem State.modTags_mems (f : Tags → Tags) : (s.modTags f).mems = s.mems := rfl

@[simp] theorem State.modFace_pending (f : Face → Face) : (s.modFace f).pending = s.pending := rfl
@[simp] theorem State.modFace_sys (f : Face → Face) : (s.modFace f).sys = s.sys := rfl
@[simp] theorem State.modFace_up (f : Face → Face) : (s.modFace f).up = s.up := rfl
@[simp] theorem State.modFace_down (f : Face → Face) : (s.modFace f).down = s.down := rfl
@[simp] theorem State.modFace_jtag (f : Face → Face) : (s.modFace f).jtag = s.jtag := rfl
@[simp] theorem State.modFace_con (f : Face → Face) : (s.modFace f).con = s.con := rfl
@[simp] theorem State.modFace_ses (f : Face → Face) : (s.modFace f).ses = s.ses := rfl
@[simp] theorem State.modFace_jrn (f : Face → Face) : (s.modFace f).jrn = s.jrn := rfl
@[simp] theorem State.modFace_hnd (f : Face → Face) : (s.modFace f).hnd = s.hnd := rfl
@[simp] theorem State.modFace_fur (f : Face → Face) : (s.modFace f).fur = s.fur := rfl
@[simp] theorem State.modFace_sdb (f : Face → Face) : (s.modFace f).sdb = s.sdb := rfl
@[simp] theorem State.modFace_cal (f : Face → Face) : (s.modFace f).cal = s.cal := rfl
@[simp] theorem State.modFace_led (f : Face → Face) : (s.modFace f).led = s.led := rfl
@[simp] theorem State.modFace_ring (f : Face → Face) : (s.modFace f).ring = s.ring := rfl
@[simp] theorem State.modFace_hng (f : Face → Face) : (s.modFace f).hng = s.hng := rfl
@[simp] theorem State.modFace_bays (f : Face → Face) : (s.modFace f).bays = s.bays := rfl
@[simp] theorem State.modFace_env (f : Face → Face) : (s.modFace f).env = s.env := rfl
@[simp] theorem State.modFace_keys (f : Face → Face) : (s.modFace f).keys = s.keys := rfl
@[simp] theorem State.modFace_face (f : Face → Face) : (s.modFace f).face = f s.face := rfl
@[simp] theorem State.modFace_tags (f : Face → Face) : (s.modFace f).tags = s.tags := rfl
@[simp] theorem State.modFace_fans (f : Face → Face) : (s.modFace f).fans = s.fans := rfl
@[simp] theorem State.modFace_sow (f : Face → Face) : (s.modFace f).sow = s.sow := rfl
@[simp] theorem State.modFace_gran (f : Face → Face) : (s.modFace f).gran = s.gran := rfl
@[simp] theorem State.modFace_plots (f : Face → Face) : (s.modFace f).plots = s.plots := rfl
@[simp] theorem State.modFace_spi (f : Face → Face) : (s.modFace f).spi = s.spi := rfl
@[simp] theorem State.modFace_mems (f : Face → Face) : (s.modFace f).mems = s.mems := rfl

@[simp] theorem State.modFur_pending (f : Furrow → Furrow) : (s.modFur f).pending = s.pending := rfl
@[simp] theorem State.modFur_sys (f : Furrow → Furrow) : (s.modFur f).sys = s.sys := rfl
@[simp] theorem State.modFur_up (f : Furrow → Furrow) : (s.modFur f).up = s.up := rfl
@[simp] theorem State.modFur_down (f : Furrow → Furrow) : (s.modFur f).down = s.down := rfl
@[simp] theorem State.modFur_jtag (f : Furrow → Furrow) : (s.modFur f).jtag = s.jtag := rfl
@[simp] theorem State.modFur_con (f : Furrow → Furrow) : (s.modFur f).con = s.con := rfl
@[simp] theorem State.modFur_ses (f : Furrow → Furrow) : (s.modFur f).ses = s.ses := rfl
@[simp] theorem State.modFur_jrn (f : Furrow → Furrow) : (s.modFur f).jrn = s.jrn := rfl
@[simp] theorem State.modFur_hnd (f : Furrow → Furrow) : (s.modFur f).hnd = s.hnd := rfl
@[simp] theorem State.modFur_fur (f : Furrow → Furrow) : (s.modFur f).fur = f s.fur := rfl
@[simp] theorem State.modFur_sdb (f : Furrow → Furrow) : (s.modFur f).sdb = s.sdb := rfl
@[simp] theorem State.modFur_cal (f : Furrow → Furrow) : (s.modFur f).cal = s.cal := rfl
@[simp] theorem State.modFur_led (f : Furrow → Furrow) : (s.modFur f).led = s.led := rfl
@[simp] theorem State.modFur_ring (f : Furrow → Furrow) : (s.modFur f).ring = s.ring := rfl
@[simp] theorem State.modFur_hng (f : Furrow → Furrow) : (s.modFur f).hng = s.hng := rfl
@[simp] theorem State.modFur_bays (f : Furrow → Furrow) : (s.modFur f).bays = s.bays := rfl
@[simp] theorem State.modFur_env (f : Furrow → Furrow) : (s.modFur f).env = s.env := rfl
@[simp] theorem State.modFur_keys (f : Furrow → Furrow) : (s.modFur f).keys = s.keys := rfl
@[simp] theorem State.modFur_face (f : Furrow → Furrow) : (s.modFur f).face = s.face := rfl
@[simp] theorem State.modFur_tags (f : Furrow → Furrow) : (s.modFur f).tags = s.tags := rfl
@[simp] theorem State.modFur_fans (f : Furrow → Furrow) : (s.modFur f).fans = s.fans := rfl
@[simp] theorem State.modFur_sow (f : Furrow → Furrow) : (s.modFur f).sow = s.sow := rfl
@[simp] theorem State.modFur_gran (f : Furrow → Furrow) : (s.modFur f).gran = s.gran := rfl
@[simp] theorem State.modFur_plots (f : Furrow → Furrow) : (s.modFur f).plots = s.plots := rfl
@[simp] theorem State.modFur_spi (f : Furrow → Furrow) : (s.modFur f).spi = s.spi := rfl
@[simp] theorem State.modFur_mems (f : Furrow → Furrow) : (s.modFur f).mems = s.mems := rfl

@[simp] theorem State.modHnd_pending (f : Handles → Handles) : (s.modHnd f).pending = s.pending := rfl
@[simp] theorem State.modHnd_sys (f : Handles → Handles) : (s.modHnd f).sys = s.sys := rfl
@[simp] theorem State.modHnd_up (f : Handles → Handles) : (s.modHnd f).up = s.up := rfl
@[simp] theorem State.modHnd_down (f : Handles → Handles) : (s.modHnd f).down = s.down := rfl
@[simp] theorem State.modHnd_jtag (f : Handles → Handles) : (s.modHnd f).jtag = s.jtag := rfl
@[simp] theorem State.modHnd_con (f : Handles → Handles) : (s.modHnd f).con = s.con := rfl
@[simp] theorem State.modHnd_ses (f : Handles → Handles) : (s.modHnd f).ses = s.ses := rfl
@[simp] theorem State.modHnd_jrn (f : Handles → Handles) : (s.modHnd f).jrn = s.jrn := rfl
@[simp] theorem State.modHnd_hnd (f : Handles → Handles) : (s.modHnd f).hnd = f s.hnd := rfl
@[simp] theorem State.modHnd_fur (f : Handles → Handles) : (s.modHnd f).fur = s.fur := rfl
@[simp] theorem State.modHnd_sdb (f : Handles → Handles) : (s.modHnd f).sdb = s.sdb := rfl
@[simp] theorem State.modHnd_cal (f : Handles → Handles) : (s.modHnd f).cal = s.cal := rfl
@[simp] theorem State.modHnd_led (f : Handles → Handles) : (s.modHnd f).led = s.led := rfl
@[simp] theorem State.modHnd_ring (f : Handles → Handles) : (s.modHnd f).ring = s.ring := rfl
@[simp] theorem State.modHnd_hng (f : Handles → Handles) : (s.modHnd f).hng = s.hng := rfl
@[simp] theorem State.modHnd_bays (f : Handles → Handles) : (s.modHnd f).bays = s.bays := rfl
@[simp] theorem State.modHnd_env (f : Handles → Handles) : (s.modHnd f).env = s.env := rfl
@[simp] theorem State.modHnd_keys (f : Handles → Handles) : (s.modHnd f).keys = s.keys := rfl
@[simp] theorem State.modHnd_face (f : Handles → Handles) : (s.modHnd f).face = s.face := rfl
@[simp] theorem State.modHnd_tags (f : Handles → Handles) : (s.modHnd f).tags = s.tags := rfl
@[simp] theorem State.modHnd_fans (f : Handles → Handles) : (s.modHnd f).fans = s.fans := rfl
@[simp] theorem State.modHnd_sow (f : Handles → Handles) : (s.modHnd f).sow = s.sow := rfl
@[simp] theorem State.modHnd_gran (f : Handles → Handles) : (s.modHnd f).gran = s.gran := rfl
@[simp] theorem State.modHnd_plots (f : Handles → Handles) : (s.modHnd f).plots = s.plots := rfl
@[simp] theorem State.modHnd_spi (f : Handles → Handles) : (s.modHnd f).spi = s.spi := rfl
@[simp] theorem State.modHnd_mems (f : Handles → Handles) : (s.modHnd f).mems = s.mems := rfl

@[simp] theorem State.modHng_pending (f : Hinge → Hinge) : (s.modHng f).pending = s.pending := rfl
@[simp] theorem State.modHng_sys (f : Hinge → Hinge) : (s.modHng f).sys = s.sys := rfl
@[simp] theorem State.modHng_up (f : Hinge → Hinge) : (s.modHng f).up = s.up := rfl
@[simp] theorem State.modHng_down (f : Hinge → Hinge) : (s.modHng f).down = s.down := rfl
@[simp] theorem State.modHng_jtag (f : Hinge → Hinge) : (s.modHng f).jtag = s.jtag := rfl
@[simp] theorem State.modHng_con (f : Hinge → Hinge) : (s.modHng f).con = s.con := rfl
@[simp] theorem State.modHng_ses (f : Hinge → Hinge) : (s.modHng f).ses = s.ses := rfl
@[simp] theorem State.modHng_jrn (f : Hinge → Hinge) : (s.modHng f).jrn = s.jrn := rfl
@[simp] theorem State.modHng_hnd (f : Hinge → Hinge) : (s.modHng f).hnd = s.hnd := rfl
@[simp] theorem State.modHng_fur (f : Hinge → Hinge) : (s.modHng f).fur = s.fur := rfl
@[simp] theorem State.modHng_sdb (f : Hinge → Hinge) : (s.modHng f).sdb = s.sdb := rfl
@[simp] theorem State.modHng_cal (f : Hinge → Hinge) : (s.modHng f).cal = s.cal := rfl
@[simp] theorem State.modHng_led (f : Hinge → Hinge) : (s.modHng f).led = s.led := rfl
@[simp] theorem State.modHng_ring (f : Hinge → Hinge) : (s.modHng f).ring = s.ring := rfl
@[simp] theorem State.modHng_hng (f : Hinge → Hinge) : (s.modHng f).hng = f s.hng := rfl
@[simp] theorem State.modHng_bays (f : Hinge → Hinge) : (s.modHng f).bays = s.bays := rfl
@[simp] theorem State.modHng_env (f : Hinge → Hinge) : (s.modHng f).env = s.env := rfl
@[simp] theorem State.modHng_keys (f : Hinge → Hinge) : (s.modHng f).keys = s.keys := rfl
@[simp] theorem State.modHng_face (f : Hinge → Hinge) : (s.modHng f).face = s.face := rfl
@[simp] theorem State.modHng_tags (f : Hinge → Hinge) : (s.modHng f).tags = s.tags := rfl
@[simp] theorem State.modHng_fans (f : Hinge → Hinge) : (s.modHng f).fans = s.fans := rfl
@[simp] theorem State.modHng_sow (f : Hinge → Hinge) : (s.modHng f).sow = s.sow := rfl
@[simp] theorem State.modHng_gran (f : Hinge → Hinge) : (s.modHng f).gran = s.gran := rfl
@[simp] theorem State.modHng_plots (f : Hinge → Hinge) : (s.modHng f).plots = s.plots := rfl
@[simp] theorem State.modHng_spi (f : Hinge → Hinge) : (s.modHng f).spi = s.spi := rfl
@[simp] theorem State.modHng_mems (f : Hinge → Hinge) : (s.modHng f).mems = s.mems := rfl

@[simp] theorem State.modJrn_pending (f : Journal → Journal) : (s.modJrn f).pending = s.pending := rfl
@[simp] theorem State.modJrn_sys (f : Journal → Journal) : (s.modJrn f).sys = s.sys := rfl
@[simp] theorem State.modJrn_up (f : Journal → Journal) : (s.modJrn f).up = s.up := rfl
@[simp] theorem State.modJrn_down (f : Journal → Journal) : (s.modJrn f).down = s.down := rfl
@[simp] theorem State.modJrn_jtag (f : Journal → Journal) : (s.modJrn f).jtag = s.jtag := rfl
@[simp] theorem State.modJrn_con (f : Journal → Journal) : (s.modJrn f).con = s.con := rfl
@[simp] theorem State.modJrn_ses (f : Journal → Journal) : (s.modJrn f).ses = s.ses := rfl
@[simp] theorem State.modJrn_jrn (f : Journal → Journal) : (s.modJrn f).jrn = f s.jrn := rfl
@[simp] theorem State.modJrn_hnd (f : Journal → Journal) : (s.modJrn f).hnd = s.hnd := rfl
@[simp] theorem State.modJrn_fur (f : Journal → Journal) : (s.modJrn f).fur = s.fur := rfl
@[simp] theorem State.modJrn_sdb (f : Journal → Journal) : (s.modJrn f).sdb = s.sdb := rfl
@[simp] theorem State.modJrn_cal (f : Journal → Journal) : (s.modJrn f).cal = s.cal := rfl
@[simp] theorem State.modJrn_led (f : Journal → Journal) : (s.modJrn f).led = s.led := rfl
@[simp] theorem State.modJrn_ring (f : Journal → Journal) : (s.modJrn f).ring = s.ring := rfl
@[simp] theorem State.modJrn_hng (f : Journal → Journal) : (s.modJrn f).hng = s.hng := rfl
@[simp] theorem State.modJrn_bays (f : Journal → Journal) : (s.modJrn f).bays = s.bays := rfl
@[simp] theorem State.modJrn_env (f : Journal → Journal) : (s.modJrn f).env = s.env := rfl
@[simp] theorem State.modJrn_keys (f : Journal → Journal) : (s.modJrn f).keys = s.keys := rfl
@[simp] theorem State.modJrn_face (f : Journal → Journal) : (s.modJrn f).face = s.face := rfl
@[simp] theorem State.modJrn_tags (f : Journal → Journal) : (s.modJrn f).tags = s.tags := rfl
@[simp] theorem State.modJrn_fans (f : Journal → Journal) : (s.modJrn f).fans = s.fans := rfl
@[simp] theorem State.modJrn_sow (f : Journal → Journal) : (s.modJrn f).sow = s.sow := rfl
@[simp] theorem State.modJrn_gran (f : Journal → Journal) : (s.modJrn f).gran = s.gran := rfl
@[simp] theorem State.modJrn_plots (f : Journal → Journal) : (s.modJrn f).plots = s.plots := rfl
@[simp] theorem State.modJrn_spi (f : Journal → Journal) : (s.modJrn f).spi = s.spi := rfl
@[simp] theorem State.modJrn_mems (f : Journal → Journal) : (s.modJrn f).mems = s.mems := rfl

@[simp] theorem State.modJtag_pending (f : JtagPort → JtagPort) : (s.modJtag f).pending = s.pending := rfl
@[simp] theorem State.modJtag_sys (f : JtagPort → JtagPort) : (s.modJtag f).sys = s.sys := rfl
@[simp] theorem State.modJtag_up (f : JtagPort → JtagPort) : (s.modJtag f).up = s.up := rfl
@[simp] theorem State.modJtag_down (f : JtagPort → JtagPort) : (s.modJtag f).down = s.down := rfl
@[simp] theorem State.modJtag_jtag (f : JtagPort → JtagPort) : (s.modJtag f).jtag = f s.jtag := rfl
@[simp] theorem State.modJtag_con (f : JtagPort → JtagPort) : (s.modJtag f).con = s.con := rfl
@[simp] theorem State.modJtag_ses (f : JtagPort → JtagPort) : (s.modJtag f).ses = s.ses := rfl
@[simp] theorem State.modJtag_jrn (f : JtagPort → JtagPort) : (s.modJtag f).jrn = s.jrn := rfl
@[simp] theorem State.modJtag_hnd (f : JtagPort → JtagPort) : (s.modJtag f).hnd = s.hnd := rfl
@[simp] theorem State.modJtag_fur (f : JtagPort → JtagPort) : (s.modJtag f).fur = s.fur := rfl
@[simp] theorem State.modJtag_sdb (f : JtagPort → JtagPort) : (s.modJtag f).sdb = s.sdb := rfl
@[simp] theorem State.modJtag_cal (f : JtagPort → JtagPort) : (s.modJtag f).cal = s.cal := rfl
@[simp] theorem State.modJtag_led (f : JtagPort → JtagPort) : (s.modJtag f).led = s.led := rfl
@[simp] theorem State.modJtag_ring (f : JtagPort → JtagPort) : (s.modJtag f).ring = s.ring := rfl
@[simp] theorem State.modJtag_hng (f : JtagPort → JtagPort) : (s.modJtag f).hng = s.hng := rfl
@[simp] theorem State.modJtag_bays (f : JtagPort → JtagPort) : (s.modJtag f).bays = s.bays := rfl
@[simp] theorem State.modJtag_env (f : JtagPort → JtagPort) : (s.modJtag f).env = s.env := rfl
@[simp] theorem State.modJtag_keys (f : JtagPort → JtagPort) : (s.modJtag f).keys = s.keys := rfl
@[simp] theorem State.modJtag_face (f : JtagPort → JtagPort) : (s.modJtag f).face = s.face := rfl
@[simp] theorem State.modJtag_tags (f : JtagPort → JtagPort) : (s.modJtag f).tags = s.tags := rfl
@[simp] theorem State.modJtag_fans (f : JtagPort → JtagPort) : (s.modJtag f).fans = s.fans := rfl
@[simp] theorem State.modJtag_sow (f : JtagPort → JtagPort) : (s.modJtag f).sow = s.sow := rfl
@[simp] theorem State.modJtag_gran (f : JtagPort → JtagPort) : (s.modJtag f).gran = s.gran := rfl
@[simp] theorem State.modJtag_plots (f : JtagPort → JtagPort) : (s.modJtag f).plots = s.plots := rfl
@[simp] theorem State.modJtag_spi (f : JtagPort → JtagPort) : (s.modJtag f).spi = s.spi := rfl
@[simp] theorem State.modJtag_mems (f : JtagPort → JtagPort) : (s.modJtag f).mems = s.mems := rfl

@[simp] theorem State.modKeys_pending (f : Keys → Keys) : (s.modKeys f).pending = s.pending := rfl
@[simp] theorem State.modKeys_sys (f : Keys → Keys) : (s.modKeys f).sys = s.sys := rfl
@[simp] theorem State.modKeys_up (f : Keys → Keys) : (s.modKeys f).up = s.up := rfl
@[simp] theorem State.modKeys_down (f : Keys → Keys) : (s.modKeys f).down = s.down := rfl
@[simp] theorem State.modKeys_jtag (f : Keys → Keys) : (s.modKeys f).jtag = s.jtag := rfl
@[simp] theorem State.modKeys_con (f : Keys → Keys) : (s.modKeys f).con = s.con := rfl
@[simp] theorem State.modKeys_ses (f : Keys → Keys) : (s.modKeys f).ses = s.ses := rfl
@[simp] theorem State.modKeys_jrn (f : Keys → Keys) : (s.modKeys f).jrn = s.jrn := rfl
@[simp] theorem State.modKeys_hnd (f : Keys → Keys) : (s.modKeys f).hnd = s.hnd := rfl
@[simp] theorem State.modKeys_fur (f : Keys → Keys) : (s.modKeys f).fur = s.fur := rfl
@[simp] theorem State.modKeys_sdb (f : Keys → Keys) : (s.modKeys f).sdb = s.sdb := rfl
@[simp] theorem State.modKeys_cal (f : Keys → Keys) : (s.modKeys f).cal = s.cal := rfl
@[simp] theorem State.modKeys_led (f : Keys → Keys) : (s.modKeys f).led = s.led := rfl
@[simp] theorem State.modKeys_ring (f : Keys → Keys) : (s.modKeys f).ring = s.ring := rfl
@[simp] theorem State.modKeys_hng (f : Keys → Keys) : (s.modKeys f).hng = s.hng := rfl
@[simp] theorem State.modKeys_bays (f : Keys → Keys) : (s.modKeys f).bays = s.bays := rfl
@[simp] theorem State.modKeys_env (f : Keys → Keys) : (s.modKeys f).env = s.env := rfl
@[simp] theorem State.modKeys_keys (f : Keys → Keys) : (s.modKeys f).keys = f s.keys := rfl
@[simp] theorem State.modKeys_face (f : Keys → Keys) : (s.modKeys f).face = s.face := rfl
@[simp] theorem State.modKeys_tags (f : Keys → Keys) : (s.modKeys f).tags = s.tags := rfl
@[simp] theorem State.modKeys_fans (f : Keys → Keys) : (s.modKeys f).fans = s.fans := rfl
@[simp] theorem State.modKeys_sow (f : Keys → Keys) : (s.modKeys f).sow = s.sow := rfl
@[simp] theorem State.modKeys_gran (f : Keys → Keys) : (s.modKeys f).gran = s.gran := rfl
@[simp] theorem State.modKeys_plots (f : Keys → Keys) : (s.modKeys f).plots = s.plots := rfl
@[simp] theorem State.modKeys_spi (f : Keys → Keys) : (s.modKeys f).spi = s.spi := rfl
@[simp] theorem State.modKeys_mems (f : Keys → Keys) : (s.modKeys f).mems = s.mems := rfl

@[simp] theorem State.modLed_pending (f : Ledger → Ledger) : (s.modLed f).pending = s.pending := rfl
@[simp] theorem State.modLed_sys (f : Ledger → Ledger) : (s.modLed f).sys = s.sys := rfl
@[simp] theorem State.modLed_up (f : Ledger → Ledger) : (s.modLed f).up = s.up := rfl
@[simp] theorem State.modLed_down (f : Ledger → Ledger) : (s.modLed f).down = s.down := rfl
@[simp] theorem State.modLed_jtag (f : Ledger → Ledger) : (s.modLed f).jtag = s.jtag := rfl
@[simp] theorem State.modLed_con (f : Ledger → Ledger) : (s.modLed f).con = s.con := rfl
@[simp] theorem State.modLed_ses (f : Ledger → Ledger) : (s.modLed f).ses = s.ses := rfl
@[simp] theorem State.modLed_jrn (f : Ledger → Ledger) : (s.modLed f).jrn = s.jrn := rfl
@[simp] theorem State.modLed_hnd (f : Ledger → Ledger) : (s.modLed f).hnd = s.hnd := rfl
@[simp] theorem State.modLed_fur (f : Ledger → Ledger) : (s.modLed f).fur = s.fur := rfl
@[simp] theorem State.modLed_sdb (f : Ledger → Ledger) : (s.modLed f).sdb = s.sdb := rfl
@[simp] theorem State.modLed_cal (f : Ledger → Ledger) : (s.modLed f).cal = s.cal := rfl
@[simp] theorem State.modLed_led (f : Ledger → Ledger) : (s.modLed f).led = f s.led := rfl
@[simp] theorem State.modLed_ring (f : Ledger → Ledger) : (s.modLed f).ring = s.ring := rfl
@[simp] theorem State.modLed_hng (f : Ledger → Ledger) : (s.modLed f).hng = s.hng := rfl
@[simp] theorem State.modLed_bays (f : Ledger → Ledger) : (s.modLed f).bays = s.bays := rfl
@[simp] theorem State.modLed_env (f : Ledger → Ledger) : (s.modLed f).env = s.env := rfl
@[simp] theorem State.modLed_keys (f : Ledger → Ledger) : (s.modLed f).keys = s.keys := rfl
@[simp] theorem State.modLed_face (f : Ledger → Ledger) : (s.modLed f).face = s.face := rfl
@[simp] theorem State.modLed_tags (f : Ledger → Ledger) : (s.modLed f).tags = s.tags := rfl
@[simp] theorem State.modLed_fans (f : Ledger → Ledger) : (s.modLed f).fans = s.fans := rfl
@[simp] theorem State.modLed_sow (f : Ledger → Ledger) : (s.modLed f).sow = s.sow := rfl
@[simp] theorem State.modLed_gran (f : Ledger → Ledger) : (s.modLed f).gran = s.gran := rfl
@[simp] theorem State.modLed_plots (f : Ledger → Ledger) : (s.modLed f).plots = s.plots := rfl
@[simp] theorem State.modLed_spi (f : Ledger → Ledger) : (s.modLed f).spi = s.spi := rfl
@[simp] theorem State.modLed_mems (f : Ledger → Ledger) : (s.modLed f).mems = s.mems := rfl

@[simp] theorem State.modCal_pending (f : Calendar → Calendar) : (s.modCal f).pending = s.pending := rfl
@[simp] theorem State.modCal_sys (f : Calendar → Calendar) : (s.modCal f).sys = s.sys := rfl
@[simp] theorem State.modCal_up (f : Calendar → Calendar) : (s.modCal f).up = s.up := rfl
@[simp] theorem State.modCal_down (f : Calendar → Calendar) : (s.modCal f).down = s.down := rfl
@[simp] theorem State.modCal_jtag (f : Calendar → Calendar) : (s.modCal f).jtag = s.jtag := rfl
@[simp] theorem State.modCal_con (f : Calendar → Calendar) : (s.modCal f).con = s.con := rfl
@[simp] theorem State.modCal_ses (f : Calendar → Calendar) : (s.modCal f).ses = s.ses := rfl
@[simp] theorem State.modCal_jrn (f : Calendar → Calendar) : (s.modCal f).jrn = s.jrn := rfl
@[simp] theorem State.modCal_hnd (f : Calendar → Calendar) : (s.modCal f).hnd = s.hnd := rfl
@[simp] theorem State.modCal_fur (f : Calendar → Calendar) : (s.modCal f).fur = s.fur := rfl
@[simp] theorem State.modCal_sdb (f : Calendar → Calendar) : (s.modCal f).sdb = s.sdb := rfl
@[simp] theorem State.modCal_cal (f : Calendar → Calendar) : (s.modCal f).cal = f s.cal := rfl
@[simp] theorem State.modCal_led (f : Calendar → Calendar) : (s.modCal f).led = s.led := rfl
@[simp] theorem State.modCal_ring (f : Calendar → Calendar) : (s.modCal f).ring = s.ring := rfl
@[simp] theorem State.modCal_hng (f : Calendar → Calendar) : (s.modCal f).hng = s.hng := rfl
@[simp] theorem State.modCal_bays (f : Calendar → Calendar) : (s.modCal f).bays = s.bays := rfl
@[simp] theorem State.modCal_env (f : Calendar → Calendar) : (s.modCal f).env = s.env := rfl
@[simp] theorem State.modCal_keys (f : Calendar → Calendar) : (s.modCal f).keys = s.keys := rfl
@[simp] theorem State.modCal_face (f : Calendar → Calendar) : (s.modCal f).face = s.face := rfl
@[simp] theorem State.modCal_tags (f : Calendar → Calendar) : (s.modCal f).tags = s.tags := rfl
@[simp] theorem State.modCal_fans (f : Calendar → Calendar) : (s.modCal f).fans = s.fans := rfl
@[simp] theorem State.modCal_sow (f : Calendar → Calendar) : (s.modCal f).sow = s.sow := rfl
@[simp] theorem State.modCal_gran (f : Calendar → Calendar) : (s.modCal f).gran = s.gran := rfl
@[simp] theorem State.modCal_plots (f : Calendar → Calendar) : (s.modCal f).plots = s.plots := rfl
@[simp] theorem State.modCal_spi (f : Calendar → Calendar) : (s.modCal f).spi = s.spi := rfl
@[simp] theorem State.modCal_mems (f : Calendar → Calendar) : (s.modCal f).mems = s.mems := rfl

@[simp] theorem State.modSpi_pending (f : Spi → Spi) : (s.modSpi f).pending = s.pending := rfl
@[simp] theorem State.modSpi_sys (f : Spi → Spi) : (s.modSpi f).sys = s.sys := rfl
@[simp] theorem State.modSpi_up (f : Spi → Spi) : (s.modSpi f).up = s.up := rfl
@[simp] theorem State.modSpi_down (f : Spi → Spi) : (s.modSpi f).down = s.down := rfl
@[simp] theorem State.modSpi_jtag (f : Spi → Spi) : (s.modSpi f).jtag = s.jtag := rfl
@[simp] theorem State.modSpi_con (f : Spi → Spi) : (s.modSpi f).con = s.con := rfl
@[simp] theorem State.modSpi_ses (f : Spi → Spi) : (s.modSpi f).ses = s.ses := rfl
@[simp] theorem State.modSpi_jrn (f : Spi → Spi) : (s.modSpi f).jrn = s.jrn := rfl
@[simp] theorem State.modSpi_hnd (f : Spi → Spi) : (s.modSpi f).hnd = s.hnd := rfl
@[simp] theorem State.modSpi_fur (f : Spi → Spi) : (s.modSpi f).fur = s.fur := rfl
@[simp] theorem State.modSpi_sdb (f : Spi → Spi) : (s.modSpi f).sdb = s.sdb := rfl
@[simp] theorem State.modSpi_cal (f : Spi → Spi) : (s.modSpi f).cal = s.cal := rfl
@[simp] theorem State.modSpi_led (f : Spi → Spi) : (s.modSpi f).led = s.led := rfl
@[simp] theorem State.modSpi_ring (f : Spi → Spi) : (s.modSpi f).ring = s.ring := rfl
@[simp] theorem State.modSpi_hng (f : Spi → Spi) : (s.modSpi f).hng = s.hng := rfl
@[simp] theorem State.modSpi_bays (f : Spi → Spi) : (s.modSpi f).bays = s.bays := rfl
@[simp] theorem State.modSpi_env (f : Spi → Spi) : (s.modSpi f).env = s.env := rfl
@[simp] theorem State.modSpi_keys (f : Spi → Spi) : (s.modSpi f).keys = s.keys := rfl
@[simp] theorem State.modSpi_face (f : Spi → Spi) : (s.modSpi f).face = s.face := rfl
@[simp] theorem State.modSpi_tags (f : Spi → Spi) : (s.modSpi f).tags = s.tags := rfl
@[simp] theorem State.modSpi_fans (f : Spi → Spi) : (s.modSpi f).fans = s.fans := rfl
@[simp] theorem State.modSpi_sow (f : Spi → Spi) : (s.modSpi f).sow = s.sow := rfl
@[simp] theorem State.modSpi_gran (f : Spi → Spi) : (s.modSpi f).gran = s.gran := rfl
@[simp] theorem State.modSpi_plots (f : Spi → Spi) : (s.modSpi f).plots = s.plots := rfl
@[simp] theorem State.modSpi_spi (f : Spi → Spi) : (s.modSpi f).spi = f s.spi := rfl
@[simp] theorem State.modSpi_mems (f : Spi → Spi) : (s.modSpi f).mems = s.mems := rfl

@[simp] theorem State.modSdb_pending (f : Seedbank → Seedbank) : (s.modSdb f).pending = s.pending := rfl
@[simp] theorem State.modSdb_sys (f : Seedbank → Seedbank) : (s.modSdb f).sys = s.sys := rfl
@[simp] theorem State.modSdb_up (f : Seedbank → Seedbank) : (s.modSdb f).up = s.up := rfl
@[simp] theorem State.modSdb_down (f : Seedbank → Seedbank) : (s.modSdb f).down = s.down := rfl
@[simp] theorem State.modSdb_jtag (f : Seedbank → Seedbank) : (s.modSdb f).jtag = s.jtag := rfl
@[simp] theorem State.modSdb_con (f : Seedbank → Seedbank) : (s.modSdb f).con = s.con := rfl
@[simp] theorem State.modSdb_ses (f : Seedbank → Seedbank) : (s.modSdb f).ses = s.ses := rfl
@[simp] theorem State.modSdb_jrn (f : Seedbank → Seedbank) : (s.modSdb f).jrn = s.jrn := rfl
@[simp] theorem State.modSdb_hnd (f : Seedbank → Seedbank) : (s.modSdb f).hnd = s.hnd := rfl
@[simp] theorem State.modSdb_fur (f : Seedbank → Seedbank) : (s.modSdb f).fur = s.fur := rfl
@[simp] theorem State.modSdb_sdb (f : Seedbank → Seedbank) : (s.modSdb f).sdb = f s.sdb := rfl
@[simp] theorem State.modSdb_cal (f : Seedbank → Seedbank) : (s.modSdb f).cal = s.cal := rfl
@[simp] theorem State.modSdb_led (f : Seedbank → Seedbank) : (s.modSdb f).led = s.led := rfl
@[simp] theorem State.modSdb_ring (f : Seedbank → Seedbank) : (s.modSdb f).ring = s.ring := rfl
@[simp] theorem State.modSdb_hng (f : Seedbank → Seedbank) : (s.modSdb f).hng = s.hng := rfl
@[simp] theorem State.modSdb_bays (f : Seedbank → Seedbank) : (s.modSdb f).bays = s.bays := rfl
@[simp] theorem State.modSdb_env (f : Seedbank → Seedbank) : (s.modSdb f).env = s.env := rfl
@[simp] theorem State.modSdb_keys (f : Seedbank → Seedbank) : (s.modSdb f).keys = s.keys := rfl
@[simp] theorem State.modSdb_face (f : Seedbank → Seedbank) : (s.modSdb f).face = s.face := rfl
@[simp] theorem State.modSdb_tags (f : Seedbank → Seedbank) : (s.modSdb f).tags = s.tags := rfl
@[simp] theorem State.modSdb_fans (f : Seedbank → Seedbank) : (s.modSdb f).fans = s.fans := rfl
@[simp] theorem State.modSdb_sow (f : Seedbank → Seedbank) : (s.modSdb f).sow = s.sow := rfl
@[simp] theorem State.modSdb_gran (f : Seedbank → Seedbank) : (s.modSdb f).gran = s.gran := rfl
@[simp] theorem State.modSdb_plots (f : Seedbank → Seedbank) : (s.modSdb f).plots = s.plots := rfl
@[simp] theorem State.modSdb_spi (f : Seedbank → Seedbank) : (s.modSdb f).spi = s.spi := rfl
@[simp] theorem State.modSdb_mems (f : Seedbank → Seedbank) : (s.modSdb f).mems = s.mems := rfl

@[simp] theorem State.modFans_pending (f : Fans → Fans) : (s.modFans f).pending = s.pending := rfl
@[simp] theorem State.modFans_sys (f : Fans → Fans) : (s.modFans f).sys = s.sys := rfl
@[simp] theorem State.modFans_up (f : Fans → Fans) : (s.modFans f).up = s.up := rfl
@[simp] theorem State.modFans_down (f : Fans → Fans) : (s.modFans f).down = s.down := rfl
@[simp] theorem State.modFans_jtag (f : Fans → Fans) : (s.modFans f).jtag = s.jtag := rfl
@[simp] theorem State.modFans_con (f : Fans → Fans) : (s.modFans f).con = s.con := rfl
@[simp] theorem State.modFans_ses (f : Fans → Fans) : (s.modFans f).ses = s.ses := rfl
@[simp] theorem State.modFans_jrn (f : Fans → Fans) : (s.modFans f).jrn = s.jrn := rfl
@[simp] theorem State.modFans_hnd (f : Fans → Fans) : (s.modFans f).hnd = s.hnd := rfl
@[simp] theorem State.modFans_fur (f : Fans → Fans) : (s.modFans f).fur = s.fur := rfl
@[simp] theorem State.modFans_sdb (f : Fans → Fans) : (s.modFans f).sdb = s.sdb := rfl
@[simp] theorem State.modFans_cal (f : Fans → Fans) : (s.modFans f).cal = s.cal := rfl
@[simp] theorem State.modFans_led (f : Fans → Fans) : (s.modFans f).led = s.led := rfl
@[simp] theorem State.modFans_ring (f : Fans → Fans) : (s.modFans f).ring = s.ring := rfl
@[simp] theorem State.modFans_hng (f : Fans → Fans) : (s.modFans f).hng = s.hng := rfl
@[simp] theorem State.modFans_bays (f : Fans → Fans) : (s.modFans f).bays = s.bays := rfl
@[simp] theorem State.modFans_env (f : Fans → Fans) : (s.modFans f).env = s.env := rfl
@[simp] theorem State.modFans_keys (f : Fans → Fans) : (s.modFans f).keys = s.keys := rfl
@[simp] theorem State.modFans_face (f : Fans → Fans) : (s.modFans f).face = s.face := rfl
@[simp] theorem State.modFans_tags (f : Fans → Fans) : (s.modFans f).tags = s.tags := rfl
@[simp] theorem State.modFans_fans (f : Fans → Fans) : (s.modFans f).fans = f s.fans := rfl
@[simp] theorem State.modFans_sow (f : Fans → Fans) : (s.modFans f).sow = s.sow := rfl
@[simp] theorem State.modFans_gran (f : Fans → Fans) : (s.modFans f).gran = s.gran := rfl
@[simp] theorem State.modFans_plots (f : Fans → Fans) : (s.modFans f).plots = s.plots := rfl
@[simp] theorem State.modFans_spi (f : Fans → Fans) : (s.modFans f).spi = s.spi := rfl
@[simp] theorem State.modFans_mems (f : Fans → Fans) : (s.modFans f).mems = s.mems := rfl

@[simp] theorem State.modTh_pending (t : Nat) (f : Thread → Thread) : (s.modTh t f).pending = s.pending := rfl
@[simp] theorem State.modTh_sys (t : Nat) (f : Thread → Thread) : (s.modTh t f).sys = s.sys := rfl
@[simp] theorem State.modTh_up (t : Nat) (f : Thread → Thread) : (s.modTh t f).up = s.up := rfl
@[simp] theorem State.modTh_down (t : Nat) (f : Thread → Thread) : (s.modTh t f).down = s.down := rfl
@[simp] theorem State.modTh_jtag (t : Nat) (f : Thread → Thread) : (s.modTh t f).jtag = s.jtag := rfl
@[simp] theorem State.modTh_con (t : Nat) (f : Thread → Thread) : (s.modTh t f).con = s.con := rfl
@[simp] theorem State.modTh_ses (t : Nat) (f : Thread → Thread) : (s.modTh t f).ses = s.ses := rfl
@[simp] theorem State.modTh_jrn (t : Nat) (f : Thread → Thread) : (s.modTh t f).jrn = s.jrn := rfl
@[simp] theorem State.modTh_hnd (t : Nat) (f : Thread → Thread) : (s.modTh t f).hnd = s.hnd := rfl
@[simp] theorem State.modTh_fur (t : Nat) (f : Thread → Thread) : (s.modTh t f).fur = s.fur := rfl
@[simp] theorem State.modTh_sdb (t : Nat) (f : Thread → Thread) : (s.modTh t f).sdb = s.sdb := rfl
@[simp] theorem State.modTh_cal (t : Nat) (f : Thread → Thread) : (s.modTh t f).cal = s.cal := rfl
@[simp] theorem State.modTh_led (t : Nat) (f : Thread → Thread) : (s.modTh t f).led = s.led := rfl
@[simp] theorem State.modTh_ring (t : Nat) (f : Thread → Thread) : (s.modTh t f).ring = s.ring := rfl
@[simp] theorem State.modTh_hng (t : Nat) (f : Thread → Thread) : (s.modTh t f).hng = s.hng := rfl
@[simp] theorem State.modTh_bays (t : Nat) (f : Thread → Thread) : (s.modTh t f).bays = s.bays := rfl
@[simp] theorem State.modTh_env (t : Nat) (f : Thread → Thread) : (s.modTh t f).env = s.env := rfl
@[simp] theorem State.modTh_keys (t : Nat) (f : Thread → Thread) : (s.modTh t f).keys = s.keys := rfl
@[simp] theorem State.modTh_face (t : Nat) (f : Thread → Thread) : (s.modTh t f).face = s.face := rfl
@[simp] theorem State.modTh_tags (t : Nat) (f : Thread → Thread) : (s.modTh t f).tags = s.tags := rfl
@[simp] theorem State.modTh_fans (t : Nat) (f : Thread → Thread) : (s.modTh t f).fans = s.fans := rfl
@[simp] theorem State.modTh_gran (t : Nat) (f : Thread → Thread) : (s.modTh t f).gran = s.gran := rfl
@[simp] theorem State.modTh_plots (t : Nat) (f : Thread → Thread) : (s.modTh t f).plots = s.plots := rfl
@[simp] theorem State.modTh_spi (t : Nat) (f : Thread → Thread) : (s.modTh t f).spi = s.spi := rfl
@[simp] theorem State.modTh_mems (t : Nat) (f : Thread → Thread) : (s.modTh t f).mems = s.mems := rfl

@[simp] theorem State.modCore_pending (k : Nat) (f : Core → Core) : (s.modCore k f).pending = s.pending := rfl
@[simp] theorem State.modCore_sys (k : Nat) (f : Core → Core) : (s.modCore k f).sys = s.sys := rfl
@[simp] theorem State.modCore_up (k : Nat) (f : Core → Core) : (s.modCore k f).up = s.up := rfl
@[simp] theorem State.modCore_down (k : Nat) (f : Core → Core) : (s.modCore k f).down = s.down := rfl
@[simp] theorem State.modCore_jtag (k : Nat) (f : Core → Core) : (s.modCore k f).jtag = s.jtag := rfl
@[simp] theorem State.modCore_con (k : Nat) (f : Core → Core) : (s.modCore k f).con = s.con := rfl
@[simp] theorem State.modCore_ses (k : Nat) (f : Core → Core) : (s.modCore k f).ses = s.ses := rfl
@[simp] theorem State.modCore_jrn (k : Nat) (f : Core → Core) : (s.modCore k f).jrn = s.jrn := rfl
@[simp] theorem State.modCore_hnd (k : Nat) (f : Core → Core) : (s.modCore k f).hnd = s.hnd := rfl
@[simp] theorem State.modCore_fur (k : Nat) (f : Core → Core) : (s.modCore k f).fur = s.fur := rfl
@[simp] theorem State.modCore_sdb (k : Nat) (f : Core → Core) : (s.modCore k f).sdb = s.sdb := rfl
@[simp] theorem State.modCore_cal (k : Nat) (f : Core → Core) : (s.modCore k f).cal = s.cal := rfl
@[simp] theorem State.modCore_led (k : Nat) (f : Core → Core) : (s.modCore k f).led = s.led := rfl
@[simp] theorem State.modCore_ring (k : Nat) (f : Core → Core) : (s.modCore k f).ring = s.ring := rfl
@[simp] theorem State.modCore_hng (k : Nat) (f : Core → Core) : (s.modCore k f).hng = s.hng := rfl
@[simp] theorem State.modCore_bays (k : Nat) (f : Core → Core) : (s.modCore k f).bays = s.bays := rfl
@[simp] theorem State.modCore_env (k : Nat) (f : Core → Core) : (s.modCore k f).env = s.env := rfl
@[simp] theorem State.modCore_keys (k : Nat) (f : Core → Core) : (s.modCore k f).keys = s.keys := rfl
@[simp] theorem State.modCore_face (k : Nat) (f : Core → Core) : (s.modCore k f).face = s.face := rfl
@[simp] theorem State.modCore_tags (k : Nat) (f : Core → Core) : (s.modCore k f).tags = s.tags := rfl
@[simp] theorem State.modCore_fans (k : Nat) (f : Core → Core) : (s.modCore k f).fans = s.fans := rfl
@[simp] theorem State.modCore_gran (k : Nat) (f : Core → Core) : (s.modCore k f).gran = s.gran := rfl
@[simp] theorem State.modCore_plots (k : Nat) (f : Core → Core) : (s.modCore k f).plots = s.plots := rfl
@[simp] theorem State.modCore_spi (k : Nat) (f : Core → Core) : (s.modCore k f).spi = s.spi := rfl
@[simp] theorem State.modCore_mems (k : Nat) (f : Core → Core) : (s.modCore k f).mems = s.mems := rfl

@[simp] theorem State.modQue_pending (q : Nat) (f : Queue → Queue) : (s.modQue q f).pending = s.pending := rfl
@[simp] theorem State.modQue_sys (q : Nat) (f : Queue → Queue) : (s.modQue q f).sys = s.sys := rfl
@[simp] theorem State.modQue_up (q : Nat) (f : Queue → Queue) : (s.modQue q f).up = s.up := rfl
@[simp] theorem State.modQue_down (q : Nat) (f : Queue → Queue) : (s.modQue q f).down = s.down := rfl
@[simp] theorem State.modQue_jtag (q : Nat) (f : Queue → Queue) : (s.modQue q f).jtag = s.jtag := rfl
@[simp] theorem State.modQue_con (q : Nat) (f : Queue → Queue) : (s.modQue q f).con = s.con := rfl
@[simp] theorem State.modQue_ses (q : Nat) (f : Queue → Queue) : (s.modQue q f).ses = s.ses := rfl
@[simp] theorem State.modQue_jrn (q : Nat) (f : Queue → Queue) : (s.modQue q f).jrn = s.jrn := rfl
@[simp] theorem State.modQue_hnd (q : Nat) (f : Queue → Queue) : (s.modQue q f).hnd = s.hnd := rfl
@[simp] theorem State.modQue_fur (q : Nat) (f : Queue → Queue) : (s.modQue q f).fur = s.fur := rfl
@[simp] theorem State.modQue_sdb (q : Nat) (f : Queue → Queue) : (s.modQue q f).sdb = s.sdb := rfl
@[simp] theorem State.modQue_cal (q : Nat) (f : Queue → Queue) : (s.modQue q f).cal = s.cal := rfl
@[simp] theorem State.modQue_led (q : Nat) (f : Queue → Queue) : (s.modQue q f).led = s.led := rfl
@[simp] theorem State.modQue_ring (q : Nat) (f : Queue → Queue) : (s.modQue q f).ring = s.ring := rfl
@[simp] theorem State.modQue_hng (q : Nat) (f : Queue → Queue) : (s.modQue q f).hng = s.hng := rfl
@[simp] theorem State.modQue_bays (q : Nat) (f : Queue → Queue) : (s.modQue q f).bays = s.bays := rfl
@[simp] theorem State.modQue_env (q : Nat) (f : Queue → Queue) : (s.modQue q f).env = s.env := rfl
@[simp] theorem State.modQue_keys (q : Nat) (f : Queue → Queue) : (s.modQue q f).keys = s.keys := rfl
@[simp] theorem State.modQue_face (q : Nat) (f : Queue → Queue) : (s.modQue q f).face = s.face := rfl
@[simp] theorem State.modQue_tags (q : Nat) (f : Queue → Queue) : (s.modQue q f).tags = s.tags := rfl
@[simp] theorem State.modQue_fans (q : Nat) (f : Queue → Queue) : (s.modQue q f).fans = s.fans := rfl
@[simp] theorem State.modQue_gran (q : Nat) (f : Queue → Queue) : (s.modQue q f).gran = s.gran := rfl
@[simp] theorem State.modQue_plots (q : Nat) (f : Queue → Queue) : (s.modQue q f).plots = s.plots := rfl
@[simp] theorem State.modQue_spi (q : Nat) (f : Queue → Queue) : (s.modQue q f).spi = s.spi := rfl
@[simp] theorem State.modQue_mems (q : Nat) (f : Queue → Queue) : (s.modQue q f).mems = s.mems := rfl

@[simp] theorem State.modBay_pending (n : Nat) (f : Bay → Bay) : (s.modBay n f).pending = s.pending := rfl
@[simp] theorem State.modBay_sys (n : Nat) (f : Bay → Bay) : (s.modBay n f).sys = s.sys := rfl
@[simp] theorem State.modBay_up (n : Nat) (f : Bay → Bay) : (s.modBay n f).up = s.up := rfl
@[simp] theorem State.modBay_down (n : Nat) (f : Bay → Bay) : (s.modBay n f).down = s.down := rfl
@[simp] theorem State.modBay_jtag (n : Nat) (f : Bay → Bay) : (s.modBay n f).jtag = s.jtag := rfl
@[simp] theorem State.modBay_con (n : Nat) (f : Bay → Bay) : (s.modBay n f).con = s.con := rfl
@[simp] theorem State.modBay_ses (n : Nat) (f : Bay → Bay) : (s.modBay n f).ses = s.ses := rfl
@[simp] theorem State.modBay_jrn (n : Nat) (f : Bay → Bay) : (s.modBay n f).jrn = s.jrn := rfl
@[simp] theorem State.modBay_hnd (n : Nat) (f : Bay → Bay) : (s.modBay n f).hnd = s.hnd := rfl
@[simp] theorem State.modBay_fur (n : Nat) (f : Bay → Bay) : (s.modBay n f).fur = s.fur := rfl
@[simp] theorem State.modBay_sdb (n : Nat) (f : Bay → Bay) : (s.modBay n f).sdb = s.sdb := rfl
@[simp] theorem State.modBay_cal (n : Nat) (f : Bay → Bay) : (s.modBay n f).cal = s.cal := rfl
@[simp] theorem State.modBay_led (n : Nat) (f : Bay → Bay) : (s.modBay n f).led = s.led := rfl
@[simp] theorem State.modBay_ring (n : Nat) (f : Bay → Bay) : (s.modBay n f).ring = s.ring := rfl
@[simp] theorem State.modBay_hng (n : Nat) (f : Bay → Bay) : (s.modBay n f).hng = s.hng := rfl
@[simp] theorem State.modBay_env (n : Nat) (f : Bay → Bay) : (s.modBay n f).env = s.env := rfl
@[simp] theorem State.modBay_keys (n : Nat) (f : Bay → Bay) : (s.modBay n f).keys = s.keys := rfl
@[simp] theorem State.modBay_face (n : Nat) (f : Bay → Bay) : (s.modBay n f).face = s.face := rfl
@[simp] theorem State.modBay_tags (n : Nat) (f : Bay → Bay) : (s.modBay n f).tags = s.tags := rfl
@[simp] theorem State.modBay_fans (n : Nat) (f : Bay → Bay) : (s.modBay n f).fans = s.fans := rfl
@[simp] theorem State.modBay_sow (n : Nat) (f : Bay → Bay) : (s.modBay n f).sow = s.sow := rfl
@[simp] theorem State.modBay_gran (n : Nat) (f : Bay → Bay) : (s.modBay n f).gran = s.gran := rfl
@[simp] theorem State.modBay_plots (n : Nat) (f : Bay → Bay) : (s.modBay n f).plots = s.plots := rfl
@[simp] theorem State.modBay_spi (n : Nat) (f : Bay → Bay) : (s.modBay n f).spi = s.spi := rfl
@[simp] theorem State.modBay_mems (n : Nat) (f : Bay → Bay) : (s.modBay n f).mems = s.mems := rfl

@[simp] theorem State.modSes_pending (k : Nat) (f : Session → Session) : (s.modSes k f).pending = s.pending := rfl
@[simp] theorem State.modSes_sys (k : Nat) (f : Session → Session) : (s.modSes k f).sys = s.sys := rfl
@[simp] theorem State.modSes_up (k : Nat) (f : Session → Session) : (s.modSes k f).up = s.up := rfl
@[simp] theorem State.modSes_down (k : Nat) (f : Session → Session) : (s.modSes k f).down = s.down := rfl
@[simp] theorem State.modSes_jtag (k : Nat) (f : Session → Session) : (s.modSes k f).jtag = s.jtag := rfl
@[simp] theorem State.modSes_con (k : Nat) (f : Session → Session) : (s.modSes k f).con = s.con := rfl
@[simp] theorem State.modSes_jrn (k : Nat) (f : Session → Session) : (s.modSes k f).jrn = s.jrn := rfl
@[simp] theorem State.modSes_hnd (k : Nat) (f : Session → Session) : (s.modSes k f).hnd = s.hnd := rfl
@[simp] theorem State.modSes_fur (k : Nat) (f : Session → Session) : (s.modSes k f).fur = s.fur := rfl
@[simp] theorem State.modSes_sdb (k : Nat) (f : Session → Session) : (s.modSes k f).sdb = s.sdb := rfl
@[simp] theorem State.modSes_cal (k : Nat) (f : Session → Session) : (s.modSes k f).cal = s.cal := rfl
@[simp] theorem State.modSes_led (k : Nat) (f : Session → Session) : (s.modSes k f).led = s.led := rfl
@[simp] theorem State.modSes_ring (k : Nat) (f : Session → Session) : (s.modSes k f).ring = s.ring := rfl
@[simp] theorem State.modSes_hng (k : Nat) (f : Session → Session) : (s.modSes k f).hng = s.hng := rfl
@[simp] theorem State.modSes_bays (k : Nat) (f : Session → Session) : (s.modSes k f).bays = s.bays := rfl
@[simp] theorem State.modSes_env (k : Nat) (f : Session → Session) : (s.modSes k f).env = s.env := rfl
@[simp] theorem State.modSes_keys (k : Nat) (f : Session → Session) : (s.modSes k f).keys = s.keys := rfl
@[simp] theorem State.modSes_face (k : Nat) (f : Session → Session) : (s.modSes k f).face = s.face := rfl
@[simp] theorem State.modSes_tags (k : Nat) (f : Session → Session) : (s.modSes k f).tags = s.tags := rfl
@[simp] theorem State.modSes_fans (k : Nat) (f : Session → Session) : (s.modSes k f).fans = s.fans := rfl
@[simp] theorem State.modSes_sow (k : Nat) (f : Session → Session) : (s.modSes k f).sow = s.sow := rfl
@[simp] theorem State.modSes_gran (k : Nat) (f : Session → Session) : (s.modSes k f).gran = s.gran := rfl
@[simp] theorem State.modSes_plots (k : Nat) (f : Session → Session) : (s.modSes k f).plots = s.plots := rfl
@[simp] theorem State.modSes_spi (k : Nat) (f : Session → Session) : (s.modSes k f).spi = s.spi := rfl
@[simp] theorem State.modSes_mems (k : Nat) (f : Session → Session) : (s.modSes k f).mems = s.mems := rfl

@[simp] theorem State.modPlot_pending (t : Nat) (f : Plot → Plot) : (s.modPlot t f).pending = s.pending := rfl
@[simp] theorem State.modPlot_sys (t : Nat) (f : Plot → Plot) : (s.modPlot t f).sys = s.sys := rfl
@[simp] theorem State.modPlot_up (t : Nat) (f : Plot → Plot) : (s.modPlot t f).up = s.up := rfl
@[simp] theorem State.modPlot_down (t : Nat) (f : Plot → Plot) : (s.modPlot t f).down = s.down := rfl
@[simp] theorem State.modPlot_jtag (t : Nat) (f : Plot → Plot) : (s.modPlot t f).jtag = s.jtag := rfl
@[simp] theorem State.modPlot_con (t : Nat) (f : Plot → Plot) : (s.modPlot t f).con = s.con := rfl
@[simp] theorem State.modPlot_ses (t : Nat) (f : Plot → Plot) : (s.modPlot t f).ses = s.ses := rfl
@[simp] theorem State.modPlot_jrn (t : Nat) (f : Plot → Plot) : (s.modPlot t f).jrn = s.jrn := rfl
@[simp] theorem State.modPlot_hnd (t : Nat) (f : Plot → Plot) : (s.modPlot t f).hnd = s.hnd := rfl
@[simp] theorem State.modPlot_fur (t : Nat) (f : Plot → Plot) : (s.modPlot t f).fur = s.fur := rfl
@[simp] theorem State.modPlot_sdb (t : Nat) (f : Plot → Plot) : (s.modPlot t f).sdb = s.sdb := rfl
@[simp] theorem State.modPlot_cal (t : Nat) (f : Plot → Plot) : (s.modPlot t f).cal = s.cal := rfl
@[simp] theorem State.modPlot_led (t : Nat) (f : Plot → Plot) : (s.modPlot t f).led = s.led := rfl
@[simp] theorem State.modPlot_ring (t : Nat) (f : Plot → Plot) : (s.modPlot t f).ring = s.ring := rfl
@[simp] theorem State.modPlot_hng (t : Nat) (f : Plot → Plot) : (s.modPlot t f).hng = s.hng := rfl
@[simp] theorem State.modPlot_bays (t : Nat) (f : Plot → Plot) : (s.modPlot t f).bays = s.bays := rfl
@[simp] theorem State.modPlot_env (t : Nat) (f : Plot → Plot) : (s.modPlot t f).env = s.env := rfl
@[simp] theorem State.modPlot_keys (t : Nat) (f : Plot → Plot) : (s.modPlot t f).keys = s.keys := rfl
@[simp] theorem State.modPlot_face (t : Nat) (f : Plot → Plot) : (s.modPlot t f).face = s.face := rfl
@[simp] theorem State.modPlot_tags (t : Nat) (f : Plot → Plot) : (s.modPlot t f).tags = s.tags := rfl
@[simp] theorem State.modPlot_fans (t : Nat) (f : Plot → Plot) : (s.modPlot t f).fans = s.fans := rfl
@[simp] theorem State.modPlot_sow (t : Nat) (f : Plot → Plot) : (s.modPlot t f).sow = s.sow := rfl
@[simp] theorem State.modPlot_gran (t : Nat) (f : Plot → Plot) : (s.modPlot t f).gran = s.gran := rfl
@[simp] theorem State.modPlot_spi (t : Nat) (f : Plot → Plot) : (s.modPlot t f).spi = s.spi := rfl
@[simp] theorem State.modPlot_mems (t : Nat) (f : Plot → Plot) : (s.modPlot t f).mems = s.mems := rfl

@[simp] theorem State.modFan_pending (n : Nat) (f : Fan → Fan) : (s.modFan n f).pending = s.pending := rfl
@[simp] theorem State.modFan_sys (n : Nat) (f : Fan → Fan) : (s.modFan n f).sys = s.sys := rfl
@[simp] theorem State.modFan_up (n : Nat) (f : Fan → Fan) : (s.modFan n f).up = s.up := rfl
@[simp] theorem State.modFan_down (n : Nat) (f : Fan → Fan) : (s.modFan n f).down = s.down := rfl
@[simp] theorem State.modFan_jtag (n : Nat) (f : Fan → Fan) : (s.modFan n f).jtag = s.jtag := rfl
@[simp] theorem State.modFan_con (n : Nat) (f : Fan → Fan) : (s.modFan n f).con = s.con := rfl
@[simp] theorem State.modFan_ses (n : Nat) (f : Fan → Fan) : (s.modFan n f).ses = s.ses := rfl
@[simp] theorem State.modFan_jrn (n : Nat) (f : Fan → Fan) : (s.modFan n f).jrn = s.jrn := rfl
@[simp] theorem State.modFan_hnd (n : Nat) (f : Fan → Fan) : (s.modFan n f).hnd = s.hnd := rfl
@[simp] theorem State.modFan_fur (n : Nat) (f : Fan → Fan) : (s.modFan n f).fur = s.fur := rfl
@[simp] theorem State.modFan_sdb (n : Nat) (f : Fan → Fan) : (s.modFan n f).sdb = s.sdb := rfl
@[simp] theorem State.modFan_cal (n : Nat) (f : Fan → Fan) : (s.modFan n f).cal = s.cal := rfl
@[simp] theorem State.modFan_led (n : Nat) (f : Fan → Fan) : (s.modFan n f).led = s.led := rfl
@[simp] theorem State.modFan_ring (n : Nat) (f : Fan → Fan) : (s.modFan n f).ring = s.ring := rfl
@[simp] theorem State.modFan_hng (n : Nat) (f : Fan → Fan) : (s.modFan n f).hng = s.hng := rfl
@[simp] theorem State.modFan_bays (n : Nat) (f : Fan → Fan) : (s.modFan n f).bays = s.bays := rfl
@[simp] theorem State.modFan_env (n : Nat) (f : Fan → Fan) : (s.modFan n f).env = s.env := rfl
@[simp] theorem State.modFan_keys (n : Nat) (f : Fan → Fan) : (s.modFan n f).keys = s.keys := rfl
@[simp] theorem State.modFan_face (n : Nat) (f : Fan → Fan) : (s.modFan n f).face = s.face := rfl
@[simp] theorem State.modFan_tags (n : Nat) (f : Fan → Fan) : (s.modFan n f).tags = s.tags := rfl
@[simp] theorem State.modFan_sow (n : Nat) (f : Fan → Fan) : (s.modFan n f).sow = s.sow := rfl
@[simp] theorem State.modFan_gran (n : Nat) (f : Fan → Fan) : (s.modFan n f).gran = s.gran := rfl
@[simp] theorem State.modFan_plots (n : Nat) (f : Fan → Fan) : (s.modFan n f).plots = s.plots := rfl
@[simp] theorem State.modFan_spi (n : Nat) (f : Fan → Fan) : (s.modFan n f).spi = s.spi := rfl
@[simp] theorem State.modFan_mems (n : Nat) (f : Fan → Fan) : (s.modFan n f).mems = s.mems := rfl

@[simp] theorem State.modOpen_pending (kk seq : Nat) (f : Handle → Handle) : (s.modOpen kk seq f).pending = s.pending := rfl
@[simp] theorem State.modOpen_sys (kk seq : Nat) (f : Handle → Handle) : (s.modOpen kk seq f).sys = s.sys := rfl
@[simp] theorem State.modOpen_up (kk seq : Nat) (f : Handle → Handle) : (s.modOpen kk seq f).up = s.up := rfl
@[simp] theorem State.modOpen_down (kk seq : Nat) (f : Handle → Handle) : (s.modOpen kk seq f).down = s.down := rfl
@[simp] theorem State.modOpen_jtag (kk seq : Nat) (f : Handle → Handle) : (s.modOpen kk seq f).jtag = s.jtag := rfl
@[simp] theorem State.modOpen_con (kk seq : Nat) (f : Handle → Handle) : (s.modOpen kk seq f).con = s.con := rfl
@[simp] theorem State.modOpen_ses (kk seq : Nat) (f : Handle → Handle) : (s.modOpen kk seq f).ses = s.ses := rfl
@[simp] theorem State.modOpen_jrn (kk seq : Nat) (f : Handle → Handle) : (s.modOpen kk seq f).jrn = s.jrn := rfl
@[simp] theorem State.modOpen_fur (kk seq : Nat) (f : Handle → Handle) : (s.modOpen kk seq f).fur = s.fur := rfl
@[simp] theorem State.modOpen_sdb (kk seq : Nat) (f : Handle → Handle) : (s.modOpen kk seq f).sdb = s.sdb := rfl
@[simp] theorem State.modOpen_cal (kk seq : Nat) (f : Handle → Handle) : (s.modOpen kk seq f).cal = s.cal := rfl
@[simp] theorem State.modOpen_led (kk seq : Nat) (f : Handle → Handle) : (s.modOpen kk seq f).led = s.led := rfl
@[simp] theorem State.modOpen_ring (kk seq : Nat) (f : Handle → Handle) : (s.modOpen kk seq f).ring = s.ring := rfl
@[simp] theorem State.modOpen_hng (kk seq : Nat) (f : Handle → Handle) : (s.modOpen kk seq f).hng = s.hng := rfl
@[simp] theorem State.modOpen_bays (kk seq : Nat) (f : Handle → Handle) : (s.modOpen kk seq f).bays = s.bays := rfl
@[simp] theorem State.modOpen_env (kk seq : Nat) (f : Handle → Handle) : (s.modOpen kk seq f).env = s.env := rfl
@[simp] theorem State.modOpen_keys (kk seq : Nat) (f : Handle → Handle) : (s.modOpen kk seq f).keys = s.keys := rfl
@[simp] theorem State.modOpen_face (kk seq : Nat) (f : Handle → Handle) : (s.modOpen kk seq f).face = s.face := rfl
@[simp] theorem State.modOpen_tags (kk seq : Nat) (f : Handle → Handle) : (s.modOpen kk seq f).tags = s.tags := rfl
@[simp] theorem State.modOpen_fans (kk seq : Nat) (f : Handle → Handle) : (s.modOpen kk seq f).fans = s.fans := rfl
@[simp] theorem State.modOpen_sow (kk seq : Nat) (f : Handle → Handle) : (s.modOpen kk seq f).sow = s.sow := rfl
@[simp] theorem State.modOpen_gran (kk seq : Nat) (f : Handle → Handle) : (s.modOpen kk seq f).gran = s.gran := rfl
@[simp] theorem State.modOpen_plots (kk seq : Nat) (f : Handle → Handle) : (s.modOpen kk seq f).plots = s.plots := rfl
@[simp] theorem State.modOpen_spi (kk seq : Nat) (f : Handle → Handle) : (s.modOpen kk seq f).spi = s.spi := rfl
@[simp] theorem State.modOpen_mems (kk seq : Nat) (f : Handle → Handle) : (s.modOpen kk seq f).mems = s.mems := rfl

@[simp] theorem State.draw_pending : s.draw.2.pending = s.pending := rfl
@[simp] theorem State.draw_up : s.draw.2.up = s.up := rfl
@[simp] theorem State.draw_down : s.draw.2.down = s.down := rfl
@[simp] theorem State.draw_jtag : s.draw.2.jtag = s.jtag := rfl
@[simp] theorem State.draw_con : s.draw.2.con = s.con := rfl
@[simp] theorem State.draw_ses : s.draw.2.ses = s.ses := rfl
@[simp] theorem State.draw_jrn : s.draw.2.jrn = s.jrn := rfl
@[simp] theorem State.draw_hnd : s.draw.2.hnd = s.hnd := rfl
@[simp] theorem State.draw_fur : s.draw.2.fur = s.fur := rfl
@[simp] theorem State.draw_sdb : s.draw.2.sdb = s.sdb := rfl
@[simp] theorem State.draw_cal : s.draw.2.cal = s.cal := rfl
@[simp] theorem State.draw_led : s.draw.2.led = s.led := rfl
@[simp] theorem State.draw_ring : s.draw.2.ring = s.ring := rfl
@[simp] theorem State.draw_hng : s.draw.2.hng = s.hng := rfl
@[simp] theorem State.draw_bays : s.draw.2.bays = s.bays := rfl
@[simp] theorem State.draw_env : s.draw.2.env = s.env := rfl
@[simp] theorem State.draw_keys : s.draw.2.keys = s.keys := rfl
@[simp] theorem State.draw_face : s.draw.2.face = s.face := rfl
@[simp] theorem State.draw_tags : s.draw.2.tags = s.tags := rfl
@[simp] theorem State.draw_fans : s.draw.2.fans = s.fans := rfl
@[simp] theorem State.draw_sow : s.draw.2.sow = s.sow := rfl
@[simp] theorem State.draw_gran : s.draw.2.gran = s.gran := rfl
@[simp] theorem State.draw_plots : s.draw.2.plots = s.plots := rfl
@[simp] theorem State.draw_spi : s.draw.2.spi = s.spi := rfl
@[simp] theorem State.draw_mems : s.draw.2.mems = s.mems := rfl

/-! ### Tables of entries -/

theorem vget_vset {α : Type} {n : Nat} [Inhabited α] (v : Vector α n) (i j : Nat) (x : α) :
    vget (vset v i x) j = if i = j ∧ i < n then x else vget v j := by
  unfold vget vset
  rw [Vector.getElem?_setIfInBounds]
  by_cases h : i = j
  · subst h
    by_cases h2 : i < n <;> simp [h2]
  · simp [h]

@[simp] theorem vget_vset_self {α : Type} {n : Nat} [Inhabited α] (v : Vector α n) (i : Nat) (x : α) (h : i < n) :
    vget (vset v i x) i = x := by simp [vget_vset, h]

theorem vget_vset_ne {α : Type} {n : Nat} [Inhabited α] (v : Vector α n) (i j : Nat) (x : α) (h : i ≠ j) :
    vget (vset v i x) j = vget v j := by simp [vget_vset, h]

@[simp] theorem vget_vmod_self {α : Type} {n : Nat} [Inhabited α] (v : Vector α n) (i : Nat) (f : α → α) (h : i < n) :
    vget (vmod v i f) i = f (vget v i) := by simp [vmod, h]

theorem vget_vmod_ne {α : Type} {n : Nat} [Inhabited α] (v : Vector α n) (i j : Nat) (f : α → α) (h : i ≠ j) :
    vget (vmod v i f) j = vget v j := by simp [vmod, vget_vset_ne, h]

/-! ### Threads, cores, queues, bays -/

@[simp] theorem State.th_modTh_self (t : Nat) (f : Thread → Thread) (h : t < 128) : (s.modTh t f).th t = f (s.th t) := by
  simp [State.th, State.modTh, h]

theorem State.th_modTh_ne (t u : Nat) (f : Thread → Thread) (h : t ≠ u) : (s.modTh t f).th u = s.th u := by
  simp [State.th, State.modTh, vget_vmod_ne, h]

@[simp] theorem State.core_modTh (t k : Nat) (f : Thread → Thread) : (s.modTh t f).core k = s.core k := rfl
@[simp] theorem State.que_modTh (t q : Nat) (f : Thread → Thread) : (s.modTh t f).que q = s.que q := rfl
@[simp] theorem State.th_modCore (k t : Nat) (f : Core → Core) : (s.modCore k f).th t = s.th t := rfl
@[simp] theorem State.que_modCore (k q : Nat) (f : Core → Core) : (s.modCore k f).que q = s.que q := rfl
@[simp] theorem State.th_modQue (q t : Nat) (f : Queue → Queue) : (s.modQue q f).th t = s.th t := rfl
@[simp] theorem State.core_modQue (q k : Nat) (f : Queue → Queue) : (s.modQue q f).core k = s.core k := rfl

@[simp] theorem State.core_modCore_self (k : Nat) (f : Core → Core) (h : k < 7) : (s.modCore k f).core k = f (s.core k) := by
  simp [State.core, State.modCore, h]

theorem State.core_modCore_ne (k j : Nat) (f : Core → Core) (h : k ≠ j) : (s.modCore k f).core j = s.core j := by
  simp [State.core, State.modCore, vget_vmod_ne, h]

@[simp] theorem State.que_modQue_self (q : Nat) (f : Queue → Queue) (h : q < 64) : (s.modQue q f).que q = f (s.que q) := by
  simp [State.que, State.modQue, h]

@[simp] theorem State.bayAt_modBay_self (n : Nat) (f : Bay → Bay) (h : n < 96) : (s.modBay n f).bayAt n = f (s.bayAt n) := by
  simp [State.bayAt, State.modBay, h]

theorem State.bayAt_modBay_ne (n m : Nat) (f : Bay → Bay) (h : n ≠ m) : (s.modBay n f).bayAt m = s.bayAt m := by
  simp [State.bayAt, State.modBay, vget_vmod_ne, h]

end Sys2Proof.Machine
end

