-- ==== Sys2Proof/Laws/Issue.lean ====
section
/-! SUPPORT. What the shared forms of a command do: an instruction that issues, a line that runs, and an access that is served
at once. -/

namespace Sys2Proof.Machine

/-- The state that an instruction which has issued leaves, by what the instruction did. -/
def State.leaves (u : State) (k t : Nat) : Did → State
  | .went s => s.goPc t (u.th t).pc (nextPc (u.th t).pc)
  | .jumped s a => s.goPc t (u.th t).pc a
  | .trapped c d => u.trap t k c (u.th t).pc (u.th t).pc d
  | .left s => s

@[simp] theorem State.touchCache_threads (s : State) (k : Nat) (x : InstrAt) : (s.touchCache k x).sow.threads = s.sow.threads := by
  unfold State.touchCache; split <;> first | rfl | (split <;> rfl)

@[simp] theorem State.touchCache_th (s : State) (k : Nat) (x : InstrAt) (t : Nat) : (s.touchCache k x).th t = s.th t := by
  simp [State.th]

/-- An assigned instruction that issues does what it does. -/
theorem Issues.oluique {s u : State} {k : CoreId} {t : Nat} (h : Issues s k t u) {undef : Nat → Option Word}
    {body : State → Nat → Did} (hu : undef t = none) : oluique s k undef body = .next (u.leaves k.val t (body u t)) := by
  obtain ⟨hr, hl, x, hx, rfl⟩ := h
  unfold State.written at *
  simp only [Machine.oluique, goOn, State.issue, hr, hl, Bool.false_eq_true, if_false, hx, hu]
  cases body _ t <;> simp [State.leaves]

/-- An unassigned encoding that issues traps UNDEF (R526, R537). -/
theorem Issues.undefined {s u : State} {k : CoreId} {t : Nat} (h : Issues s k t u) {undef : Nat → Option Word}
    {body : State → Nat → Did} {w : Word} (hu : undef t = some w) :
    Machine.oluique s k undef body = .next (u.trap t k.val 1 (u.th t).pc (u.th t).pc w) := by
  obtain ⟨hr, hl, x, hx, rfl⟩ := h
  unfold State.written at *
  simp [Machine.oluique, goOn, State.issue, hr, hl, hx, hu]

/-- A line that runs and passes its checks does what its verb does. -/
theorem LineOk.verb {s u v : State} {q : Src} {c : Instr} (h : LineOk s q c u v) {body : State → State} :
    verb s q c body = .next ((body v).afterLine q.ses.val) := by
  obtain ⟨⟨hc, hl, rfl, rfl⟩, ho⟩ := h
  simp only [Machine.verb, goOn, State.runLine, hc, ho, hl, Bool.not_true, Bool.not_false, Bool.false_eq_true, if_false,
    Bool.and_self, if_true]

/-- A line that runs and fails a check counts as ignored, and nothing else happens (R126). -/
theorem LineRuns.refused {s u v : State} {q : Src} {c : Instr} (h : LineRuns s q c u v) {body : State → State}
    (ho : u.formOk q.ses.val c = false) : Machine.verb s q c body = .next ((u.ignore q.ses.val).afterLine q.ses.val) := by
  obtain ⟨hc, hl, rfl, rfl⟩ := h
  simp [Machine.verb, goOn, State.runLine, hc, ho]

/-- A round of one request has that request. -/
theorem robin_one (last : Nat) (x : Transfer) (h : x.core < 6) : robin last [x] = [x] := by
  obtain ⟨c, tid, move, ins⟩ := x
  have hr : last % 6 < 6 := Nat.mod_lt _ (by decide)
  have hm : ∀ i, (last + 1 + i) % 6 = (last % 6 + 1 + i) % 6 := by omega
  simp only [robin, hm]
  simp only at h
  generalize last % 6 = r at hr
  rcases (by omega : r = 0 ∨ r = 1 ∨ r = 2 ∨ r = 3 ∨ r = 4 ∨ r = 5) with rfl | rfl | rfl | rfl | rfl | rfl <;>
    rcases (by omega : c = 0 ∨ c = 1 ∨ c = 2 ∨ c = 3 ∨ c = 4 ∨ c = 5) with rfl | rfl | rfl | rfl | rfl | rfl <;> rfl

/-- An access that is served at once is granted. -/
theorem Clear.accessed {s : State} {x : Transfer} (h : Clear s x.core x.move.port) (hk : x.core < 7) :
    s.accessed x = s.hingeGrant x := by
  unfold State.accessed
  split
  next hb =>
    obtain ⟨hu, hp⟩ := Bool.and_eq_true_iff.mp hb
    obtain ⟨hw, ha⟩ := h hu hp
    by_cases h6 : x.core = 6
    · have hr : ∀ n, robin n [] = [] := fun n => rfl
      simp [State.transfer, State.atCycle, State.heldGrants, hw, ha, State.arbitrate, hr, h6]
    · have hn : (s.modHng fun y => { y with asking := [] }) = s := by simp [State.modHng, ← ha]
      simp [State.transfer, State.atCycle, State.heldGrants, hw, ha, State.arbitrate, h6, robin_one _ x (by omega), hn]
  next => rfl

/-- The core of a sender is a core. -/
theorem coreOfWho_lt (who : Who) : coreOfWho who < 7 := by cases who <;> simp [coreOfWho]; omega

/-- A write of a side that reaches the port takes effect, after the earlier port writes of its core. -/
theorem Reaches.wroteOf {s : State} {who : Who} {p : Nat} {v : State → Nat} (h : Reaches s who p true) :
    s.wroteOf who p v = (s.drained who).outPort (coreOfWho who) (s.accessor (coreOfWho who)) p (wordOf (v (s.drained who))) := by
  unfold State.wroteOf
  simp only [h.1, if_true]
  rw [Clear.accessed (by exact h.2.2) (coreOfWho_lt who)]
  simp [State.hingeGrant, State.accessOf, State.completes, Transfer.lost, State.drained]

/-- The same of a word that does not depend on them. -/
theorem Reaches.wrote {s : State} {who : Who} {p v : Nat} (h : Reaches s who p true) :
    s.wrote who p v = (s.drained who).outPort (coreOfWho who) (s.accessor (coreOfWho who)) p (wordOf v) := h.wroteOf

/-- A read of a side that reaches the port has its effect on the port. -/
theorem Reaches.didRead {s : State} {who : Who} {p : Nat} (h : Reaches s who p false) :
    s.didRead who p = ((s.drained who).inPort (coreOfWho who) (s.accessor (coreOfWho who)) p).2 := by
  unfold State.didRead
  simp only [h.1, if_true]
  rw [Clear.accessed (by exact h.2.2) (coreOfWho_lt who)]
  simp [State.hingeGrant, State.accessOf, State.completes, State.toReg, Transfer.lost, State.drained]

end Sys2Proof.Machine
end

