-- ==== Sys2Proof/Laws/Memory.lean ====
section
/-! SUPPORT. Laws of the sparse byte memory: every operation keeps the canonical form, and reads see writes. -/

namespace Sys2Proof.Machine

theorem Mem.okFrom_mono (d : Nat → Byte) {lo hi : Nat} (h : lo ≤ hi) {m : Mem} (ok : Mem.okFrom d hi m = true) :
    Mem.okFrom d lo m = true := by
  cases m with
  | nil => rfl
  | cons p m =>
    simp only [Mem.okFrom, Bool.and_eq_true, decide_eq_true_eq] at ok ⊢
    exact ⟨⟨Nat.le_trans h ok.1.1, ok.1.2⟩, ok.2⟩

theorem Mem.okFrom_put (d : Nat → Byte) (m : Mem) (lo a : Nat) (b : Byte) (h : Mem.okFrom d lo m = true) (ha : lo ≤ a) :
    Mem.okFrom d lo (Mem.put d m a b) = true := by
  induction m generalizing lo with
  | nil => unfold Mem.put; split <;> simp_all [Mem.okFrom]
  | cons p m ih =>
    obtain ⟨k, c⟩ := p
    simp only [Mem.okFrom, Bool.and_eq_true, decide_eq_true_eq] at h
    obtain ⟨⟨hk, hc⟩, hm⟩ := h
    unfold Mem.put
    split
    · split
      · exact Mem.okFrom_mono d (by omega) hm
      · subst_vars; simp_all [Mem.okFrom]
    · split
      · split
        · simp_all [Mem.okFrom]
        · rename_i h1 h2 h3
          simp only [Mem.okFrom, Bool.and_eq_true, decide_eq_true_eq]
          exact ⟨⟨ha, h3⟩, ⟨by omega, hc⟩, hm⟩
      · simp only [Mem.okFrom, Bool.and_eq_true, decide_eq_true_eq]
        exact ⟨⟨hk, hc⟩, ih (k + 1) hm (by omega)⟩

/-- Storing a byte keeps the canonical form. -/
theorem Mem.wf_put (d : Nat → Byte) (m : Mem) (a : Nat) (b : Byte) (h : Mem.wf d m = true) : Mem.wf d (Mem.put d m a b) = true :=
  Mem.okFrom_put d m 0 a b h (Nat.zero_le a)

/-- Storing bytes keeps the canonical form. -/
theorem Mem.wf_puts (d : Nat → Byte) (l : List Byte) (m : Mem) (a : Nat) (h : Mem.wf d m = true) :
    Mem.wf d (Mem.puts d m a l) = true := by
  induction l generalizing m a with
  | nil => exact h
  | cons b l ih => exact ih _ _ (Mem.wf_put d m a b h)

/-- Storing a unit keeps the canonical form. -/
theorem Mem.wf_putUnit (d : Nat → Byte) (m : Mem) (a n v : Nat) (h : Mem.wf d m = true) : Mem.wf d (Mem.putUnit d m a n v) = true :=
  Mem.wf_puts d _ m a h

theorem Mem.okFrom_filter (d : Nat → Byte) (p : Host.Cell → Bool) (m : Mem) (lo : Nat) (h : Mem.okFrom d lo m = true) :
    Mem.okFrom d lo (m.filter p) = true := by
  induction m generalizing lo with
  | nil => rfl
  | cons x m ih =>
    obtain ⟨k, c⟩ := x
    simp only [Mem.okFrom, Bool.and_eq_true, decide_eq_true_eq] at h
    rw [List.filter_cons]
    split
    · simp only [Mem.okFrom, Bool.and_eq_true, decide_eq_true_eq]
      exact ⟨h.1, ih _ h.2⟩
    · exact Mem.okFrom_mono d (by omega) (ih _ h.2)

/-- Clearing a range keeps the canonical form. -/
theorem Mem.wf_clear (d : Nat → Byte) (m : Mem) (a b : Nat) (h : Mem.wf d m = true) : Mem.wf d (m.clear a b) = true :=
  Mem.okFrom_filter d _ m 0 h

@[simp] theorem Mem.wf_nil (d : Nat → Byte) : Mem.wf d [] = true := rfl

/-- Below every listed address a byte reads as unlisted. -/
theorem Mem.get_below (d : Nat → Byte) (m : Mem) (lo a : Nat) (h : Mem.okFrom d lo m = true) (ha : a < lo) : Mem.get d m a = d a := by
  cases m with
  | nil => rfl
  | cons p m =>
    obtain ⟨k, c⟩ := p
    simp only [Mem.okFrom, Bool.and_eq_true, decide_eq_true_eq] at h
    have : a ≠ k := by omega
    have h2 : a < k := by omega
    simp [Mem.get, this, h2]

/-- A read of one byte after a store of one byte. -/
theorem Mem.get_put (d : Nat → Byte) (m : Mem) (lo a x : Nat) (b : Byte) (h : Mem.okFrom d lo m = true) :
    Mem.get d (Mem.put d m a b) x = if x = a then b else Mem.get d m x := by
  induction m generalizing lo with
  | nil =>
    unfold Mem.put
    split
    · rename_i hb; simp only [Mem.get]; split <;> simp_all
    · simp only [Mem.get]; split
      · rfl
      · simp
  | cons p m ih =>
    obtain ⟨k, c⟩ := p
    simp only [Mem.okFrom, Bool.and_eq_true, decide_eq_true_eq] at h
    obtain ⟨⟨hk, hc⟩, hm⟩ := h
    unfold Mem.put
    split
    · subst_vars
      split
      · subst_vars
        by_cases hx : x = k
        · subst hx; simp [Mem.get_below d m (x + 1) x hm (by omega)]
        · simp only [hx, if_false, Mem.get]
          split
          · exact Mem.get_below d m (k + 1) x hm (by omega)
          · rfl
      · by_cases hx : x = k
        · simp [Mem.get, hx]
        · simp [Mem.get, hx]
    · split
      · split
        · by_cases hx : x = a
          · subst hx
            have : x ≠ k := by omega
            simp_all [Mem.get]
          · simp [hx]
        · by_cases hx : x = a
          · simp [Mem.get, hx]
          · simp only [hx, if_false, Mem.get]
            split
            · have h1 : x ≠ k := by omega
              have h2 : x < k := by omega
              simp [h1, h2]
            · rfl
      · simp only [Mem.get, ih (k + 1) hm]
        by_cases hx : x = k
        · have : k ≠ a := by omega
          simp [hx, this]
        · by_cases h2 : x < k
          · have : x ≠ a := by omega
            simp [hx, h2, this]
          · simp [hx, h2]

/-- A store leaves every other byte alone. -/
theorem Mem.get_put_ne (d : Nat → Byte) (m : Mem) (a x : Nat) (b : Byte) (h : Mem.wf d m = true) (hx : x ≠ a) :
    Mem.get d (Mem.put d m a b) x = Mem.get d m x := by simp [Mem.get_put d m 0 a x b h, hx]

/-- Bytes outside a stored range are left alone. -/
theorem Mem.get_puts_out (d : Nat → Byte) (l : List Byte) (m : Mem) (a x : Nat) (h : Mem.wf d m = true)
    (hx : x < a ∨ a + l.length ≤ x) : Mem.get d (Mem.puts d m a l) x = Mem.get d m x := by
  induction l generalizing m a with
  | nil => rfl
  | cons b l ih =>
    simp only [List.length_cons] at hx
    rw [Mem.puts, ih _ _ (Mem.wf_put d m a b h) (by omega), Mem.get_put_ne d m a x b h (by omega)]

theorem leBytes_length (n v : Nat) : (leBytes n v).length = n := by
  induction n generalizing v with
  | zero => rfl
  | succ n ih => simp [leBytes, ih]

/-- Bytes outside a stored unit are left alone. -/
theorem Mem.get_putUnit_out (d : Nat → Byte) (m : Mem) (a n v x : Nat) (h : Mem.wf d m = true) (hx : x < a ∨ a + n ≤ x) :
    Mem.get d (Mem.putUnit d m a n v) x = Mem.get d m x :=
  Mem.get_puts_out d _ m a x h (by rw [leBytes_length]; exact hx)

theorem leNat_leBytes (n v : Nat) : leNat (leBytes n v) = v % 256 ^ n := by
  induction n generalizing v with
  | zero => simp [leBytes, leNat, Nat.mod_one]
  | succ n ih =>
    have h : v % 256 ^ (n + 1) = v % 256 + 256 * (v / 256 % 256 ^ n) := by
      rw [Nat.pow_succ', Nat.mod_mul]
    simp [leBytes, leNat, ih, h]

/-- A read of the bytes just stored. -/
theorem Mem.gets_puts (d : Nat → Byte) (l : List Byte) (m : Mem) (a : Nat) (h : Mem.wf d m = true) :
    Mem.gets d (Mem.puts d m a l) a l.length = l := by
  induction l generalizing m a with
  | nil => rfl
  | cons b l ih =>
    simp only [Mem.puts, List.length_cons, Mem.gets, ih _ _ (Mem.wf_put d m a b h)]
    rw [Mem.get_puts_out d l _ _ _ (Mem.wf_put d m a b h) (by omega), Mem.get_put d m 0 a a b h]
    simp

/-- A unit reads as it was stored. -/
theorem Mem.unit_putUnit (d : Nat → Byte) (m : Mem) (a n v : Nat) (h : Mem.wf d m = true) :
    Mem.unit d (Mem.putUnit d m a n v) a n = v % 256 ^ n := by
  have := Mem.gets_puts d (leBytes n v) m a h
  rw [leBytes_length] at this
  unfold Mem.unit Mem.putUnit
  rw [this, leNat_leBytes]

end Sys2Proof.Machine
end

