-- ==== Sys2Proof/Laws/Keeps.lean ====
section
/-! SUPPORT. What no shared operation does: touch the queue of waiting commands, or leave a memory out of its canonical
form. `Keeps s t` says both of a way from `s` to `t`, and each operation has one lemma. -/

set_option linter.unusedSimpArgs false

namespace Sys2Proof.Machine

/-- From `s` to `t` the queue stands and the memories keep their form. -/
def Keeps (s t : State) : Prop := t.pending = s.pending ∧ (s.memOk → t.memOk)

theorem Keeps.refl (s : State) : Keeps s s := ⟨rfl, id⟩

theorem Keeps.trans {s t u : State} (h : Keeps s t) (g : Keeps t u) : Keeps s u := ⟨g.1.trans h.1, fun m => g.2 (h.2 m)⟩

/-- A state that has the same queue and memories. -/
theorem Keeps.of_eq {s t u : State} (h : Keeps s t) (hp : u.pending = t.pending) (hm : u.mems = t.mems)
    (hg : u.gran.mem = t.gran.mem) (hf : u.fur.mem = t.fur.mem) (hs : u.sdb.mem = t.sdb.mem) : Keeps s u :=
  ⟨hp.trans h.1, fun m => by have := h.2 m; unfold State.memOk at *; rw [hm, hg, hf, hs]; exact this⟩

/-- A record update that leaves the queue and the memories. -/
theorem Keeps.mk {s u : State} (sys : Sys) (up : List Fn) (down : List Fn) (jtag : JtagPort) (con : Console) (ses : Vector Session 16) (jrn : Journal) (hnd : Handles) (cal : Calendar) (led : Ledger) (ring : Ring) (hng : Hinge) (bays : Bays) (env : Env) (keys : Keys) (face : Face) (tags : Tags) (fans : Fans) (sow : Sower) (plots : Vector Plot 16) (spi : Spi) :
    Keeps s { pending := u.pending, sys := sys, up := up, down := down, jtag := jtag, con := con, ses := ses, jrn := jrn, hnd := hnd, fur := u.fur, sdb := u.sdb, cal := cal, led := led, ring := ring, hng := hng, bays := bays, env := env, keys := keys, face := face, tags := tags, fans := fans, sow := sow, gran := u.gran, plots := plots, spi := spi, mems := u.mems } ↔ Keeps s u := Iff.rfl

/-- A record update that leaves the queue, the furrow and the seedbank, and keeps the form of every other memory. -/
theorem Keeps.mkMems {s u : State} (gran : Granary) (mems : Mems) (sys : Sys) (up : List Fn) (down : List Fn) (jtag : JtagPort) (con : Console) (ses : Vector Session 16) (jrn : Journal) (hnd : Handles) (cal : Calendar) (led : Ledger) (ring : Ring) (hng : Hinge) (bays : Bays) (env : Env) (keys : Keys) (face : Face) (tags : Tags) (fans : Fans) (sow : Sower) (plots : Vector Plot 16) (spi : Spi) (h : Keeps s u)
    (hd : Mem.wf zeroByte u.mems.data = true → Mem.wf zeroByte mems.data = true)
    (hp : Mem.wf zeroByte u.mems.plotRam = true → Mem.wf zeroByte mems.plotRam = true)
    (hl : Mem.wf zeroByte u.mems.latch = true → Mem.wf zeroByte mems.latch = true)
    (hi : Mem.wf Config.latchIram u.mems.iram = true → Mem.wf Config.latchIram mems.iram = true)
    (hf : Mem.wf erased u.mems.flash = true → Mem.wf erased mems.flash = true)
    (hg : Mem.wf zeroByte u.gran.mem = true → Mem.wf zeroByte gran.mem = true) :
    Keeps s { pending := u.pending, sys := sys, up := up, down := down, jtag := jtag, con := con, ses := ses, jrn := jrn, hnd := hnd, fur := u.fur, sdb := u.sdb, cal := cal, led := led, ring := ring, hng := hng, bays := bays, env := env, keys := keys, face := face, tags := tags, fans := fans, sow := sow, gran := gran, plots := plots, spi := spi, mems := mems } :=
  ⟨h.1, fun m => by
    obtain ⟨a, b, c, d, e, f, g, i⟩ := h.2 m
    exact ⟨hd a, hp b, hl c, hi d, hf e, hg f, g, i⟩⟩

theorem Keeps.ite {s t u : State} {c : Prop} [Decidable c] (h : Keeps s t) (g : Keeps s u) : Keeps s (if c then t else u) := by
  split <;> assumption

theorem Keeps.ite_snd {α : Type} {s : State} {t u : α × State} {c : Prop} [Decidable c] (h : Keeps s t.2) (g : Keeps s u.2) :
    Keeps s (if c then t else u).2 := by
  split <;> assumption

theorem Keeps.snd_of {α : Type} {s t : State} {a : α} {r : α × State} (e : r = (a, t)) (h : Keeps s r.2) : Keeps s t := by
  subst e; exact h

theorem Keeps.fst_of {α : Type} {s t : State} {a : α} {r : State × α} (e : r = (t, a)) (h : Keeps s r.1) : Keeps s t := by
  subst e; exact h

theorem Keeps.foldl {α : Type} {s u : State} (l : List α) (f : State → α → State) (h : Keeps s u)
    (hf : ∀ v x, Keeps s v → Keeps s (f v x)) : Keeps s (l.foldl f u) := by
  induction l generalizing u with
  | nil => exact h
  | cons x l ih => exact ih (hf u x h)

theorem Keeps.foldl_fst {α β : Type} {s : State} {r : State × β} (l : List α) (f : State × β → α → State × β) (h : Keeps s r.1)
    (hf : ∀ p x, Keeps s p.1 → Keeps s (f p x).1) : Keeps s (l.foldl f r).1 := by
  induction l generalizing r with
  | nil => exact h
  | cons x l ih => exact ih (hf r x h)

theorem Keeps.foldl_snd {α β : Type} {s : State} {r : β × State} (l : List α) (f : β × State → α → β × State) (h : Keeps s r.2)
    (hf : ∀ p x, Keeps s p.2 → Keeps s (f p x).2) : Keeps s (l.foldl f r).2 := by
  induction l generalizing r with
  | nil => exact h
  | cons x l ih => exact ih (hf r x h)

theorem Keeps.foldr {α : Type} {s u : State} (l : List α) (f : α → State → State) (h : Keeps s u)
    (hf : ∀ v x, Keeps s v → Keeps s (f x v)) : Keeps s (l.foldr f u) := by
  induction l with
  | nil => exact h
  | cons x l ih => exact hf _ x ih

@[simp] theorem Seedbank.setEnv_mem (d : Seedbank) (w : EnvWord) (v : Nat) : (d.setEnv w v).mem = d.mem := by cases w <;> rfl
@[simp] theorem Seedbank.modTen_mem (d : Seedbank) (t : Nat) (f : TenSet → TenSet) : (d.modTen t f).mem = d.mem := rfl
@[simp] theorem Seedbank.load0_mem (d : Seedbank) (l : Option (List Byte)) : (d.load0 l).mem = d.mem := by
  unfold Seedbank.load0; split <;> rfl
@[simp] theorem Granary.setBit_mem (g : Granary) (p i : Nat) (b : Bool) : (g.setBit p i b).mem = g.mem := by
  unfold Granary.setBit; split <;> rfl
theorem Granary.takeFrom_mem (g : Granary) (r : Nat) (l : List Nat) (x : Word × Granary) (h : g.takeFrom r l = some x) :
    x.2.mem = g.mem := by
  induction l with
  | nil => cases h
  | cons p l ih =>
    unfold Granary.takeFrom at h
    split at h
    · split at h
      · cases h; simp
      · exact ih h
    · exact ih h
@[simp] theorem Granary.take_mem (g : Granary) (r sl : Nat) : (g.take r sl).2.mem = g.mem := by
  unfold Granary.take
  dsimp only
  split
  · exact Granary.takeFrom_mem _ _ _ _ (by assumption)
  · rfl
@[simp] theorem Granary.give_mem (g : Granary) (r : Nat) (a : Word) : (g.give r a).mem = g.mem := by simp [Granary.give]
@[simp] theorem Granary.setMode_mem (g : Granary) (b : Bool) : (g.setMode b).mem = g.mem := by unfold Granary.setMode; split <;> rfl
@[simp] theorem Granary.setQuota_mem (g : Granary) (r p v : Nat) : (g.setQuota r p v).mem = g.mem := rfl
@[simp] theorem Granary.setMin_mem (g : Granary) (r p v : Nat) : (g.setMin r p v).mem = g.mem := by
  unfold Granary.setMin; dsimp only; split; · rfl
  split <;> rfl
theorem Granary.foldl_mem {α : Type} (l : List α) (f : Granary → α → Granary) (g : Granary) (h : ∀ g x, (f g x).mem = g.mem) :
    (l.foldl f g).mem = g.mem := by
  induction l generalizing g with
  | nil => rfl
  | cons x l ih => rw [List.foldl_cons, ih, h]
@[simp] theorem Granary.gives_mem (l : List Word) (r : Nat) (g : Granary) : (l.foldl (fun g w => g.give r w) g).mem = g.mem :=
  Granary.foldl_mem _ _ _ fun g w => Granary.give_mem g r w
@[simp] theorem Granary.setMinima_mem (g : Granary) : g.setMinima.mem = g.mem := by
  unfold Granary.setMinima
  refine Granary.foldl_mem _ _ _ fun g x => ?_
  split
  · exact Granary.foldl_mem _ _ _ fun g y => by simp
  · simp
@[simp] theorem State.setQuotas_mem (s : State) (g : Granary) : (s.setQuotas g).mem = g.mem := by
  unfold State.setQuotas
  refine Granary.foldl_mem _ _ _ fun g x => ?_
  dsimp only
  split
  · exact Granary.foldl_mem _ _ _ fun g y => by simp
  · simp

theorem State.draw_keeps {s u : State} (h : Keeps s u) : Keeps s (State.draw u).2 := by
  unfold State.draw
  try dsimp only
  repeat' (first | with_reducible assumption | (intro) | with_reducible apply Keeps.ite | with_reducible apply Keeps.ite_snd | with_reducible apply Keeps.foldl | split | simp only [Keeps.mk])

theorem State.freeCheck_keeps {s u : State} (h : Keeps s u) : Keeps s (State.freeCheck u).2 := by
  unfold State.freeCheck
  try dsimp only
  repeat' (first | with_reducible assumption | (intro) | with_reducible apply State.draw_keeps)

theorem State.modCon_keeps {s u : State} (h : Keeps s u) (f : Console → Console) : Keeps s (State.modCon u f) := by
  unfold State.modCon
  try dsimp only
  repeat' (first | with_reducible assumption | (intro) | with_reducible apply Keeps.ite | with_reducible apply Keeps.ite_snd | with_reducible apply Keeps.foldl | split | simp only [Keeps.mk])

theorem State.modRing_keeps {s u : State} (h : Keeps s u) (f : Ring → Ring) : Keeps s (State.modRing u f) := by
  unfold State.modRing
  try dsimp only
  repeat' (first | with_reducible assumption | (intro) | with_reducible apply Keeps.ite | with_reducible apply Keeps.ite_snd | with_reducible apply Keeps.foldl | split | simp only [Keeps.mk])

theorem State.modSes_keeps {s u : State} (h : Keeps s u) (k : ℕ) (f : Session → Session) : Keeps s (State.modSes u k f) := by
  unfold State.modSes
  try dsimp only
  repeat' (first | with_reducible assumption | (intro) | with_reducible apply Keeps.ite | with_reducible apply Keeps.ite_snd | with_reducible apply Keeps.foldl | split | simp only [Keeps.mk])

theorem State.pushOut_keeps {s u : State} (h : Keeps s u) (o : Out) : Keeps s (State.pushOut u o) := by
  unfold State.pushOut
  try dsimp only
  repeat' (first | with_reducible assumption | (intro) | with_reducible apply State.modCon_keeps | with_reducible apply Keeps.ite)

theorem State.pushLine_keeps {s u : State} (h : Keeps s u) (t : String) : Keeps s (State.pushLine u t) := by
  unfold State.pushLine
  try dsimp only
  repeat' (first | with_reducible assumption | (intro) | with_reducible apply State.pushOut_keeps)

theorem State.echo_keeps {s u : State} (h : Keeps s u) (t : String) : Keeps s (State.echo u t) := by
  unfold State.echo
  try dsimp only
  repeat' (first | with_reducible assumption | (intro) | with_reducible apply State.modCon_keeps | with_reducible apply Keeps.ite)

theorem State.pushFrame_keeps {s u : State} (h : Keeps s u) (f : Frame) (done : Option (ℕ × ℕ)) : Keeps s (State.pushFrame u f done) := by
  unfold State.pushFrame
  try dsimp only
  repeat' (first | with_reducible assumption | (intro) | with_reducible apply State.modRing_keeps)

theorem State.pushHeld_keeps {s u : State} (h : Keeps s u) (o : Out) (done : Option (ℕ × ℕ)) : Keeps s (State.pushHeld u o done) := by
  unfold State.pushHeld
  try dsimp only
  repeat' (first | with_reducible assumption | (intro) | with_reducible apply State.pushOut_keeps | with_reducible apply State.modCon_keeps | with_reducible apply Keeps.ite)

theorem State.emitFor_keeps {s u : State} (h : Keeps s u) (k : ℕ) (t : String) (done : Option (ℕ × ℕ)) : Keeps s (State.emitFor u k t done) := by
  unfold State.emitFor
  try dsimp only
  repeat' (first | with_reducible assumption | (intro) | with_reducible apply State.pushHeld_keeps | with_reducible apply State.pushFrame_keeps | with_reducible apply Keeps.ite)

theorem State.emit_keeps {s u : State} (h : Keeps s u) (k : ℕ) (t : String) : Keeps s (State.emit u k t) := by
  unfold State.emit
  try dsimp only
  repeat' (first | with_reducible assumption | (intro) | with_reducible apply State.emitFor_keeps)

theorem State.toHead_keeps {s u : State} (h : Keeps s u) (t : String) : Keeps s (State.toHead u t) := by
  unfold State.toHead
  try dsimp only
  repeat' (first | with_reducible assumption | (intro) | with_reducible apply State.modRing_keeps | with_reducible apply Keeps.ite | with_reducible apply Keeps.ite_snd | with_reducible apply Keeps.foldl | split)

theorem State.notice_keeps {s u : State} (h : Keeps s u) (t : String) : Keeps s (State.notice u t) := by
  unfold State.notice
  try dsimp only
  repeat' (first | with_reducible assumption | (intro) | with_reducible apply State.pushLine_keeps | with_reducible apply State.modCon_keeps | with_reducible apply State.toHead_keeps | with_reducible apply Keeps.ite)

theorem State.announce_keeps {s u : State} (h : Keeps s u) (f : Fn) (t : String) : Keeps s (State.announce u f t) := by
  unfold State.announce
  try dsimp only
  repeat' (first | with_reducible assumption | (intro) | with_reducible apply State.notice_keeps | with_reducible apply Keeps.ite | with_reducible apply Keeps.ite_snd | with_reducible apply Keeps.foldl | split | simp only [Keeps.mk])

theorem State.isDown_keeps {s u : State} (h : Keeps s u) (f : Fn) (t : String) : Keeps s (State.isDown u f t) := by
  unfold State.isDown
  try dsimp only
  repeat' (first | with_reducible assumption | (intro) | with_reducible apply State.notice_keeps | with_reducible apply Keeps.ite | with_reducible apply Keeps.ite_snd | with_reducible apply Keeps.foldl | split | simp only [Keeps.mk])

theorem State.reply_keeps {s u : State} (h : Keeps s u) (q : Src) (t : String) : Keeps s (State.reply u q t) := by
  unfold State.reply
  try dsimp only
  repeat' (first | with_reducible assumption | (intro) | with_reducible apply State.emit_keeps)

theorem State.more_keeps {s u : State} (h : Keeps s u) (q : Src) (t : String) : Keeps s (State.more u q t) := by
  unfold State.more
  try dsimp only
  repeat' (first | with_reducible assumption | (intro) | with_reducible apply State.emit_keeps)

theorem State.mores_keeps {s u : State} (h : Keeps s u) (q : Src) (l : List String) : Keeps s (State.mores u q l) := by
  unfold State.mores
  try dsimp only
  repeat' (first | with_reducible assumption | (intro) | with_reducible apply State.more_keeps | with_reducible apply Keeps.ite | with_reducible apply Keeps.ite_snd | with_reducible apply Keeps.foldl)

theorem State.replyRate_keeps {s u : State} (h : Keeps s u) (q : Src) (t : String) : Keeps s (State.replyRate u q t) := by
  unfold State.replyRate
  try dsimp only
  repeat' (first | with_reducible assumption | (intro) | with_reducible apply State.pushHeld_keeps | with_reducible apply State.reply_keeps | with_reducible apply Keeps.ite)

theorem State.busy_keeps {s u : State} (h : Keeps s u) (q : Src) : Keeps s (State.busy u q) := by
  unfold State.busy
  try dsimp only
  repeat' (first | with_reducible assumption | (intro) | with_reducible apply State.reply_keeps)

theorem State.ignore_keeps {s u : State} (h : Keeps s u) (k : ℕ) : Keeps s (State.ignore u k) := by
  unfold State.ignore
  try dsimp only
  repeat' (first | with_reducible assumption | (intro) | with_reducible apply State.modSes_keeps)

theorem State.endLine_keeps {s u : State} (h : Keeps s u) : Keeps s (State.endLine u) := by
  unfold State.endLine
  try dsimp only
  repeat' (first | with_reducible assumption | (intro) | with_reducible apply State.echo_keeps | with_reducible apply State.modCon_keeps)

theorem State.editChar_keeps {s u : State} (h : Keeps s u) (b : Byte) : Keeps s (State.editChar u b) := by
  unfold State.editChar
  try dsimp only
  repeat' (first | with_reducible assumption | (intro) | with_reducible apply State.modCon_keeps | with_reducible apply State.echo_keeps | with_reducible apply State.endLine_keeps | with_reducible apply Keeps.ite)

theorem State.flowPoints_keeps {s u : State} (h : Keeps s u) : Keeps s (State.flowPoints u) := by
  unfold State.flowPoints
  try dsimp only
  repeat' (first | with_reducible assumption | (intro) | with_reducible apply State.modCon_keeps | with_reducible apply Keeps.ite)

theorem State.pump_keeps {s u : State} (h : Keeps s u) (n : Nat) : Keeps s (State.pump n u) := by
  induction n generalizing u with
  | zero => exact h
  | succ n ih =>
    unfold State.pump
    repeat' (first | exact h | assumption | with_reducible apply ih | with_reducible apply State.flowPoints_keeps | with_reducible apply State.editChar_keeps | with_reducible apply State.modCon_keeps | with_reducible apply Keeps.ite | split)

theorem State.afterLine_keeps {s u : State} (h : Keeps s u) (k : ℕ) : Keeps s (State.afterLine u k) := by
  unfold State.afterLine
  try dsimp only
  repeat' (first | with_reducible assumption | (intro) | with_reducible apply State.pump_keeps | with_reducible apply Keeps.ite)

theorem State.nextLine_keeps {s u : State} (h : Keeps s u) (k : ℕ) : Keeps s (State.nextLine u k).2 := by
  unfold State.nextLine
  try dsimp only
  repeat' (first | with_reducible assumption | (intro) | with_reducible apply State.modCon_keeps | with_reducible apply State.modRing_keeps | with_reducible apply Keeps.ite | with_reducible apply Keeps.ite_snd)

theorem State.ringEcho_keeps {s u : State} (h : Keeps s u) (k : ℕ) (line : Option String) : Keeps s (State.ringEcho u k line) := by
  unfold State.ringEcho
  try dsimp only
  repeat' (first | with_reducible assumption | (intro) | with_reducible apply State.emit_keeps | with_reducible apply Keeps.ite | with_reducible apply Keeps.ite_snd | with_reducible apply Keeps.foldl | split)

theorem State.runLine_keeps {s u : State} (h : Keeps s u) (q : Src) (c : Instr) (ok : State → Bool) (body : State → State) (hbody : ∀ v, Keeps s v → Keeps s (body v)) : Keeps s (State.runLine u q c ok body) := by
  unfold State.runLine
  try dsimp only
  repeat' (first | with_reducible assumption | (intro) | with_reducible apply hbody | with_reducible apply State.nextLine_keeps | with_reducible apply State.afterLine_keeps | with_reducible apply State.ringEcho_keeps | with_reducible apply State.ignore_keeps | with_reducible apply Keeps.ite)

theorem State.modFur_keeps {s u : State} (h : Keeps s u) (f : Furrow → Furrow) (g : ∀ x : Furrow, Mem.wf zeroByte x.mem = true → Mem.wf zeroByte (f x).mem = true := by intro _ hx; first | exact hx | simp_all) :
    Keeps s (u.modFur f) :=
  ⟨h.1, fun m => by
    have := h.2 m; unfold State.memOk at *; simp only [State.modFur_mems, State.modFur_gran, State.modFur_fur, State.modFur_sdb]
    exact ⟨this.1, this.2.1, this.2.2.1, this.2.2.2.1, this.2.2.2.2.1, this.2.2.2.2.2.1, g _ this.2.2.2.2.2.2.1, this.2.2.2.2.2.2.2⟩⟩

theorem State.furStore_keeps {s u : State} (h : Keeps s u) (line : ℕ) (b : List Byte) : Keeps s (State.furStore u line b) := by
  unfold State.furStore
  try dsimp only
  repeat' (first | with_reducible assumption | (intro) | with_reducible apply State.modFur_keeps | with_reducible apply Keeps.ite | with_reducible apply Keeps.ite_snd | with_reducible apply Keeps.foldl | split | simp only [Keeps.mk] | (refine Keeps.snd_of (by assumption) ?_) | (refine Keeps.fst_of (by assumption) ?_) | dsimp only | (simp only [Granary.give_mem, Granary.take_mem, Seedbank.setEnv_mem, Seedbank.modTen_mem]) | with_reducible apply Mem.wf_puts)

theorem State.furCount_keeps {s u : State} (h : Keeps s u) : Keeps s (State.furCount u) := by
  unfold State.furCount
  try dsimp only
  repeat' (first | with_reducible assumption | (intro) | with_reducible apply State.modFur_keeps)

theorem State.furPut_keeps {s u : State} (h : Keeps s u) (line : ℕ) (b : List Byte) : Keeps s (State.furPut u line b) := by
  unfold State.furPut
  try dsimp only
  repeat' (first | with_reducible assumption | (intro) | with_reducible apply State.modFur_keeps)

theorem State.furDamage_keeps {s u : State} (h : Keeps s u) (line : ℕ) : Keeps s (State.furDamage u line) := by
  unfold State.furDamage
  try dsimp only
  repeat' (first | with_reducible assumption | (intro) | with_reducible apply State.draw_keeps | with_reducible apply State.furStore_keeps)

theorem State.furFailed_keeps {s u : State} (h : Keeps s u) : Keeps s (State.furFailed u) := by
  unfold State.furFailed
  try dsimp only
  repeat' (first | with_reducible assumption | (intro) | with_reducible apply State.modFur_keeps)

theorem State.furPatch_keeps {s u : State} (h : Keeps s u) (line : ℕ) (off : ℕ) (b : List Byte) : Keeps s (State.furPatch u line off b) := by
  unfold State.furPatch
  try dsimp only
  repeat' (first | with_reducible assumption | (intro) | with_reducible apply State.furPut_keeps)

theorem State.furCmd_keeps {s u : State} (h : Keeps s u) (v : ℕ) : Keeps s (State.furCmd u v) := by
  unfold State.furCmd
  try dsimp only
  repeat' (first | with_reducible assumption | (intro) | with_reducible apply State.modFur_keeps | with_reducible apply State.furCount_keeps | with_reducible apply Keeps.ite)

theorem State.furPortDone_keeps {s u : State} (h : Keeps s u) (verified : Bool) : Keeps s (State.furPortDone u verified) := by
  unfold State.furPortDone
  try dsimp only
  repeat' (first | with_reducible assumption | (intro) | with_reducible apply State.modFur_keeps | with_reducible apply State.furStore_keeps | with_reducible apply State.furFailed_keeps | with_reducible apply State.furDamage_keeps | with_reducible apply Keeps.ite | with_reducible apply Keeps.ite_snd | with_reducible apply Keeps.foldl | split)

theorem State.modJrn_keeps {s u : State} (h : Keeps s u) (f : Journal → Journal) : Keeps s (State.modJrn u f) := by
  unfold State.modJrn
  try dsimp only
  repeat' (first | with_reducible assumption | (intro) | with_reducible apply Keeps.ite | with_reducible apply Keeps.ite_snd | with_reducible apply Keeps.foldl | split | simp only [Keeps.mk])

theorem State.enqueue_keeps {s u : State} (h : Keeps s u) (r : Rec) : Keeps s (State.enqueue u r) := by
  unfold State.enqueue
  try dsimp only
  repeat' (first | with_reducible assumption | (intro) | with_reducible apply State.modJrn_keeps)

theorem State.journalStart_keeps {s u : State} (h : Keeps s u) : Keeps s (State.journalStart u) := by
  unfold State.journalStart
  try dsimp only
  repeat' (first | with_reducible assumption | (intro) | with_reducible apply State.furCount_keeps | with_reducible apply State.modJrn_keeps | with_reducible apply Keeps.ite | with_reducible apply Keeps.ite_snd | with_reducible apply Keeps.foldl | split)

theorem State.modSow_keeps {s u : State} (h : Keeps s u) (f : Sower → Sower) : Keeps s (State.modSow u f) := by
  unfold State.modSow
  try dsimp only
  repeat' (first | with_reducible assumption | (intro) | with_reducible apply Keeps.ite | with_reducible apply Keeps.ite_snd | with_reducible apply Keeps.foldl | split | simp only [Keeps.mk])

theorem State.modSys_keeps {s u : State} (h : Keeps s u) (f : Sys → Sys) : Keeps s (State.modSys u f) := by
  unfold State.modSys
  try dsimp only
  repeat' (first | with_reducible assumption | (intro) | with_reducible apply Keeps.ite | with_reducible apply Keeps.ite_snd | with_reducible apply Keeps.foldl | split | simp only [Keeps.mk])

theorem State.modTh_keeps {s u : State} (h : Keeps s u) (t : ℕ) (f : Thread → Thread) : Keeps s (State.modTh u t f) := by
  unfold State.modTh
  try dsimp only
  repeat' (first | with_reducible assumption | (intro) | with_reducible apply State.modSow_keeps)

theorem State.modCore_keeps {s u : State} (h : Keeps s u) (k : ℕ) (f : Core → Core) : Keeps s (State.modCore u k f) := by
  unfold State.modCore
  try dsimp only
  repeat' (first | with_reducible assumption | (intro) | with_reducible apply State.modSow_keeps)

theorem State.modQue_keeps {s u : State} (h : Keeps s u) (q : ℕ) (f : Queue → Queue) : Keeps s (State.modQue u q f) := by
  unfold State.modQue
  try dsimp only
  repeat' (first | with_reducible assumption | (intro) | with_reducible apply State.modSow_keeps)

theorem State.raised_keeps {s u : State} (h : Keeps s u) (q : ℕ) : Keeps s (State.raised u q) := by
  unfold State.raised
  try dsimp only
  repeat' (first | with_reducible assumption | (intro) | with_reducible apply State.modQue_keeps | with_reducible apply Keeps.ite)

theorem State.visible_keeps {s u : State} (h : Keeps s u) (q : ℕ) (words : List Word) : Keeps s (State.visible u q words) := by
  unfold State.visible
  try dsimp only
  repeat' (first | with_reducible assumption | (intro) | with_reducible apply State.raised_keeps | with_reducible apply State.modSow_keeps)

theorem State.await_keeps {s u : State} (h : Keeps s u) (q : ℕ) (c : Claimant) : Keeps s (State.await u q c) := by
  unfold State.await
  try dsimp only
  repeat' (first | with_reducible assumption | (intro) | with_reducible apply State.modSow_keeps)

theorem State.served_keeps {s u : State} (h : Keeps s u) (q : ℕ) : Keeps s (State.served u q) := by
  unfold State.served
  try dsimp only
  repeat' (first | with_reducible assumption | (intro) | with_reducible apply State.modSow_keeps)

theorem State.waitNoMore_keeps {s u : State} (h : Keeps s u) (kk : ℕ) (seq : ℕ) : Keeps s (State.waitNoMore u kk seq) := by
  unfold State.waitNoMore
  try dsimp only
  repeat' (first | with_reducible assumption | (intro) | with_reducible apply State.modSow_keeps)

theorem State.hwPost_keeps {s u : State} (h : Keeps s u) (q : ℕ) (c : Claimant) (words : List Word) : Keeps s (State.hwPost u q c words) := by
  unfold State.hwPost
  try dsimp only
  repeat' (first | with_reducible assumption | (intro) | with_reducible apply State.visible_keeps | with_reducible apply State.await_keeps | with_reducible apply Keeps.ite)

theorem State.lcPost_keeps {s u : State} (h : Keeps s u) (q : ℕ) (words : List Word) : Keeps s (State.lcPost u q words) := by
  unfold State.lcPost
  try dsimp only
  repeat' (first | with_reducible assumption | (intro) | with_reducible apply State.modSow_keeps | with_reducible apply State.hwPost_keeps | with_reducible apply Keeps.ite)

theorem State.stamped_keeps {s u : State} (h : Keeps s u) : Keeps s (State.stamped u) := by
  unfold State.stamped
  try dsimp only
  repeat' (first | with_reducible assumption | (intro) | with_reducible apply State.draw_keeps | with_reducible apply State.modSow_keeps)

theorem State.trace_keeps {s u : State} (h : Keeps s u) (k : ℕ) (event : ℕ) (t : ℕ) (q : ℕ) (flow : ℕ) (detail : ℕ) : Keeps s (State.trace u k event t q flow detail) := by
  unfold State.trace
  try dsimp only
  repeat' (first | with_reducible assumption | (intro) | with_reducible apply State.modSow_keeps | with_reducible apply State.stamped_keeps | with_reducible apply Keeps.ite)

theorem State.timed_keeps {s u : State} (h : Keeps s u) (sel : ℕ) : Keeps s (State.timed u sel) := by
  unfold State.timed
  try dsimp only
  repeat' (first | with_reducible assumption | (intro) | with_reducible apply State.draw_keeps | with_reducible apply State.modQue_keeps | with_reducible apply State.modCore_keeps | with_reducible apply Keeps.ite)

theorem State.takeUpItem_keeps {s u : State} (h : Keeps s u) (it : Item) : Keeps s (State.takeUpItem u it) := by
  unfold State.takeUpItem
  try dsimp only
  repeat' (first | with_reducible assumption | (intro) | with_reducible apply State.modSow_keeps | with_reducible apply State.modQue_keeps | with_reducible apply State.trace_keeps | with_reducible apply Keeps.ite)

theorem State.endItem_keeps {s u : State} (h : Keeps s u) (it : Item) : Keeps s (State.endItem u it) := by
  unfold State.endItem
  try dsimp only
  repeat' (first | with_reducible assumption | (intro) | with_reducible apply State.trace_keeps)

theorem State.serveItem_keeps {s u : State} (h : Keeps s u) (it : Item) : Keeps s (State.serveItem u it) := by
  unfold State.serveItem
  try dsimp only
  repeat' (first | with_reducible assumption | (intro) | with_reducible apply State.endItem_keeps | with_reducible apply State.takeUpItem_keeps)

theorem State.choose_keeps {s u : State} (h : Keeps s u) (k : ℕ) : Keeps s (State.choose u k).2 := by
  unfold State.choose
  try dsimp only
  repeat' (first | with_reducible assumption | (intro) | with_reducible apply State.modSow_keeps | with_reducible apply Keeps.ite | with_reducible apply Keeps.ite_snd)

theorem State.takePair_keeps {s u : State} (h : Keeps s u) (p : Pair) (st : TState) : Keeps s (State.takePair u p st) := by
  unfold State.takePair
  try dsimp only
  repeat' (first | with_reducible assumption | (intro) | with_reducible apply State.modSow_keeps | with_reducible apply State.modTh_keeps | with_reducible apply Keeps.ite | with_reducible apply Keeps.ite_snd | with_reducible apply Keeps.foldl | split)

theorem State.finishWait_keeps {s u : State} (h : Keeps s u) (t : ℕ) : Keeps s (State.finishWait u t) := by
  unfold State.finishWait
  try dsimp only
  repeat' (first | with_reducible assumption | (intro) | with_reducible apply State.modTh_keeps | with_reducible apply State.modSow_keeps | with_reducible apply State.visible_keeps | with_reducible apply Keeps.ite | with_reducible apply Keeps.ite_snd | with_reducible apply Keeps.foldl | split)

theorem State.ownEnter_keeps {s u : State} (h : Keeps s u) (t : ℕ) (addr : Word) : Keeps s (State.ownEnter u t addr) := by
  unfold State.ownEnter
  try dsimp only
  repeat' (first | with_reducible assumption | (intro) | with_reducible apply Keeps.ite | with_reducible apply Keeps.ite_snd | with_reducible apply Keeps.foldl | split | simp only [Keeps.mk] | (refine Keeps.snd_of (by assumption) ?_) | (refine Keeps.fst_of (by assumption) ?_) | dsimp only | (simp only [Granary.give_mem, Granary.take_mem, Seedbank.setEnv_mem, Seedbank.modTen_mem]) | with_reducible apply Mem.wf_puts | with_reducible apply Mem.wf_clear | (exact Mem.wf_nil _) | with_reducible apply Mem.wf_putUnit | with_reducible apply Keeps.mkMems)

theorem State.ownLeave_keeps {s u : State} (h : Keeps s u) (t : ℕ) (addr : Word) : Keeps s (State.ownLeave u t addr) := by
  unfold State.ownLeave
  try dsimp only
  repeat' (first | with_reducible assumption | (intro) | with_reducible apply Keeps.ite | with_reducible apply Keeps.ite_snd | with_reducible apply Keeps.foldl | split | simp only [Keeps.mk] | (refine Keeps.snd_of (by assumption) ?_) | (refine Keeps.fst_of (by assumption) ?_) | dsimp only | (simp only [Granary.give_mem, Granary.take_mem, Seedbank.setEnv_mem, Seedbank.modTen_mem]) | with_reducible apply Mem.wf_puts | with_reducible apply Mem.wf_clear | (exact Mem.wf_nil _) | with_reducible apply Mem.wf_putUnit | with_reducible apply Keeps.mkMems)

theorem State.enterBuffer_keeps {s u : State} (h : Keeps s u) (t : ℕ) (it : Item) : Keeps s (State.enterBuffer u t it) := by
  unfold State.enterBuffer
  try dsimp only
  repeat' (first | with_reducible assumption | (intro) | with_reducible apply State.ownEnter_keeps | with_reducible apply Keeps.ite)

theorem State.startPair_keeps {s u : State} (h : Keeps s u) (k : ℕ) (p : Pair) (sb : Bool) : Keeps s (State.startPair u k p sb) := by
  unfold State.startPair
  try dsimp only
  repeat' (first | with_reducible assumption | (intro) | with_reducible apply State.modTh_keeps | with_reducible apply State.modSow_keeps | with_reducible apply State.modCore_keeps | with_reducible apply State.modQue_keeps | with_reducible apply State.enterBuffer_keeps | with_reducible apply State.trace_keeps | with_reducible apply State.finishWait_keeps | with_reducible apply Keeps.ite | with_reducible apply Keeps.ite_snd | with_reducible apply Keeps.foldl | split | simp only [Keeps.mk])

theorem State.unprefetch_keeps {s u : State} (h : Keeps s u) (k : ℕ) (at_ : ℕ) (cause : ℕ) (discard : Bool) : Keeps s (State.unprefetch u k at_ cause discard) := by
  unfold State.unprefetch
  try dsimp only
  repeat' (first | with_reducible assumption | (intro) | with_reducible apply State.trace_keeps | with_reducible apply State.modCore_keeps | with_reducible apply State.modTh_keeps | with_reducible apply State.raised_keeps | with_reducible apply State.modSow_keeps | with_reducible apply Keeps.ite | with_reducible apply Keeps.ite_snd | with_reducible apply Keeps.foldl | split)

theorem State.unprefetchAll_keeps {s u : State} (h : Keeps s u) (at_ : ℕ) (cause : ℕ) : Keeps s (State.unprefetchAll u at_ cause) := by
  unfold State.unprefetchAll
  try dsimp only
  repeat' (first | with_reducible assumption | (intro) | with_reducible apply State.unprefetch_keeps | with_reducible apply Keeps.ite | with_reducible apply Keeps.ite_snd | with_reducible apply Keeps.foldl)

theorem State.dropOpen_keeps {s u : State} (h : Keeps s u) (t : ℕ) : Keeps s (State.dropOpen u t) := by
  unfold State.dropOpen
  try dsimp only
  repeat' (first | with_reducible assumption | (intro) | with_reducible apply State.modTh_keeps | with_reducible apply State.modSow_keeps)

theorem State.freeCore_keeps {s u : State} (h : Keeps s u) (k : ℕ) : Keeps s (State.freeCore u k) := by
  unfold State.freeCore
  try dsimp only
  repeat' (first | with_reducible assumption | (intro) | with_reducible apply State.modCore_keeps | with_reducible apply Keeps.ite | with_reducible apply Keeps.ite_snd | with_reducible apply Keeps.foldl | split | simp only [Keeps.mk])

theorem State.dropHeld_keeps {s u : State} (h : Keeps s u) (t : ℕ) : Keeps s (State.dropHeld u t) := by
  unfold State.dropHeld
  try dsimp only
  repeat' (first | with_reducible assumption | (intro) | with_reducible apply Keeps.ite | with_reducible apply Keeps.ite_snd | with_reducible apply Keeps.foldl | split | simp only [Keeps.mk])

theorem State.fence_keeps {s u : State} (h : Keeps s u) (t : ℕ) (k : ℕ) (parked : Bool) : Keeps s (State.fence u t k parked) := by
  unfold State.fence
  try dsimp only
  repeat' (first | with_reducible assumption | (intro) | with_reducible apply State.modTh_keeps | with_reducible apply State.dropHeld_keeps | with_reducible apply State.trace_keeps | with_reducible apply State.modSow_keeps | with_reducible apply Keeps.ite | with_reducible apply Keeps.ite_snd | with_reducible apply Keeps.foldl | split)

theorem State.holdsItem_keeps {s u : State} (h : Keeps s u) (t : ℕ) (it : Item) : Keeps s (State.holdsItem u t it) := by
  unfold State.holdsItem
  try dsimp only
  repeat' (first | with_reducible assumption | (intro) | with_reducible apply State.modTh_keeps | with_reducible apply State.modSow_keeps | with_reducible apply Keeps.ite | with_reducible apply Keeps.ite_snd | with_reducible apply Keeps.foldl | split | simp only [Keeps.mk])

theorem State.caught_keeps {s u : State} (h : Keeps s u) (t : ℕ) : Keeps s (State.caught u t) := by
  unfold State.caught
  try dsimp only
  repeat' (first | with_reducible assumption | (intro) | with_reducible apply State.draw_keeps | with_reducible apply State.holdsItem_keeps | with_reducible apply Keeps.ite | with_reducible apply Keeps.ite_snd | with_reducible apply Keeps.foldl | split)

theorem State.stopCore_keeps {s u : State} (h : Keeps s u) (k : ℕ) : Keeps s (State.stopCore u k) := by
  unfold State.stopCore
  try dsimp only
  repeat' (first | with_reducible assumption | (intro) | with_reducible apply State.unprefetch_keeps | with_reducible apply State.modCore_keeps | with_reducible apply State.caught_keeps | with_reducible apply State.modTh_keeps | with_reducible apply State.fence_keeps | with_reducible apply State.freeCore_keeps | with_reducible apply Keeps.ite | with_reducible apply Keeps.ite_snd | with_reducible apply Keeps.foldl | split)

theorem State.faultItem_keeps {s u : State} (h : Keeps s u) (k : ℕ) (q : ℕ) (words : List Word) : Keeps s (State.faultItem u k q words) := by
  unfold State.faultItem
  try dsimp only
  repeat' (first | with_reducible assumption | (intro) | with_reducible apply State.visible_keeps | with_reducible apply State.modSow_keeps | with_reducible apply State.await_keeps | with_reducible apply State.modSys_keeps | with_reducible apply State.stopCore_keeps | with_reducible apply Keeps.ite)

theorem State.trap_keeps {s u : State} (h : Keeps s u) (t : ℕ) (k : ℕ) (code : ℕ) (pc : ℕ) (save : ℕ) (detail : Word) : Keeps s (State.trap u t k code pc save detail) := by
  unfold State.trap
  try dsimp only
  repeat' (first | with_reducible assumption | (intro) | with_reducible apply State.caught_keeps | with_reducible apply State.modTh_keeps | with_reducible apply State.trace_keeps | with_reducible apply State.dropOpen_keeps | with_reducible apply State.fence_keeps | with_reducible apply State.freeCore_keeps | with_reducible apply State.faultItem_keeps | with_reducible apply Keeps.ite | with_reducible apply Keeps.ite_snd | with_reducible apply Keeps.foldl | split | simp only [Keeps.mk])

theorem State.modGran_keeps {s u : State} (h : Keeps s u) (f : Granary → Granary) (g : ∀ x : Granary, Mem.wf zeroByte x.mem = true → Mem.wf zeroByte (f x).mem = true := by intro _ hx; first | exact hx | simp_all) :
    Keeps s (u.modGran f) :=
  ⟨h.1, fun m => by
    have := h.2 m; unfold State.memOk at *; simp only [State.modGran_mems, State.modGran_gran, State.modGran_fur, State.modGran_sdb]
    exact ⟨this.1, this.2.1, this.2.2.1, this.2.2.2.1, this.2.2.2.2.1, g _ this.2.2.2.2.2.1, this.2.2.2.2.2.2.1, this.2.2.2.2.2.2.2⟩⟩

theorem State.modHnd_keeps {s u : State} (h : Keeps s u) (f : Handles → Handles) : Keeps s (State.modHnd u f) := by
  unfold State.modHnd
  try dsimp only
  repeat' (first | with_reducible assumption | (intro) | with_reducible apply Keeps.ite | with_reducible apply Keeps.ite_snd | with_reducible apply Keeps.foldl | split | simp only [Keeps.mk])

theorem State.modOpen_keeps {s u : State} (h : Keeps s u) (kk : ℕ) (seq : ℕ) (f : Handle → Handle) : Keeps s (State.modOpen u kk seq f) := by
  unfold State.modOpen
  try dsimp only
  repeat' (first | with_reducible assumption | (intro) | with_reducible apply State.modHnd_keeps)

theorem State.holdBuffer_keeps {s u : State} (h : Keeps s u) (kk : ℕ) (seq : ℕ) (a : Word) : Keeps s (State.holdBuffer u kk seq a) := by
  unfold State.holdBuffer
  try dsimp only
  repeat' (first | with_reducible assumption | (intro) | with_reducible apply State.modOpen_keeps | with_reducible apply State.ownEnter_keeps)

theorem State.claim_keeps {s u : State} (h : Keeps s u) (kk : ℕ) (seq : ℕ) (f : Form) : Keeps s (State.claim u kk seq f) := by
  unfold State.claim
  try dsimp only
  repeat' (first | with_reducible assumption | (intro) | with_reducible apply State.modOpen_keeps | with_reducible apply State.modGran_keeps | with_reducible apply State.holdBuffer_keeps | with_reducible apply Keeps.ite | with_reducible apply Keeps.ite_snd | with_reducible apply Keeps.foldl | split | simp only [Keeps.mk] | (refine Keeps.snd_of (by assumption) ?_) | (refine Keeps.fst_of (by assumption) ?_) | dsimp only | (simp only [Granary.give_mem, Granary.take_mem, Seedbank.setEnv_mem, Seedbank.modTen_mem]))

theorem State.unclaim_keeps {s u : State} (h : Keeps s u) (x1 : Handle) : Keeps s (State.unclaim u x1) := by
  unfold State.unclaim
  try dsimp only
  repeat' (first | with_reducible assumption | (intro) | with_reducible apply State.modGran_keeps | with_reducible apply State.ownLeave_keeps | with_reducible apply State.modOpen_keeps | with_reducible apply State.waitNoMore_keeps | with_reducible apply Keeps.ite | with_reducible apply Keeps.ite_snd | with_reducible apply Keeps.foldl | split | simp only [Keeps.mk] | (refine Keeps.snd_of (by assumption) ?_) | (refine Keeps.fst_of (by assumption) ?_) | dsimp only | (simp only [Granary.give_mem, Granary.take_mem, Seedbank.setEnv_mem, Seedbank.modTen_mem]))

theorem State.request_keeps {s u : State} (h : Keeps s u) (kk : ℕ) (seq : ℕ) (phase : RecPhase) : Keeps s (State.request u kk seq phase) := by
  unfold State.request
  try dsimp only
  repeat' (first | with_reducible assumption | (intro) | with_reducible apply State.enqueue_keeps | with_reducible apply Keeps.ite | with_reducible apply Keeps.ite_snd | with_reducible apply Keeps.foldl | split)

theorem State.nextCheck_keeps {s u : State} (h : Keeps s u) : Keeps s (State.nextCheck u).2 :=
  h.of_eq rfl rfl rfl rfl rfl

theorem State.ranked_keeps {s u : State} (h : Keeps s u) (kk : ℕ) (seq : ℕ) (f : Form) : Keeps s (State.ranked u kk seq f) := by
  unfold State.ranked
  try dsimp only
  repeat' (first | with_reducible assumption | (intro) | with_reducible apply State.nextCheck_keeps | with_reducible apply State.modOpen_keeps | with_reducible apply Keeps.ite)

theorem State.accept_keeps {s u : State} (h : Keeps s u) (ten : ℕ) (q : Src) (name : String) (form : Form) : Keeps s (State.accept u ten q name form) := by
  unfold State.accept
  try dsimp only
  repeat' (first | with_reducible assumption | (intro) | with_reducible apply State.modHnd_keeps | with_reducible apply State.request_keeps | with_reducible apply State.ranked_keeps | with_reducible apply State.claim_keeps | with_reducible apply State.modOpen_keeps | with_reducible apply Keeps.ite | with_reducible apply Keeps.ite_snd | with_reducible apply Keeps.foldl | split)

theorem State.reqStep_keeps {s u : State} (h : Keeps s u) (kk : ℕ) (seq : ℕ) : Keeps s (State.reqStep u kk seq) := by
  unfold State.reqStep
  try dsimp only
  repeat' (first | with_reducible assumption | (intro) | with_reducible apply State.request_keeps | with_reducible apply State.modOpen_keeps | with_reducible apply Keeps.ite | with_reducible apply Keeps.ite_snd | with_reducible apply Keeps.foldl | split)

theorem State.reqCommit_keeps {s u : State} (h : Keeps s u) (kk : ℕ) (seq : ℕ) : Keeps s (State.reqCommit u kk seq) := by
  unfold State.reqCommit
  try dsimp only
  repeat' (first | with_reducible assumption | (intro) | with_reducible apply State.request_keeps | with_reducible apply State.modOpen_keeps | with_reducible apply Keeps.ite | with_reducible apply Keeps.ite_snd | with_reducible apply Keeps.foldl | split)

theorem State.retire_keeps {s u : State} (h : Keeps s u) (kk : ℕ) (seq : ℕ) (c : Compl) : Keeps s (State.retire u kk seq c) := by
  unfold State.retire
  try dsimp only
  repeat' (first | with_reducible assumption | (intro) | with_reducible apply State.modOpen_keeps | with_reducible apply State.unclaim_keeps | with_reducible apply State.enqueue_keeps | with_reducible apply Keeps.ite | with_reducible apply Keeps.ite_snd | with_reducible apply Keeps.foldl | split)

theorem State.writeKept_keeps {s u : State} (h : Keeps s u) (x1 : Kept) : Keeps s (State.writeKept u x1) := by
  unfold State.writeKept
  try dsimp only
  repeat' (first | with_reducible assumption | (intro) | with_reducible apply State.furPatch_keeps)

theorem State.displace_keeps {s u : State} (h : Keeps s u) (k : Kept) : Keeps s (State.displace u k) := by
  unfold State.displace
  try dsimp only
  repeat' (first | with_reducible assumption | (intro) | with_reducible apply State.modHnd_keeps)

theorem State.keep_keeps {s u : State} (h : Keeps s u) (x1 : Handle) (c : Compl) (orphan : Bool) : Keeps s (State.keep u x1 c orphan) := by
  unfold State.keep
  try dsimp only
  repeat' (first | with_reducible assumption | (intro) | with_reducible apply State.displace_keeps | with_reducible apply State.notice_keeps | with_reducible apply State.modHnd_keeps | with_reducible apply State.modSes_keeps | with_reducible apply State.writeKept_keeps | with_reducible apply State.enqueue_keeps | with_reducible apply Keeps.ite | with_reducible apply Keeps.ite_snd | with_reducible apply Keeps.foldl | split)

theorem State.ringCarries_keeps {s u : State} (h : Keeps s u) : Keeps s (State.ringCarries u).2 := by
  unfold State.ringCarries
  try dsimp only
  repeat' (first | with_reducible assumption | (intro) | with_reducible apply State.freeCheck_keeps | with_reducible apply Keeps.ite | with_reducible apply Keeps.ite_snd)

theorem State.orphan_keeps {s u : State} (h : Keeps s u) (x1 : Handle) (c : Compl) : Keeps s (State.orphan u x1 c) := by
  unfold State.orphan
  try dsimp only
  repeat' (first | with_reducible assumption | (intro) | with_reducible apply State.keep_keeps | with_reducible apply State.notice_keeps)

theorem State.sendDone_keeps {s u : State} (h : Keeps s u) (k : ℕ) (x2 : Handle) (c : Compl) (line : String) : Keeps s (State.sendDone u k x2 c line) := by
  unfold State.sendDone
  try dsimp only
  repeat' (first | with_reducible assumption | (intro) | with_reducible apply State.keep_keeps | with_reducible apply State.emit_keeps | with_reducible apply State.emitFor_keeps | with_reducible apply Keeps.ite)

theorem State.finish_keeps {s u : State} (h : Keeps s u) (x1 : Handle) : Keeps s (State.finish u x1) := by
  unfold State.finish
  try dsimp only
  repeat' (first | with_reducible assumption | (intro) | with_reducible apply State.orphan_keeps | with_reducible apply State.sendDone_keeps | with_reducible apply State.ringCarries_keeps | with_reducible apply State.modHnd_keeps | with_reducible apply Keeps.ite | with_reducible apply Keeps.ite_snd | with_reducible apply Keeps.foldl | split)

theorem State.lineQueued_keeps {s u : State} (h : Keeps s u) (done : Option (ℕ × ℕ)) : Keeps s (State.lineQueued u done) := by
  unfold State.lineQueued
  try dsimp only
  repeat' (first | with_reducible assumption | (intro) | with_reducible apply State.keep_keeps | with_reducible apply Keeps.ite | with_reducible apply Keeps.ite_snd | with_reducible apply Keeps.foldl | split)

theorem State.endForm_keeps {s u : State} (h : Keeps s u) (x1 : Handle) : Keeps s (State.endForm u x1) := by
  unfold State.endForm
  try dsimp only
  repeat' (first | with_reducible assumption | (intro) | with_reducible apply State.modOpen_keeps | with_reducible apply State.endItem_keeps | with_reducible apply Keeps.ite | with_reducible apply Keeps.ite_snd | with_reducible apply Keeps.foldl | split)

theorem State.finishDue_keeps {s u : State} (h : Keeps s u) (kk : ℕ) (seq : ℕ) : Keeps s (State.finishDue u kk seq) := by
  unfold State.finishDue
  try dsimp only
  repeat' (first | with_reducible assumption | (intro) | with_reducible apply State.finish_keeps | with_reducible apply State.endForm_keeps | with_reducible apply Keeps.ite | with_reducible apply Keeps.ite_snd | with_reducible apply Keeps.foldl | split)

theorem State.sendHeld_keeps {s u : State} (h : Keeps s u) : Keeps s (State.sendHeld u) := by
  unfold State.sendHeld
  try dsimp only
  repeat' (first | with_reducible assumption | (intro) | with_reducible apply State.modHnd_keeps | with_reducible apply State.orphan_keeps | with_reducible apply State.ringCarries_keeps | with_reducible apply State.sendDone_keeps | with_reducible apply Keeps.ite | with_reducible apply Keeps.ite_snd | with_reducible apply Keeps.foldl | split)

theorem State.updateProfile_keeps {s u : State} (h : Keeps s u) (n : ℕ) (shunt : ℕ) (points : List (ℤ × ℕ)) : Keeps s (State.updateProfile u n shunt points) := by
  unfold State.updateProfile
  try dsimp only
  repeat' (first | with_reducible assumption | (intro) | with_reducible apply State.furPut_keeps)

theorem State.eraseProfile_keeps {s u : State} (h : Keeps s u) (n : ℕ) : Keeps s (State.eraseProfile u n) := by
  unfold State.eraseProfile
  try dsimp only
  repeat' (first | with_reducible assumption | (intro) | with_reducible apply State.furPut_keeps)

theorem State.writeData_keeps {s u : State} (h : Keeps s u) (x : DataAt) (n v : Nat) : Keeps s (u.writeData x n v) := by
  cases x <;> refine ⟨h.1, fun m => ?_⟩ <;> obtain ⟨a, b, c, d, e, f, g, i⟩ := h.2 m
  · exact ⟨Mem.wf_putUnit _ _ _ _ _ a, b, c, d, e, f, g, i⟩
  · exact ⟨a, b, c, d, e, Mem.wf_putUnit _ _ _ _ _ f, g, i⟩
  · exact ⟨a, b, Mem.wf_putUnit _ _ _ _ _ c, d, e, f, g, i⟩

theorem State.touchCache_keeps {s u : State} (h : Keeps s u) (k : ℕ) (x : InstrAt) : Keeps s (State.touchCache u k x) := by
  unfold State.touchCache
  try dsimp only
  repeat' (first | with_reducible assumption | (intro) | with_reducible apply State.modCore_keeps | with_reducible apply Keeps.ite | with_reducible apply Keeps.ite_snd | with_reducible apply Keeps.foldl | split)

theorem State.dropTagged_keeps {s u : State} (h : Keeps s u) (l : ℕ) : Keeps s (State.dropTagged u l) := by
  unfold State.dropTagged
  try dsimp only
  repeat' (first | with_reducible assumption | (intro) | with_reducible apply State.modCore_keeps | with_reducible apply Keeps.ite | with_reducible apply Keeps.ite_snd | with_reducible apply Keeps.foldl)

theorem State.dropLine_keeps {s u : State} (h : Keeps s u) (x : InstrAt) : Keeps s (State.dropLine u x) := by
  unfold State.dropLine
  try dsimp only
  repeat' (first | with_reducible assumption | (intro) | with_reducible apply State.dropTagged_keeps | with_reducible apply Keeps.ite | with_reducible apply Keeps.ite_snd | with_reducible apply Keeps.foldl | split)

theorem State.dropPlotLines_keeps {s u : State} (h : Keeps s u) (a : ℕ) (n : ℕ) : Keeps s (State.dropPlotLines u a n) := by
  unfold State.dropPlotLines
  try dsimp only
  repeat' (first | with_reducible assumption | (intro) | with_reducible apply State.dropTagged_keeps | with_reducible apply Keeps.ite | with_reducible apply Keeps.ite_snd | with_reducible apply Keeps.foldl)

theorem State.writeInstr_keeps {s u t : State} (h : Keeps s u) (x : InstrAt) (v : Word) (e : u.writeInstr x v = some t) : Keeps s t := by
  unfold State.writeInstr at e
  cases x <;> simp only [reduceCtorEq, Option.some.injEq] at e
  · subst e
    apply State.dropLine_keeps
    refine ⟨h.1, fun m => ?_⟩
    obtain ⟨a, b, c, d, e, f, g, i⟩ := h.2 m
    exact ⟨a, Mem.wf_putUnit _ _ _ _ _ b, c, d, e, f, g, i⟩
  · subst e
    refine ⟨h.1, fun m => ?_⟩
    obtain ⟨a, b, c, d, e, f, g, i⟩ := h.2 m
    exact ⟨a, b, c, Mem.wf_putUnit _ _ _ _ _ d, e, f, g, i⟩

theorem State.landList_keeps {s u : State} (h : Keeps s u) (k t : Nat) (l : List Inter) : Keeps s (State.landList u k t l).1 := by
  induction l generalizing u with
  | nil => exact State.modTh_keeps h _ _
  | cons i l ih =>
    unfold State.landList
    dsimp only
    split
    · exact State.trap_keeps h ..
    · exact ih (State.modTh_keeps h _ _)

theorem State.landInters_keeps {s u : State} (h : Keeps s u) (k : ℕ) (t : ℕ) : Keeps s (State.landInters u k t).1 := by
  unfold State.landInters
  try dsimp only
  repeat' (first | with_reducible assumption | (intro) | with_reducible apply State.landList_keeps)

theorem State.goPc_keeps {s u : State} (h : Keeps s u) (t : ℕ) (pc : ℕ) (dst : ℕ) : Keeps s (State.goPc u t pc dst) := by
  unfold State.goPc
  try dsimp only
  repeat' (first | with_reducible assumption | (intro) | with_reducible apply State.modTh_keeps)

/-- Where the instruction leaves a state, the queue and the memories are kept. -/
def Did.Kept (s : State) : Did → Prop
  | .went t => Keeps s t
  | .jumped t _ => Keeps s t
  | .trapped _ _ => True
  | .left t => Keeps s t

theorem State.issue_keeps {s u : State} (h : Keeps s u) (k : Nat) (undef : Nat → Option Word) (body : State → Nat → Did)
    (hb : ∀ v t, Keeps s v → (body v t).Kept s) : Keeps s (u.issue k undef body) := by
  unfold State.issue
  split
  · exact h
  · rename_i t _
    dsimp only
    have hl := State.landInters_keeps h k t
    split
    · exact hl
    · have hm := State.modTh_keeps hl t fun h => h.landDue.ageDelayed
      generalize (u.landInters k t).1.modTh t (fun h => h.landDue.ageDelayed) = v at *
      split
      · exact State.trap_keeps hm ..
      · rename_i x _
        have hc := State.touchCache_keeps hm k x
        split
        · exact State.trap_keeps hc ..
        · have hd := hb _ t hc
          split <;> rename_i he <;> rw [he] at hd
          · exact State.goPc_keeps hd ..
          · exact State.goPc_keeps hd ..
          · exact State.trap_keeps hc ..
          · exact hd

theorem State.dispatchOn_keeps {s u : State} (h : Keeps s u) (k : ℕ) : Keeps s (State.dispatchOn u k) := by
  unfold State.dispatchOn
  try dsimp only
  repeat' (first | with_reducible assumption | (intro) | with_reducible apply State.startPair_keeps | with_reducible apply State.choose_keeps | with_reducible apply State.takePair_keeps | with_reducible apply Keeps.ite | with_reducible apply Keeps.ite_snd | with_reducible apply Keeps.foldl | split | simp only [Keeps.mk] | (refine Keeps.snd_of (by assumption) ?_))

theorem State.fillSlot_keeps {s u : State} (h : Keeps s u) (k : ℕ) : Keeps s (State.fillSlot u k) := by
  unfold State.fillSlot
  try dsimp only
  repeat' (first | with_reducible assumption | (intro) | with_reducible apply State.choose_keeps | with_reducible apply State.takePair_keeps | with_reducible apply State.modSow_keeps | with_reducible apply State.modCore_keeps | with_reducible apply State.trace_keeps | with_reducible apply Keeps.ite | with_reducible apply Keeps.ite_snd | with_reducible apply Keeps.foldl | split | simp only [Keeps.mk] | (refine Keeps.snd_of (by assumption) ?_))

theorem State.prefetchOn_keeps {s u : State} (h : Keeps s u) (k : ℕ) : Keeps s (State.prefetchOn u k) := by
  unfold State.prefetchOn
  try dsimp only
  repeat' (first | with_reducible assumption | (intro) | with_reducible apply State.fillSlot_keeps | with_reducible apply Keeps.ite)

theorem State.preemptOn_keeps {s u : State} (h : Keeps s u) (k : ℕ) : Keeps s (State.preemptOn u k) := by
  unfold State.preemptOn
  try dsimp only
  repeat' (first | with_reducible assumption | (intro) | with_reducible apply State.landInters_keeps | with_reducible apply State.modTh_keeps | with_reducible apply State.choose_keeps | with_reducible apply State.trace_keeps | with_reducible apply State.modCore_keeps | with_reducible apply State.freeCore_keeps | with_reducible apply State.startPair_keeps | with_reducible apply State.takePair_keeps | with_reducible apply Keeps.ite | with_reducible apply Keeps.ite_snd | with_reducible apply Keeps.foldl | split | simp only [Keeps.mk] | (refine Keeps.snd_of (by assumption) ?_))

theorem State.arrive_keeps {s u : State} (h : Keeps s u) (cores : List ℕ) : Keeps s (State.arrive u cores) := by
  unfold State.arrive
  try dsimp only
  repeat' (first | with_reducible assumption | (intro) | with_reducible apply State.preemptOn_keeps | with_reducible apply State.fillSlot_keeps | with_reducible apply State.unprefetch_keeps | with_reducible apply Keeps.ite | with_reducible apply Keeps.ite_snd | with_reducible apply Keeps.foldl | split)

theorem State.dropItem_keeps {s u : State} (h : Keeps s u) (t : ℕ) : Keeps s (State.dropItem u t) := by
  unfold State.dropItem
  try dsimp only
  repeat' (first | with_reducible assumption | (intro) | with_reducible apply State.dropHeld_keeps | with_reducible apply State.modTh_keeps | with_reducible apply State.modSow_keeps | with_reducible apply Keeps.ite)

theorem State.leaveSlots_keeps {s u : State} (h : Keeps s u) (t : ℕ) (at_ : ℕ) : Keeps s (State.leaveSlots u t at_) := by
  unfold State.leaveSlots
  try dsimp only
  repeat' (first | with_reducible assumption | (intro) | with_reducible apply State.unprefetch_keeps | with_reducible apply Keeps.ite | with_reducible apply Keeps.ite_snd | with_reducible apply Keeps.foldl)

theorem State.leaveCores_keeps {s u : State} (h : Keeps s u) (t : ℕ) : Keeps s (State.leaveCores u t) := by
  unfold State.leaveCores
  try dsimp only
  repeat' (first | with_reducible assumption | (intro) | with_reducible apply State.freeCore_keeps | with_reducible apply Keeps.ite | with_reducible apply Keeps.ite_snd | with_reducible apply Keeps.foldl)

theorem State.stopNow_keeps {s u : State} (h : Keeps s u) (t : ℕ) (at_ : ℕ) : Keeps s (State.stopNow u t at_) := by
  unfold State.stopNow
  try dsimp only
  repeat' (first | with_reducible assumption | (intro) | with_reducible apply State.leaveSlots_keeps | with_reducible apply State.landInters_keeps | with_reducible apply State.dropOpen_keeps | with_reducible apply State.modTh_keeps | with_reducible apply State.trace_keeps | with_reducible apply State.dropItem_keeps | with_reducible apply State.leaveCores_keeps | with_reducible apply Keeps.ite)

theorem State.stopThread_keeps {s u : State} (h : Keeps s u) (t : ℕ) (at_ : ℕ) : Keeps s (State.stopThread u t at_) := by
  unfold State.stopThread
  try dsimp only
  repeat' (first | with_reducible assumption | (intro) | with_reducible apply State.modTh_keeps | with_reducible apply State.stopNow_keeps | with_reducible apply Keeps.ite)

theorem State.startThread_keeps {s u : State} (h : Keeps s u) (t : ℕ) : Keeps s (State.startThread u t) := by
  unfold State.startThread
  try dsimp only
  repeat' (first | with_reducible assumption | (intro) | with_reducible apply State.modTh_keeps | with_reducible apply Keeps.ite)

theorem State.writeSowT_keeps {s u : State} (h : Keeps s u) (t : ℕ) (at_ : ℕ) (v : ℕ) : Keeps s (State.writeSowT u t at_ v) := by
  unfold State.writeSowT
  try dsimp only
  repeat' (first | with_reducible assumption | (intro) | with_reducible apply State.modTh_keeps | with_reducible apply State.stopThread_keeps | with_reducible apply State.startThread_keeps | with_reducible apply Keeps.ite | with_reducible apply Keeps.ite_snd | with_reducible apply Keeps.foldl | split)

theorem State.flush_keeps {s u : State} (h : Keeps s u) (q : ℕ) (at_ : ℕ) : Keeps s (State.flush u q at_) := by
  unfold State.flush
  try dsimp only
  repeat' (first | with_reducible assumption | (intro) | with_reducible apply State.modSow_keeps | with_reducible apply State.unprefetch_keeps | with_reducible apply State.modTh_keeps | with_reducible apply State.trace_keeps | with_reducible apply Keeps.ite | with_reducible apply Keeps.ite_snd | with_reducible apply Keeps.foldl)

theorem State.flushEnd_keeps {s u : State} (h : Keeps s u) (k : ℕ) (t : ℕ) (o : OpenItem) (posted : ℕ) (swallowed : ℕ) : Keeps s (State.flushEnd u k t o posted swallowed) := by
  unfold State.flushEnd
  try dsimp only
  repeat' (first | with_reducible assumption | (intro) | with_reducible apply State.trace_keeps | with_reducible apply State.modTh_keeps)

theorem State.writeSowQ_keeps {s u : State} (h : Keeps s u) (q : ℕ) (v : ℕ) : Keeps s (State.writeSowQ u q v) := by
  unfold State.writeSowQ
  try dsimp only
  repeat' (first | with_reducible assumption | (intro) | with_reducible apply State.modSow_keeps | with_reducible apply State.modQue_keeps | with_reducible apply Keeps.ite)

theorem State.writeWeight_keeps {s u : State} (h : Keeps s u) (g : ℕ) (v : ℕ) : Keeps s (State.writeWeight u g v) := by
  unfold State.writeWeight
  try dsimp only
  repeat' (first | with_reducible assumption | (intro) | with_reducible apply State.modSow_keeps)

theorem State.writeSowCtl_keeps {s u : State} (h : Keeps s u) (at_ : ℕ) (v : ℕ) : Keeps s (State.writeSowCtl u at_ v) := by
  unfold State.writeSowCtl
  try dsimp only
  repeat' (first | with_reducible assumption | (intro) | with_reducible apply State.unprefetch_keeps | with_reducible apply State.modSow_keeps | with_reducible apply Keeps.ite | with_reducible apply Keeps.ite_snd | with_reducible apply Keeps.foldl)

theorem State.zeroStats_keeps {s u : State} (h : Keeps s u) (high : ℕ → ℕ) : Keeps s (State.zeroStats u high) := by
  unfold State.zeroStats
  try dsimp only
  repeat' (first | with_reducible assumption | (intro) | with_reducible apply State.modSow_keeps | with_reducible apply State.modQue_keeps | with_reducible apply Keeps.ite | with_reducible apply Keeps.ite_snd | with_reducible apply Keeps.foldl)

theorem State.clearStats_keeps {s u : State} (h : Keeps s u) : Keeps s (State.clearStats u) := by
  unfold State.clearStats
  try dsimp only
  repeat' (first | with_reducible assumption | (intro) | with_reducible apply State.zeroStats_keeps)

theorem State.writeStSel_keeps {s u : State} (h : Keeps s u) (k : ℕ) (v : ℕ) : Keeps s (State.writeStSel u k v) := by
  unfold State.writeStSel
  try dsimp only
  repeat' (first | with_reducible assumption | (intro) | with_reducible apply State.timed_keeps | with_reducible apply State.modCore_keeps | with_reducible apply State.clearStats_keeps | with_reducible apply Keeps.ite)

theorem State.writeContext_keeps {s u : State} (h : Keeps s u) (t : ℕ) (i : ℕ) (v : Word) : Keeps s (State.writeContext u t i v) := by
  unfold State.writeContext
  try dsimp only
  repeat' (first | with_reducible assumption | (intro) | with_reducible apply State.modTh_keeps | with_reducible apply Keeps.ite)

theorem State.contextAccess_keeps {s u : State} (h : Keeps s u) (k : ℕ) (latch : Bool) (write : Option Word) : Keeps s (State.contextAccess u k latch write).2 := by
  unfold State.contextAccess
  try dsimp only
  repeat' (first | with_reducible assumption | (intro) | with_reducible apply State.writeContext_keeps | with_reducible apply State.modSow_keeps | with_reducible apply State.modCore_keeps | with_reducible apply Keeps.ite | with_reducible apply Keeps.ite_snd | with_reducible apply Keeps.foldl | split)

theorem State.writeTrCtl_keeps {s u : State} (h : Keeps s u) (v : ℕ) : Keeps s (State.writeTrCtl u v) := by
  unfold State.writeTrCtl
  try dsimp only
  repeat' (first | with_reducible assumption | (intro) | with_reducible apply State.modSow_keeps)

theorem State.readTrLo_keeps {s u : State} (h : Keeps s u) : Keeps s (State.readTrLo u).2 := by
  unfold State.readTrLo
  try dsimp only
  repeat' (first | with_reducible assumption | (intro) | with_reducible apply State.modSow_keeps)

theorem State.spillPost_keeps {s u : State} (h : Keeps s u) (q : ℕ) : Keeps s (State.spillPost u q) := by
  unfold State.spillPost
  try dsimp only
  repeat' (first | with_reducible assumption | (intro) | with_reducible apply State.visible_keeps | with_reducible apply State.modSow_keeps | with_reducible apply State.served_keeps | with_reducible apply Keeps.ite | with_reducible apply Keeps.ite_snd | with_reducible apply Keeps.foldl | split)

theorem State.grant_keeps {s u : State} (h : Keeps s u) (q : ℕ) : Keeps s (State.grant u q) := by
  unfold State.grant
  try dsimp only
  repeat' (first | with_reducible assumption | (intro) | with_reducible apply State.modTh_keeps | with_reducible apply State.served_keeps | with_reducible apply State.visible_keeps | with_reducible apply Keeps.ite | with_reducible apply Keeps.ite_snd | with_reducible apply Keeps.foldl | split)

theorem State.modBays_keeps {s u : State} (h : Keeps s u) (f : Bays → Bays) : Keeps s (State.modBays u f) := by
  unfold State.modBays
  try dsimp only
  repeat' (first | with_reducible assumption | (intro) | with_reducible apply Keeps.ite | with_reducible apply Keeps.ite_snd | with_reducible apply Keeps.foldl | split | simp only [Keeps.mk])

theorem State.modBay_keeps {s u : State} (h : Keeps s u) (n : ℕ) (f : Bay → Bay) : Keeps s (State.modBay u n f) := by
  unfold State.modBay
  try dsimp only
  repeat' (first | with_reducible assumption | (intro) | with_reducible apply State.modBays_keeps)

theorem State.modEnv_keeps {s u : State} (h : Keeps s u) (f : Env → Env) : Keeps s (State.modEnv u f) := by
  unfold State.modEnv
  try dsimp only
  repeat' (first | with_reducible assumption | (intro) | with_reducible apply Keeps.ite | with_reducible apply Keeps.ite_snd | with_reducible apply Keeps.foldl | split | simp only [Keeps.mk])

theorem State.modTags_keeps {s u : State} (h : Keeps s u) (f : Tags → Tags) : Keeps s (State.modTags u f) := by
  unfold State.modTags
  try dsimp only
  repeat' (first | with_reducible assumption | (intro) | with_reducible apply Keeps.ite | with_reducible apply Keeps.ite_snd | with_reducible apply Keeps.foldl | split | simp only [Keeps.mk])

theorem State.showTag_keeps {s u : State} (h : Keeps s u) (n : ℕ) : Keeps s (State.showTag u n) := by
  unfold State.showTag
  try dsimp only
  repeat' (first | with_reducible assumption | (intro) | with_reducible apply State.modTags_keeps | with_reducible apply Keeps.ite)

theorem State.showTags_keeps {s u : State} (h : Keeps s u) : Keeps s (State.showTags u) := by
  unfold State.showTags
  try dsimp only
  repeat' (first | with_reducible assumption | (intro) | with_reducible apply State.showTag_keeps | with_reducible apply Keeps.ite | with_reducible apply Keeps.ite_snd | with_reducible apply Keeps.foldl)

theorem State.leaveOrders_keeps {s u : State} (h : Keeps s u) (n : ℕ) : Keeps s (State.leaveOrders u n) := by
  unfold State.leaveOrders
  try dsimp only
  repeat' (first | with_reducible assumption | (intro) | with_reducible apply State.modEnv_keeps)

theorem State.bayDown_keeps {s u : State} (h : Keeps s u) (n : ℕ) (st : BState) : Keeps s (State.bayDown u n st) := by
  unfold State.bayDown
  try dsimp only
  repeat' (first | with_reducible assumption | (intro) | with_reducible apply State.showTag_keeps | with_reducible apply State.modBay_keeps | with_reducible apply State.leaveOrders_keeps)

theorem State.enterStarting_keeps {s u : State} (h : Keeps s u) (n : ℕ) : Keeps s (State.enterStarting u n) := by
  unfold State.enterStarting
  try dsimp only
  repeat' (first | with_reducible assumption | (intro) | with_reducible apply State.modBay_keeps | with_reducible apply State.showTag_keeps | with_reducible apply State.modEnv_keeps)

theorem State.cmdRejected_keeps {s u : State} (h : Keeps s u) (n : ℕ) : Keeps s (State.cmdRejected u n) := by
  unfold State.cmdRejected
  try dsimp only
  repeat' (first | with_reducible assumption | (intro) | with_reducible apply State.modBay_keeps)

theorem State.bayStart_keeps {s u : State} (h : Keeps s u) (n : ℕ) : Keeps s (State.bayStart u n) := by
  unfold State.bayStart
  try dsimp only
  repeat' (first | with_reducible assumption | (intro) | with_reducible apply State.cmdRejected_keeps | with_reducible apply State.showTag_keeps | with_reducible apply State.modEnv_keeps | with_reducible apply State.modBay_keeps | with_reducible apply State.enterStarting_keeps | with_reducible apply Keeps.ite)

theorem State.bayStop_keeps {s u : State} (h : Keeps s u) (n : ℕ) : Keeps s (State.bayStop u n) := by
  unfold State.bayStop
  try dsimp only
  repeat' (first | with_reducible assumption | (intro) | with_reducible apply State.bayDown_keeps | with_reducible apply State.cmdRejected_keeps | with_reducible apply Keeps.ite | with_reducible apply Keeps.ite_snd | with_reducible apply Keeps.foldl | split)

theorem State.checkOn_keeps {s u : State} (h : Keeps s u) (n : ℕ) : Keeps s (State.checkOn u n) := by
  unfold State.checkOn
  try dsimp only
  repeat' (first | with_reducible assumption | (intro) | with_reducible apply State.showTag_keeps | with_reducible apply State.modBay_keeps | with_reducible apply Keeps.ite)

theorem State.worksDone_keeps {s u : State} (h : Keeps s u) (kk : ℕ) (seq : ℕ) : Keeps s (State.worksDone u kk seq) := by
  unfold State.worksDone
  try dsimp only
  repeat' (first | with_reducible assumption | (intro) | with_reducible apply State.finishDue_keeps | with_reducible apply State.retire_keeps | with_reducible apply Keeps.ite | with_reducible apply Keeps.ite_snd | with_reducible apply Keeps.foldl | split)

theorem State.commitStarts_keeps {s u : State} (h : Keeps s u) (kk : ℕ) (seq : ℕ) : Keeps s (State.commitStarts u kk seq) := by
  unfold State.commitStarts
  try dsimp only
  repeat' (first | with_reducible assumption | (intro) | with_reducible apply State.reqCommit_keeps | with_reducible apply Keeps.ite | with_reducible apply Keeps.ite_snd | with_reducible apply Keeps.foldl | split)

theorem State.endWork_keeps {s u : State} (h : Keeps s u) (w : Work) (f : Handle → Handle) : Keeps s (State.endWork u w f) := by
  unfold State.endWork
  try dsimp only
  repeat' (first | with_reducible assumption | (intro) | with_reducible apply State.modBays_keeps | with_reducible apply State.modOpen_keeps | with_reducible apply State.endItem_keeps | with_reducible apply State.worksDone_keeps | with_reducible apply State.commitStarts_keeps | with_reducible apply Keeps.ite)

theorem State.setWork_keeps {s u : State} (h : Keeps s u) (w : Work) (w' : Work) : Keeps s (State.setWork u w w') := by
  unfold State.setWork
  try dsimp only
  repeat' (first | with_reducible assumption | (intro) | with_reducible apply State.modBays_keeps)

theorem State.onActed_keeps {s u : State} (h : Keeps s u) (w : Work) : Keeps s (State.onActed u w) := by
  unfold State.onActed
  try dsimp only
  repeat' (first | with_reducible assumption | (intro) | with_reducible apply State.endWork_keeps | with_reducible apply State.commitStarts_keeps | with_reducible apply Keeps.ite | with_reducible apply Keeps.ite_snd | with_reducible apply Keeps.foldl | split)

theorem State.onAct_keeps {s u : State} (h : Keeps s u) (w : Work) : Keeps s (State.onAct u w) := by
  unfold State.onAct
  try dsimp only
  repeat' (first | with_reducible assumption | (intro) | with_reducible apply State.endWork_keeps | with_reducible apply State.setWork_keeps | with_reducible apply State.modEnv_keeps | with_reducible apply Keeps.ite | with_reducible apply Keeps.ite_snd | with_reducible apply Keeps.foldl | split)

theorem State.offAct_keeps {s u : State} (h : Keeps s u) (w : Work) : Keeps s (State.offAct u w) := by
  unfold State.offAct
  try dsimp only
  repeat' (first | with_reducible assumption | (intro) | with_reducible apply State.reqCommit_keeps | with_reducible apply State.setWork_keeps | with_reducible apply State.bayStop_keeps | with_reducible apply State.endWork_keeps | with_reducible apply Keeps.ite | with_reducible apply Keeps.ite_snd | with_reducible apply Keeps.foldl | split)

theorem State.forgetAct_keeps {s u : State} (h : Keeps s u) (w : Work) : Keeps s (State.forgetAct u w) := by
  unfold State.forgetAct
  try dsimp only
  repeat' (first | with_reducible assumption | (intro) | with_reducible apply State.modOpen_keeps | with_reducible apply State.setWork_keeps | with_reducible apply State.eraseProfile_keeps | with_reducible apply Keeps.ite)

theorem State.eraseEnds_keeps {s u : State} (h : Keeps s u) (n : ℕ) : Keeps s (State.eraseEnds u n) := by
  unfold State.eraseEnds
  try dsimp only
  repeat' (first | with_reducible assumption | (intro) | with_reducible apply State.reqStep_keeps | with_reducible apply State.modOpen_keeps | with_reducible apply State.endWork_keeps | with_reducible apply Keeps.ite | with_reducible apply Keeps.ite_snd | with_reducible apply Keeps.foldl | split)

theorem State.forgotten_keeps {s u : State} (h : Keeps s u) (kk : ℕ) (seq : ℕ) (e : BitVec 96) : Keeps s (State.forgotten u kk seq e) := by
  unfold State.forgotten
  try dsimp only
  repeat' (first | with_reducible assumption | (intro) | with_reducible apply State.endWork_keeps | with_reducible apply Keeps.ite | with_reducible apply Keeps.ite_snd | with_reducible apply Keeps.foldl)

theorem State.tagAct_keeps {s u : State} (h : Keeps s u) (w : Work) : Keeps s (State.tagAct u w) := by
  unfold State.tagAct
  try dsimp only
  repeat' (first | with_reducible assumption | (intro) | with_reducible apply State.endWork_keeps | with_reducible apply State.showTag_keeps | with_reducible apply State.modTags_keeps | with_reducible apply State.reqCommit_keeps | with_reducible apply Keeps.ite | with_reducible apply Keeps.ite_snd | with_reducible apply Keeps.foldl | split)

theorem State.settleOne_keeps {s u : State} (h : Keeps s u) (w : Work) : Keeps s (State.settleOne u w) := by
  unfold State.settleOne
  try dsimp only
  repeat' (first | with_reducible assumption | (intro) | with_reducible apply State.onActed_keeps | with_reducible apply State.onAct_keeps | with_reducible apply State.offAct_keeps | with_reducible apply State.forgetAct_keeps | with_reducible apply State.tagAct_keeps | with_reducible apply Keeps.ite | with_reducible apply Keeps.ite_snd | with_reducible apply Keeps.foldl | split)

theorem State.serveBayKeys_keeps {s u : State} (h : Keeps s u) (n : ℕ) : Keeps s (State.serveBayKeys u n) := by
  unfold State.serveBayKeys
  try dsimp only
  repeat' (first | with_reducible assumption | (intro) | with_reducible apply State.serveItem_keeps | with_reducible apply Keeps.ite | with_reducible apply Keeps.ite_snd | with_reducible apply Keeps.foldl)

theorem State.takeUp_keeps {s u : State} (h : Keeps s u) (w : Work) : Keeps s (State.takeUp u w) := by
  unfold State.takeUp
  try dsimp only
  repeat' (first | with_reducible assumption | (intro) | with_reducible apply State.modBays_keeps | with_reducible apply State.modEnv_keeps | with_reducible apply State.takeUpItem_keeps | with_reducible apply Keeps.ite)

theorem State.dispatchWork_keeps {s u : State} (h : Keeps s u) (n : ℕ) (ok : WorkKind → Bool) : Keeps s (State.dispatchWork u n ok) := by
  unfold State.dispatchWork
  try dsimp only
  repeat' (first | with_reducible assumption | (intro) | with_reducible apply State.serveBayKeys_keeps | with_reducible apply State.settleOne_keeps | with_reducible apply State.takeUp_keeps | with_reducible apply Keeps.ite | with_reducible apply Keeps.ite_snd | with_reducible apply Keeps.foldl | split)

theorem State.serveTags_keeps {s u : State} (h : Keeps s u) : Keeps s (State.serveTags u) := by
  unfold State.serveTags
  try dsimp only
  repeat' (first | with_reducible assumption | (intro) | with_reducible apply State.dispatchWork_keeps | with_reducible apply Keeps.ite | with_reducible apply Keeps.ite_snd | with_reducible apply Keeps.foldl)

theorem State.restItem_keeps {s u : State} (h : Keeps s u) (t : ℕ) : Keeps s (State.restItem u t) := by
  unfold State.restItem
  try dsimp only
  repeat' (first | with_reducible assumption | (intro) | with_reducible apply State.draw_keeps | with_reducible apply State.hwPost_keeps)

theorem State.restPlots_keeps {s u : State} (h : Keeps s u) : Keeps s (State.restPlots u) := by
  unfold State.restPlots
  try dsimp only
  repeat' (first | with_reducible assumption | (intro) | with_reducible apply State.modSys_keeps | with_reducible apply State.restItem_keeps | with_reducible apply Keeps.ite | with_reducible apply Keeps.ite_snd | with_reducible apply Keeps.foldl)

theorem State.settle_keeps {s u : State} (h : Keeps s u) : Keeps s (State.settle u) := by
  unfold State.settle
  try dsimp only
  repeat' (first | with_reducible assumption | (intro) | with_reducible apply State.restPlots_keeps | with_reducible apply State.serveTags_keeps | with_reducible apply State.settleOne_keeps | with_reducible apply Keeps.ite | with_reducible apply Keeps.ite_snd | with_reducible apply Keeps.foldl)

theorem State.noteTrip_keeps {s u : State} (h : Keeps s u) (n : ℕ) : Keeps s (State.noteTrip u n) := by
  unfold State.noteTrip
  try dsimp only
  repeat' (first | with_reducible assumption | (intro) | with_reducible apply State.reqStep_keeps | with_reducible apply State.modOpen_keeps | with_reducible apply Keeps.ite | with_reducible apply Keeps.ite_snd | with_reducible apply Keeps.foldl | split)

theorem State.trip_keeps {s u : State} (h : Keeps s u) (n : ℕ) (c : ℕ) (rail : Rail) : Keeps s (State.trip u n c rail) := by
  unfold State.trip
  try dsimp only
  repeat' (first | with_reducible assumption | (intro) | with_reducible apply State.bayDown_keeps | with_reducible apply State.modBay_keeps | with_reducible apply State.notice_keeps | with_reducible apply State.settle_keeps | with_reducible apply State.noteTrip_keeps | with_reducible apply Keeps.ite)

theorem State.fastOver_keeps {s u : State} (h : Keeps s u) (n : ℕ) (rail : Rail) : Keeps s (State.fastOver u n rail) := by
  unfold State.fastOver
  try dsimp only
  repeat' (first | with_reducible assumption | (intro) | with_reducible apply State.modBay_keeps | with_reducible apply State.trip_keeps | with_reducible apply Keeps.ite)

theorem State.slowTrip_keeps {s u : State} (h : Keeps s u) (n : ℕ) (rail : Rail) : Keeps s (State.slowTrip u n rail) := by
  unfold State.slowTrip
  try dsimp only
  repeat' (first | with_reducible assumption | (intro) | with_reducible apply State.draw_keeps | with_reducible apply State.modBay_keeps | with_reducible apply State.trip_keeps)

theorem State.gateTimeout_keeps {s u : State} (h : Keeps s u) (n : ℕ) (rail : Rail) : Keeps s (State.gateTimeout u n rail) := by
  unfold State.gateTimeout
  try dsimp only
  repeat' (first | with_reducible assumption | (intro) | with_reducible apply State.trip_keeps | with_reducible apply Keeps.ite)

theorem State.gateGood_keeps {s u : State} (h : Keeps s u) (n : ℕ) (rail : Rail) : Keeps s (State.gateGood u n rail) := by
  unfold State.gateGood
  try dsimp only
  repeat' (first | with_reducible assumption | (intro) | with_reducible apply State.settle_keeps | with_reducible apply State.checkOn_keeps | with_reducible apply State.modBay_keeps)

theorem State.blankEnd_keeps {s u : State} (h : Keeps s u) (n : ℕ) (rail : Rail) : Keeps s (State.blankEnd u n rail) := by
  unfold State.blankEnd
  try dsimp only
  repeat' (first | with_reducible assumption | (intro) | with_reducible apply State.modBay_keeps | with_reducible apply State.freeCheck_keeps | with_reducible apply State.trip_keeps | with_reducible apply State.settle_keeps | with_reducible apply State.checkOn_keeps | with_reducible apply Keeps.ite | with_reducible apply Keeps.ite_snd)

theorem State.gatesDown_keeps {s u : State} (h : Keeps s u) (n : ℕ) : Keeps s (State.gatesDown u n) := by
  unfold State.gatesDown
  try dsimp only
  repeat' (first | with_reducible assumption | (intro) | with_reducible apply State.modBay_keeps | with_reducible apply State.settle_keeps | with_reducible apply State.showTag_keeps | with_reducible apply Keeps.ite)

theorem State.setLatch_keeps {s u : State} (h : Keeps s u) (n : ℕ) (b : Bool) : Keeps s (State.setLatch u n b) := by
  unfold State.setLatch
  try dsimp only
  repeat' (first | with_reducible assumption | (intro) | with_reducible apply State.modSys_keeps)

theorem State.lockOut_keeps {s u : State} (h : Keeps s u) (n : ℕ) (c : ℕ) (rail : Rail) : Keeps s (State.lockOut u n c rail) := by
  unfold State.lockOut
  try dsimp only
  repeat' (first | with_reducible assumption | (intro) | with_reducible apply State.modBay_keeps | with_reducible apply State.bayDown_keeps | with_reducible apply State.setLatch_keeps | with_reducible apply State.settle_keeps | with_reducible apply State.hwPost_keeps | with_reducible apply Keeps.ite)

theorem State.gateOff_keeps {s u : State} (h : Keeps s u) (n : ℕ) (mainUp : Bool) (auxUp : Bool) : Keeps s (State.gateOff u n mainUp auxUp) := by
  unfold State.gateOff
  try dsimp only
  repeat' (first | with_reducible assumption | (intro) | with_reducible apply State.lockOut_keeps | with_reducible apply Keeps.ite)

theorem State.shadowFails_keeps {s u : State} (h : Keeps s u) (n : ℕ) (rail : Rail) (parity : Bool) : Keeps s (State.shadowFails u n rail parity) := by
  unfold State.shadowFails
  try dsimp only
  repeat' (first | with_reducible assumption | (intro) | with_reducible apply State.draw_keeps | with_reducible apply State.lockOut_keeps | with_reducible apply State.modBay_keeps | with_reducible apply Keeps.ite)

theorem State.writeLock_keeps {s u : State} (h : Keeps s u) (n : ℕ) (b : Bool) : Keeps s (State.writeLock u n b) := by
  unfold State.writeLock
  try dsimp only
  repeat' (first | with_reducible assumption | (intro) | with_reducible apply State.setLatch_keeps | with_reducible apply State.settle_keeps | with_reducible apply State.modBay_keeps | with_reducible apply State.bayDown_keeps | with_reducible apply State.showTag_keeps | with_reducible apply Keeps.ite)

theorem State.putLock_keeps {s u : State} (h : Keeps s u) (n : ℕ) (locked : Bool) (cause : ℕ) (rail : ℕ) : Keeps s (State.putLock u n locked cause rail) := by
  unfold State.putLock
  try dsimp only
  repeat' (first | with_reducible assumption | (intro) | with_reducible apply State.furPut_keeps)

theorem State.serveLock_keeps {s u : State} (h : Keeps s u) : Keeps s (State.serveLock u) := by
  unfold State.serveLock
  try dsimp only
  repeat' (first | with_reducible assumption | (intro) | with_reducible apply State.serveItem_keeps | with_reducible apply State.modBays_keeps | with_reducible apply State.putLock_keeps | with_reducible apply Keeps.ite | with_reducible apply Keeps.ite_snd | with_reducible apply Keeps.foldl | split)

theorem State.lockNoted_keeps {s u : State} (h : Keeps s u) (n : ℕ) (cause : ℕ) : Keeps s (State.lockNoted u n cause) := by
  unfold State.lockNoted
  try dsimp only
  repeat' (first | with_reducible assumption | (intro) | with_reducible apply State.notice_keeps | with_reducible apply State.modBays_keeps | with_reducible apply Keeps.ite)

theorem State.unlockRest_keeps {s u : State} (h : Keeps s u) (n : ℕ) (k : ℕ) (tag : String) : Keeps s (State.unlockRest u n k tag) := by
  unfold State.unlockRest
  try dsimp only
  repeat' (first | with_reducible assumption | (intro) | with_reducible apply State.emit_keeps | with_reducible apply State.putLock_keeps | with_reducible apply State.writeLock_keeps | with_reducible apply Keeps.ite)

theorem State.unlockGoesOn_keeps {s u : State} (h : Keeps s u) (n : ℕ) : Keeps s (State.unlockGoesOn u n) := by
  unfold State.unlockGoesOn
  try dsimp only
  repeat' (first | with_reducible assumption | (intro) | with_reducible apply State.modBays_keeps | with_reducible apply State.afterLine_keeps | with_reducible apply State.unlockRest_keeps | with_reducible apply Keeps.ite | with_reducible apply Keeps.ite_snd | with_reducible apply Keeps.foldl | split)

theorem State.lockLineEnds_keeps {s u : State} (h : Keeps s u) (n : ℕ) (b : List Byte) : Keeps s (State.lockLineEnds u n b) := by
  unfold State.lockLineEnds
  try dsimp only
  repeat' (first | with_reducible assumption | (intro) | with_reducible apply State.lockNoted_keeps | with_reducible apply State.unlockGoesOn_keeps | with_reducible apply Keeps.ite)

theorem State.proofBegins_keeps {s u : State} (h : Keeps s u) (n : ℕ) (rail : Rail) : Keeps s (State.proofBegins u n rail) := by
  unfold State.proofBegins
  try dsimp only
  repeat' (first | with_reducible assumption | (intro) | with_reducible apply State.modBay_keeps | with_reducible apply Keeps.ite)

theorem State.proofChecked_keeps {s u : State} (h : Keeps s u) (n : ℕ) (rail : Rail) (fast : Bool) (slow : Bool) : Keeps s (State.proofChecked u n rail fast slow) := by
  unfold State.proofChecked
  try dsimp only
  repeat' (first | with_reducible assumption | (intro) | with_reducible apply State.modBay_keeps | with_reducible apply State.lockOut_keeps | with_reducible apply Keeps.ite)

theorem State.proofRun_keeps {s u : State} (h : Keeps s u) (n : ℕ) : Keeps s (State.proofRun u n) := by
  unfold State.proofRun
  try dsimp only
  repeat' (first | with_reducible assumption | (intro) | with_reducible apply State.modBay_keeps | with_reducible apply Keeps.ite)

theorem State.proveNext_keeps {s u : State} (h : Keeps s u) (n : ℕ) : Keeps s (State.proveNext u n) := by
  unfold State.proveNext
  try dsimp only
  repeat' (first | with_reducible assumption | (intro) | with_reducible apply State.proofRun_keeps | with_reducible apply Keeps.ite)

theorem State.proofEnds_keeps {s u : State} (h : Keeps s u) (n : ℕ) (rail : Rail) (still : Bool) : Keeps s (State.proofEnds u n rail still) := by
  unfold State.proofEnds
  try dsimp only
  repeat' (first | with_reducible assumption | (intro) | with_reducible apply State.freeCheck_keeps | with_reducible apply State.modBay_keeps | with_reducible apply State.proveNext_keeps | with_reducible apply State.trip_keeps | with_reducible apply Keeps.ite)

theorem State.proofFinished_keeps {s u : State} (h : Keeps s u) (n : ℕ) (rail : Rail) : Keeps s (State.proofFinished u n rail) := by
  unfold State.proofFinished
  try dsimp only
  repeat' (first | with_reducible assumption | (intro) | with_reducible apply State.freeCheck_keeps | with_reducible apply State.proofChecked_keeps | with_reducible apply State.proofEnds_keeps | with_reducible apply Keeps.ite)

theorem State.keysAct_keeps {s u : State} (h : Keeps s u) (n : ℕ) : Keeps s (State.keysAct u n) := by
  unfold State.keysAct
  try dsimp only
  repeat' (first | with_reducible assumption | (intro) | with_reducible apply State.notice_keeps | with_reducible apply State.bayDown_keeps | with_reducible apply State.showTag_keeps | with_reducible apply State.modBay_keeps | with_reducible apply Keeps.ite)

theorem State.keysReach_keeps {s u : State} (h : Keeps s u) : Keeps s (State.keysReach u) := by
  unfold State.keysReach
  try dsimp only
  repeat' (first | with_reducible assumption | (intro) | with_reducible apply State.settle_keeps | with_reducible apply State.keysAct_keeps | with_reducible apply Keeps.ite | with_reducible apply Keeps.ite_snd | with_reducible apply Keeps.foldl)

theorem State.samples_keeps {s u : State} (h : Keeps s u) (isum : List ℤ) (vsum : List ℕ) : Keeps s (State.samples u isum vsum) := by
  unfold State.samples
  try dsimp only
  repeat' (first | with_reducible assumption | (intro) | with_reducible apply State.modBays_keeps)

theorem State.program_keeps {s u : State} (h : Keeps s u) (n : ℕ) (rail : Rail) (i : ℕ) (f : Chan → Chan) : Keeps s (State.program u n rail i f) := by
  unfold State.program
  try dsimp only
  repeat' (first | with_reducible assumption | (intro) | with_reducible apply State.modBay_keeps)

theorem State.programAll_keeps {s u : State} (h : Keeps s u) (n : ℕ) (rail : Rail) (c : Chan) : Keeps s (State.programAll u n rail c) := by
  unfold State.programAll
  try dsimp only
  repeat' (first | with_reducible assumption | (intro) | with_reducible apply State.modBay_keeps)

theorem State.lookBay_keeps {s u : State} (h : Keeps s u) (n : ℕ) : Keeps s (State.lookBay u n) := by
  unfold State.lookBay
  try dsimp only
  repeat' (first | with_reducible assumption | (intro) | with_reducible apply State.draw_keeps | with_reducible apply State.modBay_keeps)

theorem State.writeBayPort_keeps {s u : State} (h : Keeps s u) (n : ℕ) (o : ℕ) (v : ℕ) : Keeps s (State.writeBayPort u n o v) := by
  unfold State.writeBayPort
  try dsimp only
  repeat' (first | with_reducible assumption | (intro) | with_reducible apply State.settle_keeps | with_reducible apply State.bayStart_keeps | with_reducible apply State.bayStop_keeps | with_reducible apply State.program_keeps | with_reducible apply State.modBay_keeps | with_reducible apply State.proofRun_keeps | with_reducible apply Keeps.ite | with_reducible apply Keeps.ite_snd | with_reducible apply Keeps.foldl | split)

theorem State.writeShunt_keeps {s u : State} (h : Keeps s u) (r : ℕ) (v : ℕ) : Keeps s (State.writeShunt u r v) := by
  unfold State.writeShunt
  try dsimp only
  repeat' (first | with_reducible assumption | (intro) | with_reducible apply State.modBays_keeps)

theorem State.guardSlot_keeps {s u : State} (h : Keeps s u) (mainCodes : List ℤ) (auxCodes : List ℤ) : Keeps s (State.guardSlot u mainCodes auxCodes) := by
  unfold State.guardSlot
  try dsimp only
  repeat' (first | with_reducible assumption | (intro) | with_reducible apply State.modBays_keeps | with_reducible apply State.modEnv_keeps)

theorem State.assertHold_keeps {s u : State} (h : Keeps s u) : Keeps s (State.assertHold u) := by
  unfold State.assertHold
  try dsimp only
  repeat' (first | with_reducible assumption | (intro) | with_reducible apply State.modEnv_keeps | with_reducible apply State.notice_keeps | with_reducible apply Keeps.ite)

theorem State.guardHold_keeps {s u : State} (h : Keeps s u) : Keeps s (State.guardHold u) := by
  unfold State.guardHold
  try dsimp only
  repeat' (first | with_reducible assumption | (intro) | with_reducible apply State.assertHold_keeps | with_reducible apply Keeps.ite)

theorem State.guardClear_keeps {s u : State} (h : Keeps s u) : Keeps s (State.guardClear u) := by
  unfold State.guardClear
  try dsimp only
  repeat' (first | with_reducible assumption | (intro) | with_reducible apply State.modEnv_keeps | with_reducible apply State.notice_keeps | with_reducible apply Keeps.ite)

theorem State.guardRelease_keeps {s u : State} (h : Keeps s u) : Keeps s (State.guardRelease u) := by
  unfold State.guardRelease
  try dsimp only
  repeat' (first | with_reducible assumption | (intro) | with_reducible apply State.settle_keeps | with_reducible apply State.modEnv_keeps | with_reducible apply State.enterStarting_keeps | with_reducible apply Keeps.ite | with_reducible apply Keeps.ite_snd | with_reducible apply Keeps.foldl | split)

theorem State.guardShed_keeps {s u : State} (h : Keeps s u) : Keeps s (State.guardShed u) := by
  unfold State.guardShed
  try dsimp only
  repeat' (first | with_reducible assumption | (intro) | with_reducible apply State.modEnv_keeps | with_reducible apply State.assertHold_keeps | with_reducible apply State.trip_keeps | with_reducible apply Keeps.ite | with_reducible apply Keeps.ite_snd | with_reducible apply Keeps.foldl | split)

theorem State.readEnvPort_keeps {s u : State} (h : Keeps s u) (o : ℕ) : Keeps s (State.readEnvPort u o).2 := by
  unfold State.readEnvPort
  try dsimp only
  repeat' (first | with_reducible assumption | (intro) | with_reducible apply State.modEnv_keeps | with_reducible apply Keeps.ite | with_reducible apply Keeps.ite_snd | with_reducible apply Keeps.foldl | split)

theorem State.writeEnvPort_keeps {s u : State} (h : Keeps s u) (o : ℕ) (v : ℕ) : Keeps s (State.writeEnvPort u o v) := by
  unfold State.writeEnvPort
  try dsimp only
  repeat' (first | with_reducible assumption | (intro) | with_reducible apply State.modEnv_keeps | with_reducible apply Keeps.ite | with_reducible apply Keeps.ite_snd | with_reducible apply Keeps.foldl | split)

theorem State.replan_keeps {s u : State} (h : Keeps s u) : Keeps s (State.replan u) := by
  unfold State.replan
  try dsimp only
  repeat' (first | with_reducible assumption | (intro) | with_reducible apply State.modEnv_keeps | with_reducible apply State.notice_keeps | with_reducible apply Keeps.ite)

theorem State.unplan_keeps {s u : State} (h : Keeps s u) (n : ℕ) : Keeps s (State.unplan u n) := by
  unfold State.unplan
  try dsimp only
  repeat' (first | with_reducible assumption | (intro) | with_reducible apply State.modEnv_keeps)

theorem State.takeTick_keeps {s u : State} (h : Keeps s u) (q : Nat) (last : Option Nat) :
    ∀ p, u.takeTick q last = some p → Keeps s p.2 := by
  intro p e
  unfold State.takeTick at e
  split at e
  · cases e; exact h
  · split at e
    · split at e
      · cases e; exact State.serveItem_keeps h _
      · cases e
    · cases e

theorem State.planTick_keeps {s u : State} (h : Keeps s u) : Keeps s (State.planTick u) := by
  unfold State.planTick
  split
  · rename_i p e; exact State.modEnv_keeps (State.takeTick_keeps h _ _ p e) _
  · exact h

theorem State.planTicks_keeps {s u : State} (h : Keeps s u) (go : State → Bool) : Keeps s (State.planTicks u go) := by
  unfold State.planTicks
  try dsimp only
  repeat' (first | with_reducible assumption | (intro) | with_reducible apply State.planTick_keeps | with_reducible apply Keeps.ite | with_reducible apply Keeps.ite_snd | with_reducible apply Keeps.foldl)

theorem State.plannerStart_keeps {s u : State} (h : Keeps s u) (n : ℕ) : Keeps s (State.plannerStart u n) := by
  unfold State.plannerStart
  try dsimp only
  repeat' (first | with_reducible assumption | (intro) | with_reducible apply State.planTicks_keeps | with_reducible apply State.bayStart_keeps | with_reducible apply State.unplan_keeps | with_reducible apply State.modEnv_keeps | with_reducible apply State.settle_keeps | with_reducible apply State.endWork_keeps | with_reducible apply Keeps.ite | with_reducible apply Keeps.ite_snd | with_reducible apply Keeps.foldl | split)

theorem State.pointEnds_keeps {s u : State} (h : Keeps s u) : Keeps s (State.pointEnds u) := by
  unfold State.pointEnds
  try dsimp only
  repeat' (first | with_reducible assumption | (intro) | with_reducible apply State.modEnv_keeps)

theorem State.profileUpdate_keeps {s u : State} (h : Keeps s u) (n : ℕ) : Keeps s (State.profileUpdate u n) := by
  unfold State.profileUpdate
  try dsimp only
  repeat' (first | with_reducible assumption | (intro) | with_reducible apply State.updateProfile_keeps | with_reducible apply State.settle_keeps | with_reducible apply State.modBay_keeps | with_reducible apply Keeps.ite | with_reducible apply Keeps.ite_snd | with_reducible apply Keeps.foldl | split)

theorem State.modKeys_keeps {s u : State} (h : Keeps s u) (f : Keys → Keys) : Keeps s (State.modKeys u f) := by
  unfold State.modKeys
  try dsimp only
  repeat' (first | with_reducible assumption | (intro) | with_reducible apply Keeps.ite | with_reducible apply Keeps.ite_snd | with_reducible apply Keeps.foldl | split | simp only [Keeps.mk])

theorem State.runFrame_keeps {s u : State} (h : Keeps s u) (x0 : Nat) (x2 : ScanRun) : Keeps s (State.runFrame x0 u x2) := by
  induction x0 generalizing u x2 with
  | zero => unfold State.runFrame; repeat' (first | with_reducible assumption | (intro) | with_reducible apply State.visible_keeps | with_reducible apply State.await_keeps | with_reducible apply State.served_keeps | with_reducible apply State.modKeys_keeps)
  | succ n ih =>
    unfold State.runFrame
    try dsimp only
    repeat' (first | with_reducible assumption | (intro) | with_reducible apply ih | with_reducible apply State.visible_keeps | with_reducible apply State.await_keeps | with_reducible apply State.served_keeps | with_reducible apply State.modKeys_keeps | with_reducible apply Mem.wf_puts | with_reducible apply Mem.wf_clear | with_reducible apply Mem.wf_nil | with_reducible apply Mem.wf_putUnit | with_reducible apply Keeps.ite | with_reducible apply Keeps.ite_snd | with_reducible apply Keeps.foldl | split)

theorem State.scanRate_keeps {s u : State} (h : Keeps s u) : Keeps s (State.scanRate u) := by
  unfold State.scanRate
  try dsimp only
  repeat' (first | with_reducible assumption | (intro) | with_reducible apply State.modKeys_keeps)

theorem State.frameStart_keeps {s u : State} (h : Keeps s u) (contacts : Vector (BitVec 32) 16) : Keeps s (State.frameStart u contacts) := by
  unfold State.frameStart
  try dsimp only
  repeat' (first | with_reducible assumption | (intro) | with_reducible apply State.scanRate_keeps | with_reducible apply State.modKeys_keeps | with_reducible apply State.draw_keeps | with_reducible apply State.runFrame_keeps | with_reducible apply Keeps.ite)

theorem State.runLater_keeps {s u : State} (h : Keeps s u) (r : ScanRun) : Keeps s (State.runLater u r) := by
  unfold State.runLater
  try dsimp only
  repeat' (first | with_reducible assumption | (intro) | with_reducible apply State.draw_keeps | with_reducible apply State.runFrame_keeps)

theorem State.stallResume_keeps {s u : State} (h : Keeps s u) : Keeps s (State.stallResume u) := by
  unfold State.stallResume
  try dsimp only
  repeat' (first | with_reducible assumption | (intro) | with_reducible apply State.runLater_keeps | with_reducible apply Keeps.ite | with_reducible apply Keeps.ite_snd | with_reducible apply Keeps.foldl | split)

theorem State.disarm_keeps {s u : State} (h : Keeps s u) : Keeps s (State.disarm u) := by
  unfold State.disarm
  try dsimp only
  repeat' (first | with_reducible assumption | (intro) | with_reducible apply State.modKeys_keeps | with_reducible apply State.runLater_keeps | with_reducible apply State.modSow_keeps | with_reducible apply Keeps.ite | with_reducible apply Keeps.ite_snd | with_reducible apply Keeps.foldl | split)

theorem State.switchSeen_keeps {s u : State} (h : Keeps s u) : Keeps s (State.switchSeen u) := by
  unfold State.switchSeen
  try dsimp only
  repeat' (first | with_reducible assumption | (intro) | with_reducible apply State.modKeys_keeps | with_reducible apply State.notice_keeps | with_reducible apply Keeps.ite)

theorem State.switchTick_keeps {s u : State} (h : Keeps s u) : Keeps s (State.switchTick u) := by
  unfold State.switchTick
  try dsimp only
  repeat' (first | with_reducible assumption | (intro) | with_reducible apply State.modKeys_keeps | with_reducible apply Keeps.ite)

theorem State.switchFault_keeps {s u : State} (h : Keeps s u) : Keeps s (State.switchFault u) := by
  unfold State.switchFault
  try dsimp only
  repeat' (first | with_reducible assumption | (intro) | with_reducible apply State.notice_keeps | with_reducible apply State.modKeys_keeps | with_reducible apply Keeps.ite)

theorem State.frameDone_keeps {s u : State} (h : Keeps s u) : Keeps s (State.frameDone u) := by
  unfold State.frameDone
  try dsimp only
  repeat' (first | with_reducible assumption | (intro) | with_reducible apply State.modKeys_keeps | with_reducible apply State.showTags_keeps | with_reducible apply State.switchSeen_keeps | with_reducible apply State.keysReach_keeps | with_reducible apply Keeps.ite | with_reducible apply Keeps.ite_snd | with_reducible apply Keeps.foldl | split)

theorem State.serveKey_keeps {s u : State} (h : Keeps s u) : Keeps s (State.serveKey u) := by
  unfold State.serveKey
  try dsimp only
  repeat' (first | with_reducible assumption | (intro) | with_reducible apply State.serveItem_keeps | with_reducible apply State.notice_keeps | with_reducible apply State.lcPost_keeps | with_reducible apply State.showTag_keeps | with_reducible apply Keeps.ite | with_reducible apply Keeps.ite_snd | with_reducible apply Keeps.foldl | split)

theorem State.leverClosed_keeps {s u : State} (h : Keeps s u) (n : ℕ) : Keeps s (State.leverClosed u n) := by
  unfold State.leverClosed
  try dsimp only
  repeat' (first | with_reducible assumption | (intro) | with_reducible apply State.notice_keeps | with_reducible apply State.showTag_keeps | with_reducible apply Keeps.ite)

theorem State.writeKeyPort_keeps {s u : State} (h : Keeps s u) (o : ℕ) (v : ℕ) : Keeps s (State.writeKeyPort u o v) := by
  unfold State.writeKeyPort
  try dsimp only
  repeat' (first | with_reducible assumption | (intro) | with_reducible apply State.modKeys_keeps | with_reducible apply State.disarm_keeps | with_reducible apply Keeps.ite)

theorem State.modSdb_keeps {s u : State} (h : Keeps s u) (f : Seedbank → Seedbank) (g : ∀ x : Seedbank, Mem.wf zeroByte x.mem = true → Mem.wf zeroByte (f x).mem = true := by intro _ hx; first | exact hx | simp_all) :
    Keeps s (u.modSdb f) :=
  ⟨h.1, fun m => by
    have := h.2 m; unfold State.memOk at *; simp only [State.modSdb_mems, State.modSdb_gran, State.modSdb_fur, State.modSdb_sdb]
    exact ⟨this.1, this.2.1, this.2.2.1, this.2.2.2.1, this.2.2.2.2.1, this.2.2.2.2.2.1, this.2.2.2.2.2.2.1, g _ this.2.2.2.2.2.2.2⟩⟩

theorem State.applySetting_keeps {s u : State} (h : Keeps s u) (x1 : Setting) : Keeps s (State.applySetting u x1) := by
  unfold State.applySetting
  try dsimp only
  repeat' (first | with_reducible assumption | (intro) | with_reducible apply State.modSdb_keeps | with_reducible apply State.modRing_keeps | with_reducible apply Keeps.ite | with_reducible apply Keeps.ite_snd | with_reducible apply Keeps.foldl | split | simp only [Keeps.mk] | (refine Keeps.snd_of (by assumption) ?_) | (refine Keeps.fst_of (by assumption) ?_) | dsimp only | (simp only [Granary.give_mem, Granary.take_mem, Seedbank.setEnv_mem, Seedbank.modTen_mem]) | with_reducible apply Mem.wf_puts | with_reducible apply Mem.wf_clear | (exact Mem.wf_nil _) | with_reducible apply Mem.wf_putUnit | with_reducible apply Keeps.mkMems)

theorem State.retirePage_keeps {s u : State} (h : Keeps s u) (p : ℕ) : Keeps s (State.retirePage u p) := by
  unfold State.retirePage
  try dsimp only
  repeat' (first | with_reducible assumption | (intro) | with_reducible apply State.modSdb_keeps)

theorem State.worn_keeps {s u : State} (h : Keeps s u) : Keeps s (State.worn u) := by
  unfold State.worn
  try dsimp only
  repeat' (first | with_reducible assumption | (intro) | with_reducible apply State.notice_keeps | with_reducible apply State.modSdb_keeps | with_reducible apply Keeps.ite)

theorem State.wearCheck_keeps {s u : State} (h : Keeps s u) (j : SdbJob) : Keeps s (State.wearCheck u j) := by
  unfold State.wearCheck
  try dsimp only
  repeat' (first | with_reducible assumption | (intro) | with_reducible apply State.retirePage_keeps | with_reducible apply State.worn_keeps | with_reducible apply Keeps.ite)

theorem State.sdbKick_keeps {s u : State} (h : Keeps s u) : Keeps s (State.sdbKick u) := by
  unfold State.sdbKick
  try dsimp only
  repeat' (first | with_reducible assumption | (intro) | with_reducible apply State.modSdb_keeps | with_reducible apply State.wearCheck_keeps | with_reducible apply Keeps.ite | with_reducible apply Keeps.ite_snd | with_reducible apply Keeps.foldl | split)

theorem State.sdbAsk_keeps {s u : State} (h : Keeps s u) (j : SdbJob) : Keeps s (State.sdbAsk u j) := by
  unfold State.sdbAsk
  try dsimp only
  repeat' (first | with_reducible assumption | (intro) | with_reducible apply State.sdbKick_keeps | with_reducible apply State.modSdb_keeps)

theorem State.pageDamage_keeps {s u : State} (h : Keeps s u) (p : ℕ) : Keeps s (State.pageDamage u p) := by
  unfold State.pageDamage
  try dsimp only
  repeat' (first | with_reducible assumption | (intro) | with_reducible apply State.draw_keeps | with_reducible apply State.modSdb_keeps | with_reducible apply Keeps.ite | with_reducible apply Keeps.ite_snd | with_reducible apply Keeps.foldl | split | simp only [Keeps.mk] | (refine Keeps.snd_of (by assumption) ?_) | (refine Keeps.fst_of (by assumption) ?_) | dsimp only | (simp only [Granary.give_mem, Granary.take_mem, Seedbank.setEnv_mem, Seedbank.modTen_mem]) | with_reducible apply Mem.wf_puts)

theorem State.jobStored_keeps {s u : State} (h : Keeps s u) (j : SdbJob) : Keeps s (State.jobStored u j) := by
  unfold State.jobStored
  try dsimp only
  repeat' (first | with_reducible assumption | (intro) | with_reducible apply State.applySetting_keeps | with_reducible apply State.modSdb_keeps | with_reducible apply Keeps.ite | with_reducible apply Keeps.ite_snd | with_reducible apply Keeps.foldl | split | simp only [Keeps.mk] | (refine Keeps.snd_of (by assumption) ?_) | (refine Keeps.fst_of (by assumption) ?_) | dsimp only | (simp only [Granary.give_mem, Granary.take_mem, Seedbank.setEnv_mem, Seedbank.modTen_mem]) | with_reducible apply Mem.wf_puts)

theorem State.jobFailed_keeps {s u : State} (h : Keeps s u) (j : SdbJob) : Keeps s (State.jobFailed u j) := by
  unfold State.jobFailed
  try dsimp only
  repeat' (first | with_reducible assumption | (intro) | with_reducible apply State.modSdb_keeps | with_reducible apply State.pageDamage_keeps | with_reducible apply State.retirePage_keeps | with_reducible apply State.worn_keeps | with_reducible apply State.sdbKick_keeps | with_reducible apply Keeps.ite)

theorem State.sdbCmd_keeps {s u : State} (h : Keeps s u) (v : ℕ) : Keeps s (State.sdbCmd u v) := by
  unfold State.sdbCmd
  try dsimp only
  repeat' (first | with_reducible assumption | (intro) | with_reducible apply State.modSdb_keeps | with_reducible apply Keeps.ite)

theorem State.sdbPortDone_keeps {s u : State} (h : Keeps s u) (verified : Bool) : Keeps s (State.sdbPortDone u verified) := by
  unfold State.sdbPortDone
  try dsimp only
  repeat' (first | with_reducible assumption | (intro) | with_reducible apply State.modSdb_keeps | with_reducible apply State.pageDamage_keeps | with_reducible apply Keeps.ite | with_reducible apply Keeps.ite_snd | with_reducible apply Keeps.foldl | split | simp only [Keeps.mk] | (refine Keeps.snd_of (by assumption) ?_) | (refine Keeps.fst_of (by assumption) ?_) | dsimp only | (simp only [Granary.give_mem, Granary.take_mem, Seedbank.setEnv_mem, Seedbank.modTen_mem]) | with_reducible apply Mem.wf_puts)

theorem State.loadSeedbank_keeps {s u : State} (h : Keeps s u) : Keeps s u.loadSeedbank := by
  unfold State.loadSeedbank
  exact h.of_eq rfl rfl rfl rfl (by simp)

theorem State.modFans_keeps {s u : State} (h : Keeps s u) (f : Fans → Fans) : Keeps s (State.modFans u f) := by
  unfold State.modFans
  try dsimp only
  repeat' (first | with_reducible assumption | (intro) | with_reducible apply Keeps.ite | with_reducible apply Keeps.ite_snd | with_reducible apply Keeps.foldl | split | simp only [Keeps.mk])

theorem State.modFan_keeps {s u : State} (h : Keeps s u) (n : ℕ) (f : Fan → Fan) : Keeps s (State.modFan u n f) := by
  unfold State.modFan
  try dsimp only
  repeat' (first | with_reducible assumption | (intro) | with_reducible apply State.modFans_keeps)

theorem State.fansAuto_keeps {s u : State} (h : Keeps s u) : Keeps s (State.fansAuto u) := by
  unfold State.fansAuto
  try dsimp only
  repeat' (first | with_reducible assumption | (intro) | with_reducible apply State.modFans_keeps)

theorem State.tach_keeps {s u : State} (h : Keeps s u) (n : ℕ) (pulses : ℕ) : Keeps s (State.tach u n pulses) := by
  unfold State.tach
  try dsimp only
  repeat' (first | with_reducible assumption | (intro) | with_reducible apply State.modFan_keeps | with_reducible apply State.notice_keeps | with_reducible apply Keeps.ite)

theorem State.fanTick_keeps {s u : State} (h : Keeps s u) : Keeps s (State.fanTick u) := by
  unfold State.fanTick
  try dsimp only
  repeat' (first | with_reducible assumption | (intro) | with_reducible apply State.modFans_keeps | with_reducible apply Keeps.ite)

theorem State.fanStalls_keeps {s u : State} (h : Keeps s u) (n : ℕ) : Keeps s (State.fanStalls u n) := by
  unfold State.fanStalls
  try dsimp only
  repeat' (first | with_reducible assumption | (intro) | with_reducible apply State.notice_keeps | with_reducible apply State.modFan_keeps | with_reducible apply Keeps.ite)

theorem State.dieAlarm_keeps {s u : State} (h : Keeps s u) : Keeps s (State.dieAlarm u) := by
  unfold State.dieAlarm
  try dsimp only
  repeat' (first | with_reducible assumption | (intro) | with_reducible apply State.notice_keeps | with_reducible apply State.modFans_keeps | with_reducible apply Keeps.ite)

theorem State.converted_keeps {s u : State} (h : Keeps s u) (i : ℕ) (code : ℕ) : Keeps s (State.converted u i code) := by
  unfold State.converted
  try dsimp only
  repeat' (first | with_reducible assumption | (intro) | with_reducible apply State.modFans_keeps | with_reducible apply State.dieAlarm_keeps | with_reducible apply State.fansAuto_keeps | with_reducible apply Keeps.ite)

theorem State.writeFanPort_keeps {s u : State} (h : Keeps s u) (o : ℕ) (v : ℕ) : Keeps s (State.writeFanPort u o v) := by
  unfold State.writeFanPort
  try dsimp only
  repeat' (first | with_reducible assumption | (intro) | with_reducible apply State.modFan_keeps | with_reducible apply Keeps.ite)

theorem State.modFace_keeps {s u : State} (h : Keeps s u) (f : Face → Face) : Keeps s (State.modFace u f) := by
  unfold State.modFace
  try dsimp only
  repeat' (first | with_reducible assumption | (intro) | with_reducible apply Keeps.ite | with_reducible apply Keeps.ite_snd | with_reducible apply Keeps.foldl | split | simp only [Keeps.mk])

theorem State.render_keeps {s u : State} (h : Keeps s u) : Keeps s (State.render u) := by
  unfold State.render
  try dsimp only
  repeat' (first | with_reducible assumption | (intro) | with_reducible apply State.modSys_keeps | with_reducible apply State.modFace_keeps)

theorem State.faceFrame_keeps {s u : State} (h : Keeps s u) : Keeps s (State.faceFrame u) := by
  unfold State.faceFrame
  try dsimp only
  repeat' (first | with_reducible assumption | (intro) | with_reducible apply State.modFace_keeps)

theorem State.press_keeps {s u : State} (h : Keeps s u) : Keeps s (State.press u) := by
  unfold State.press
  try dsimp only
  repeat' (first | with_reducible assumption | (intro) | with_reducible apply State.modFace_keeps)

theorem State.keypadShow_keeps {s u : State} (h : Keeps s u) (d : Display) : Keeps s (State.keypadShow u d) := by
  unfold State.keypadShow
  try dsimp only
  repeat' (first | with_reducible assumption | (intro) | with_reducible apply State.modFace_keeps)

theorem State.showErr_keeps {s u : State} (h : Keeps s u) : Keeps s (State.showErr u) := by
  unfold State.showErr
  try dsimp only
  repeat' (first | with_reducible assumption | (intro) | with_reducible apply State.modFace_keeps | with_reducible apply State.keypadShow_keeps)

theorem State.keypadBay_keeps {s u : State} (h : Keeps s u) (digits : List (Fin 10)) : Keeps s (State.keypadBay u digits) := by
  unfold State.keypadBay
  try dsimp only
  repeat' (first | with_reducible assumption | (intro) | with_reducible apply State.showErr_keeps | with_reducible apply State.press_keeps | with_reducible apply State.keypadShow_keeps | with_reducible apply Keeps.ite)

theorem State.keypadTenancy_keeps {s u : State} (h : Keeps s u) (digits : List (Fin 10)) : Keeps s (State.keypadTenancy u digits) := by
  unfold State.keypadTenancy
  try dsimp only
  repeat' (first | with_reducible assumption | (intro) | with_reducible apply State.showErr_keeps | with_reducible apply State.press_keeps | with_reducible apply State.keypadShow_keeps | with_reducible apply Keeps.ite)

theorem State.keypadStep_keeps {s u : State} (h : Keeps s u) (up : Bool) : Keeps s (State.keypadStep u up) := by
  unfold State.keypadStep
  try dsimp only
  repeat' (first | with_reducible assumption | (intro) | with_reducible apply State.keypadShow_keeps | with_reducible apply State.press_keeps | with_reducible apply Keeps.ite | with_reducible apply Keeps.ite_snd | with_reducible apply Keeps.foldl | split)

theorem State.setLocate_keeps {s u : State} (h : Keeps s u) (n : ℕ) (on : Bool) : Keeps s (State.setLocate u n on) := by
  unfold State.setLocate
  try dsimp only
  repeat' (first | with_reducible assumption | (intro) | with_reducible apply State.showTag_keeps | with_reducible apply State.modBay_keeps)

theorem State.keypadLocate_keeps {s u : State} (h : Keeps s u) : Keeps s (State.keypadLocate u) := by
  unfold State.keypadLocate
  try dsimp only
  repeat' (first | with_reducible assumption | (intro) | with_reducible apply State.setLocate_keeps | with_reducible apply State.press_keeps | with_reducible apply State.showErr_keeps | with_reducible apply Keeps.ite | with_reducible apply Keeps.ite_snd | with_reducible apply Keeps.foldl | split)

theorem State.locateKey_keeps {s u : State} (h : Keeps s u) (n : ℕ) : Keeps s (State.locateKey u n) := by
  unfold State.locateKey
  try dsimp only
  repeat' (first | with_reducible assumption | (intro) | with_reducible apply State.setLocate_keeps | with_reducible apply State.keypadShow_keeps | with_reducible apply Keeps.ite)

theorem State.askWake_keeps {s u : State} (h : Keeps s u) (c : WakeCause) : Keeps s (State.askWake u c) := by
  unfold State.askWake
  try dsimp only
  repeat' (first | with_reducible assumption | (intro) | with_reducible apply State.modSys_keeps)

theorem State.panelWake_keeps {s u : State} (h : Keeps s u) : Keeps s (State.panelWake u) := by
  unfold State.panelWake
  try dsimp only
  repeat' (first | with_reducible assumption | (intro) | with_reducible apply State.press_keeps | with_reducible apply State.notice_keeps | with_reducible apply State.askWake_keeps | with_reducible apply Keeps.ite)

theorem State.panelRest_keeps {s u : State} (h : Keeps s u) : Keeps s (State.panelRest u) := by
  unfold State.panelRest
  try dsimp only
  repeat' (first | with_reducible assumption | (intro) | with_reducible apply State.press_keeps | with_reducible apply State.showErr_keeps | with_reducible apply State.accept_keeps | with_reducible apply Keeps.ite)

theorem State.setDot_keeps {s u : State} (h : Keeps s u) (held : Bool) : Keeps s (State.setDot u held) := by
  unfold State.setDot
  try dsimp only
  repeat' (first | with_reducible assumption | (intro) | with_reducible apply State.showTags_keeps | with_reducible apply State.modFace_keeps | with_reducible apply State.press_keeps | with_reducible apply Keeps.ite)

theorem State.serveKeyEvent_keeps {s u : State} (h : Keeps s u) : Keeps s (State.serveKeyEvent u) := by
  unfold State.serveKeyEvent
  repeat' (first | with_reducible assumption | with_reducible apply State.press_keeps | with_reducible apply State.serveKey_keeps | with_reducible apply Keeps.ite | split)

theorem State.writeFacePort_keeps {s u : State} (h : Keeps s u) (o : ℕ) (v : ℕ) : Keeps s (State.writeFacePort u o v) := by
  unfold State.writeFacePort
  try dsimp only
  repeat' (first | with_reducible assumption | (intro) | with_reducible apply State.modFace_keeps | with_reducible apply Keeps.ite)

theorem State.writeTagPort_keeps {s u : State} (h : Keeps s u) (o : ℕ) (v : ℕ) : Keeps s (State.writeTagPort u o v) := by
  unfold State.writeTagPort
  try dsimp only
  repeat' (first | with_reducible assumption | (intro) | with_reducible apply State.modTags_keeps | with_reducible apply Keeps.ite)

theorem State.modPlot_keeps {s u : State} (h : Keeps s u) (t : ℕ) (f : Plot → Plot) : Keeps s (State.modPlot u t f) := by
  unfold State.modPlot
  try dsimp only
  repeat' (first | with_reducible assumption | (intro) | with_reducible apply Keeps.ite | with_reducible apply Keeps.ite_snd | with_reducible apply Keeps.foldl | split | simp only [Keeps.mk])

theorem State.open__keeps {s u : State} (h : Keeps s u) (q : Src) (name : String) (form : Form) : Keeps s (State.open_ u q name form) := by
  unfold State.open_
  try dsimp only
  repeat' (first | with_reducible assumption | (intro) | with_reducible apply State.accept_keeps | with_reducible apply State.busy_keeps | with_reducible apply Keeps.ite)

theorem State.lines_keeps {s u : State} (h : Keeps s u) (q : Src) (l : List String) : Keeps s (State.lines u q l) := by
  unfold State.lines
  try dsimp only
  repeat' (first | with_reducible assumption | (intro) | with_reducible apply State.reply_keeps | with_reducible apply State.mores_keeps)

theorem State.countLeft_keeps {s u : State} (h : Keeps s u) (k : ℕ) (l : List ℕ) : Keeps s (State.countLeft u k l) := by
  unfold State.countLeft
  try dsimp only
  repeat' (first | with_reducible assumption | (intro) | with_reducible apply State.ignore_keeps | with_reducible apply Keeps.ite)

theorem State.openBays_keeps {s u : State} (h : Keeps s u) (q : Src) (form : Form) (l : List ℕ) : Keeps s (State.openBays u q form l) := by
  unfold State.openBays
  try dsimp only
  repeat' (first | with_reducible assumption | (intro) | with_reducible apply State.countLeft_keeps | with_reducible apply State.open__keeps | with_reducible apply State.busy_keeps | with_reducible apply Keeps.ite)

theorem State.proveRail_keeps {s u : State} (h : Keeps s u) (n : ℕ) (rail : Rail) (ok : Bool) : Keeps s (State.proveRail u n rail ok) := by
  unfold State.proveRail
  try dsimp only
  repeat' (first | with_reducible assumption | (intro) | with_reducible apply State.proofEnds_keeps | with_reducible apply State.proofChecked_keeps | with_reducible apply State.proofBegins_keeps)

theorem State.unlockProofs_keeps {s u : State} (h : Keeps s u) (n : ℕ) (proofM : Bool) (proofA : Bool) : Keeps s (State.unlockProofs u n proofM proofA) := by
  unfold State.unlockProofs
  try dsimp only
  repeat' (first | with_reducible assumption | (intro) | with_reducible apply State.proofRun_keeps | with_reducible apply State.modBay_keeps | with_reducible apply State.proofFinished_keeps | with_reducible apply State.proveRail_keeps)

theorem State.later_keeps {s u : State} (h : Keeps s u) (k : ℕ) (d : Due) : Keeps s (State.later u k d) := by
  unfold State.later
  try dsimp only
  repeat' (first | with_reducible assumption | (intro) | with_reducible apply State.modSys_keeps | with_reducible apply Keeps.ite)

theorem State.unhold_keeps {s u : State} (h : Keeps s u) (kk : ℕ) (seq : ℕ) : Keeps s (State.unhold u kk seq) := by
  unfold State.unhold
  try dsimp only
  repeat' (first | with_reducible assumption | (intro) | with_reducible apply State.modHnd_keeps | with_reducible apply State.modRing_keeps | with_reducible apply State.orphan_keeps | with_reducible apply Keeps.ite | with_reducible apply Keeps.ite_snd | with_reducible apply Keeps.foldl | split)

theorem State.reopen_keeps {s u : State} (h : Keeps s u) (k : ℕ) (x : Session) : Keeps s (State.reopen u k x) := by
  unfold State.reopen
  try dsimp only
  repeat' (first | with_reducible assumption | (intro) | with_reducible apply State.modRing_keeps | with_reducible apply State.modSes_keeps | with_reducible apply Keeps.ite)

theorem State.endSession_keeps {s u : State} (h : Keeps s u) (k : ℕ) : Keeps s (State.endSession u k) := by
  unfold State.endSession
  try dsimp only
  repeat' (first | with_reducible assumption | (intro) | with_reducible apply State.modSes_keeps | with_reducible apply State.modHnd_keeps | with_reducible apply State.modSdb_keeps | with_reducible apply State.modBays_keeps | with_reducible apply State.modSys_keeps | with_reducible apply State.reopen_keeps | with_reducible apply State.unhold_keeps | with_reducible apply Keeps.ite | with_reducible apply Keeps.ite_snd | with_reducible apply Keeps.foldl)

theorem State.store_keeps {s u : State} (h : Keeps s u) (q : Src) (x : Setting) (answer : String) : Keeps s (State.store u q x answer) := by
  unfold State.store
  try dsimp only
  repeat' (first | with_reducible assumption | (intro) | with_reducible apply State.nextCheck_keeps | with_reducible apply State.sdbAsk_keeps)

theorem State.setTraced_keeps {s u : State} (h : Keeps s u) (cores : List CoreId) (on : Bool) : Keeps s (State.setTraced u cores on) := by
  unfold State.setTraced
  try dsimp only
  repeat' (first | with_reducible assumption | (intro) | with_reducible apply State.modSow_keeps)

theorem State.deliver_keeps {s u : State} (h : Keeps s u) (k : Kept) : Keeps s (State.deliver u k) := by
  unfold State.deliver
  try dsimp only
  repeat' (first | with_reducible assumption | (intro) | with_reducible apply State.writeKept_keeps | with_reducible apply State.modHnd_keeps | with_reducible apply Keeps.ite)

theorem State.modLed_keeps {s u : State} (h : Keeps s u) (f : Ledger → Ledger) : Keeps s (State.modLed u f) := by
  unfold State.modLed
  try dsimp only
  repeat' (first | with_reducible assumption | (intro) | with_reducible apply Keeps.ite | with_reducible apply Keeps.ite_snd | with_reducible apply Keeps.foldl | split | simp only [Keeps.mk])

theorem State.modCal_keeps {s u : State} (h : Keeps s u) (f : Calendar → Calendar) : Keeps s (State.modCal u f) := by
  unfold State.modCal
  try dsimp only
  repeat' (first | with_reducible assumption | (intro) | with_reducible apply Keeps.ite | with_reducible apply Keeps.ite_snd | with_reducible apply Keeps.foldl | split | simp only [Keeps.mk])

theorem State.accrue_keeps {s u : State} (h : Keeps s u) (k : ℕ) (t : ℕ) (i : ℕ) (x : ℕ) : Keeps s (State.accrue u k t i x) := by
  unfold State.accrue
  try dsimp only
  repeat' (first | with_reducible assumption | (intro) | with_reducible apply State.modLed_keeps | with_reducible apply State.notice_keeps | with_reducible apply Keeps.ite)

theorem State.accrueCapacity_keeps {s u : State} (h : Keeps s u) (k : ℕ) (n : ℕ) : Keeps s (State.accrueCapacity u k n) := by
  unfold State.accrueCapacity
  try dsimp only
  repeat' (first | with_reducible assumption | (intro) | with_reducible apply State.accrue_keeps | with_reducible apply Keeps.ite | with_reducible apply Keeps.ite_snd | with_reducible apply Keeps.foldl)

theorem State.checkpoint_keeps {s u : State} (h : Keeps s u) (tick : ℕ) : Keeps s (State.checkpoint u tick) := by
  unfold State.checkpoint
  try dsimp only
  repeat' (first | with_reducible assumption | (intro) | with_reducible apply State.furPut_keeps | with_reducible apply State.modLed_keeps | with_reducible apply Keeps.ite | with_reducible apply Keeps.ite_snd | with_reducible apply Keeps.foldl)

theorem State.endInterval_keeps {s u : State} (h : Keeps s u) : Keeps s (State.endInterval u) := by
  unfold State.endInterval
  try dsimp only
  repeat' (first | with_reducible assumption | (intro) | with_reducible apply State.checkpoint_keeps | with_reducible apply State.modEnv_keeps | with_reducible apply State.modLed_keeps | with_reducible apply Keeps.ite | with_reducible apply Keeps.ite_snd | with_reducible apply Keeps.foldl | split)

theorem State.endIntervals_keeps {s u : State} (h : Keeps s u) : Keeps s (State.endIntervals u) := by
  unfold State.endIntervals
  try dsimp only
  repeat' (first | with_reducible assumption | (intro) | with_reducible apply State.endInterval_keeps | with_reducible apply Keeps.ite | with_reducible apply Keeps.ite_snd | with_reducible apply Keeps.foldl)

theorem State.endEarly_keeps {s u : State} (h : Keeps s u) : Keeps s (State.endEarly u) := by
  unfold State.endEarly
  try dsimp only
  repeat' (first | with_reducible assumption | (intro) | with_reducible apply State.endIntervals_keeps | with_reducible apply State.modLed_keeps)

theorem State.gap_keeps {s u : State} (h : Keeps s u) (cause : ℕ) (accMask : ℕ) (tenMask : ℕ) (fromTick : ℕ) (ticks : ℕ) (prevSeq : ℕ) (utc : ℕ) : Keeps s (State.gap u cause accMask tenMask fromTick ticks prevSeq utc) := by
  unfold State.gap
  try dsimp only
  repeat' (first | with_reducible assumption | (intro) | with_reducible apply State.modLed_keeps | with_reducible apply State.furPut_keeps | with_reducible apply Keeps.ite)

theorem State.endHanded_keeps {s u : State} (h : Keeps s u) : Keeps s (State.endHanded u) := by
  unfold State.endHanded
  try dsimp only
  repeat' (first | with_reducible assumption | (intro) | with_reducible apply State.endInterval_keeps | with_reducible apply Keeps.ite | with_reducible apply Keeps.ite_snd | with_reducible apply Keeps.foldl)

theorem State.loseField_keeps {s u : State} (h : Keeps s u) (cause : ℕ) : Keeps s (State.loseField u cause) := by
  unfold State.loseField
  try dsimp only
  repeat' (first | with_reducible assumption | (intro) | with_reducible apply State.modLed_keeps | with_reducible apply State.endHanded_keeps | with_reducible apply State.endEarly_keeps | with_reducible apply State.gap_keeps | with_reducible apply Keeps.ite)

theorem State.accrueMark_keeps {s u : State} (h : Keeps s u) (k : ℕ) (v : Vector Acc 16) : Keeps s (State.accrueMark u k v) := by
  unfold State.accrueMark
  try dsimp only
  repeat' (first | with_reducible assumption | (intro) | with_reducible apply State.accrue_keeps | with_reducible apply Keeps.ite | with_reducible apply Keeps.ite_snd | with_reducible apply Keeps.foldl)

theorem State.missedTicks_keeps {s u : State} (h : Keeps s u) (k : ℕ) : Keeps s (State.missedTicks u k) := by
  unfold State.missedTicks
  try dsimp only
  repeat' (first | with_reducible assumption | (intro) | with_reducible apply State.gap_keeps | with_reducible apply Keeps.ite | with_reducible apply Keeps.ite_snd | with_reducible apply Keeps.foldl | split)

theorem State.serveTick_keeps {s u : State} (h : Keeps s u) (k : ℕ) : Keeps s (State.serveTick u k) := by
  unfold State.serveTick
  try dsimp only
  repeat' (first | with_reducible assumption | (intro) | with_reducible apply State.missedTicks_keeps | with_reducible apply State.modLed_keeps | with_reducible apply State.accrueMark_keeps | with_reducible apply Keeps.ite | with_reducible apply Keeps.ite_snd | with_reducible apply Keeps.foldl)

theorem State.tickItemPost_keeps {s u : State} (h : Keeps s u) : Keeps s (State.tickItemPost u) := by
  unfold State.tickItemPost
  try dsimp only
  repeat' (first | with_reducible assumption | (intro) | with_reducible apply State.modCal_keeps | with_reducible apply State.visible_keeps | with_reducible apply State.served_keeps | with_reducible apply Keeps.ite | with_reducible apply Keeps.ite_snd | with_reducible apply Keeps.foldl | split)

theorem State.lcTick_keeps {s u : State} (h : Keeps s u) : Keeps s (State.lcTick u) := by
  unfold State.lcTick
  try dsimp only
  repeat' (first | with_reducible assumption | (intro) | with_reducible apply State.serveItem_keeps | with_reducible apply State.endItem_keeps | with_reducible apply State.lcPost_keeps | with_reducible apply State.takeUpItem_keeps | with_reducible apply Keeps.ite | with_reducible apply Keeps.ite_snd | with_reducible apply Keeps.foldl | split)

theorem State.lcTicks_keeps {s u : State} (h : Keeps s u) : Keeps s (State.lcTicks u) := by
  unfold State.lcTicks
  try dsimp only
  repeat' (first | with_reducible assumption | (intro) | with_reducible apply State.planTicks_keeps | with_reducible apply State.lcTick_keeps | with_reducible apply Keeps.ite | with_reducible apply Keeps.ite_snd | with_reducible apply Keeps.foldl)

theorem State.ledgerServe_keeps {s u : State} (h : Keeps s u) : Keeps s (State.ledgerServe u) := by
  unfold State.ledgerServe
  split
  · rename_i p e; exact State.serveTick_keeps (State.takeTick_keeps h _ _ p e) _
  · exact h

theorem State.serveTicks_keeps {s u : State} (h : Keeps s u) : Keeps s (State.serveTicks u) := by
  unfold State.serveTicks
  try dsimp only
  repeat' (first | with_reducible assumption | (intro) | with_reducible apply State.lcTicks_keeps | with_reducible apply State.ledgerServe_keeps | with_reducible apply Keeps.ite | with_reducible apply Keeps.ite_snd | with_reducible apply Keeps.foldl)

theorem State.serveAll_keeps {s u : State} (h : Keeps s u) : Keeps s (State.serveAll u) := by
  unfold State.serveAll
  try dsimp only
  repeat' (first | with_reducible assumption | (intro) | with_reducible apply State.tickItemPost_keeps | with_reducible apply State.grant_keeps | with_reducible apply State.serveTicks_keeps | with_reducible apply Keeps.ite | with_reducible apply Keeps.ite_snd | with_reducible apply Keeps.foldl)

theorem State.sumsEnd_keeps {s u : State} (h : Keeps s u) : Keeps s (State.sumsEnd u) := by
  unfold State.sumsEnd
  try dsimp only
  repeat' (first | with_reducible assumption | (intro) | with_reducible apply State.serveAll_keeps | with_reducible apply State.modLed_keeps | with_reducible apply State.missedTicks_keeps | with_reducible apply Keeps.ite)

theorem State.ledgerTick_keeps {s u : State} (h : Keeps s u) : Keeps s (State.ledgerTick u) := by
  unfold State.ledgerTick
  try dsimp only
  repeat' (first | with_reducible assumption | (intro) | with_reducible apply State.ledgerServe_keeps | with_reducible apply State.lcTicks_keeps | with_reducible apply Keeps.ite)

theorem State.intervalEnd_keeps {s u : State} (h : Keeps s u) : Keeps s (State.intervalEnd u) := by
  unfold State.intervalEnd
  try dsimp only
  repeat' (first | with_reducible assumption | (intro) | with_reducible apply State.serveTicks_keeps | with_reducible apply State.endInterval_keeps | with_reducible apply Keeps.ite | with_reducible apply Keeps.ite_snd | with_reducible apply Keeps.foldl | split)

theorem State.writeClosed_keeps {s u : State} (h : Keeps s u) (t : ℕ) (kk : ℕ) (seq : ℕ) (tick : ℕ) : Keeps s (State.writeClosed u t kk seq tick) := by
  unfold State.writeClosed
  try dsimp only
  repeat' (first | with_reducible assumption | (intro) | with_reducible apply State.modLed_keeps | with_reducible apply State.furPut_keeps)

theorem State.openEpoch_keeps {s u : State} (h : Keeps s u) (t : ℕ) (tick : ℕ) : Keeps s (State.openEpoch u t tick) := by
  unfold State.openEpoch
  try dsimp only
  repeat' (first | with_reducible assumption | (intro) | with_reducible apply State.checkpoint_keeps | with_reducible apply State.modLed_keeps)

theorem State.closeEpoch_keeps {s u : State} (h : Keeps s u) (t : ℕ) (kk : ℕ) (seq : ℕ) : Keeps s (State.closeEpoch u t kk seq) := by
  unfold State.closeEpoch
  try dsimp only
  repeat' (first | with_reducible assumption | (intro) | with_reducible apply State.sumsEnd_keeps | with_reducible apply State.openEpoch_keeps | with_reducible apply State.writeClosed_keeps | with_reducible apply State.endEarly_keeps)

theorem State.loadNumbers_keeps {s u : State} (h : Keeps s u) : Keeps s (State.loadNumbers u) := by
  unfold State.loadNumbers
  try dsimp only
  repeat' (first | with_reducible assumption | (intro) | with_reducible apply State.modLed_keeps)

theorem State.loadCopy_keeps {s u : State} (h : Keeps s u) (b : Bool) : Keeps s (State.loadCopy u b) := by
  unfold State.loadCopy
  try dsimp only
  repeat' (first | with_reducible assumption | (intro) | with_reducible apply State.modLed_keeps)

theorem State.completeCloses_keeps {s u : State} (h : Keeps s u) : Keeps s (State.completeCloses u) := by
  unfold State.completeCloses
  try dsimp only
  repeat' (first | with_reducible assumption | (intro) | with_reducible apply State.openEpoch_keeps | with_reducible apply Keeps.ite | with_reducible apply Keeps.ite_snd | with_reducible apply Keeps.foldl | split)

theorem State.powerGap_keeps {s u : State} (h : Keeps s u) : Keeps s (State.powerGap u) := by
  unfold State.powerGap
  try dsimp only
  repeat' (first | with_reducible assumption | (intro) | with_reducible apply State.gap_keeps | with_reducible apply Keeps.ite)

theorem State.accrueSince_keeps {s u : State} (h : Keeps s u) (release : Nat) : Keeps s (State.accrueSince u release) := by
  unfold State.accrueSince
  refine State.accrueCapacity_keeps (Keeps.foldl_fst _ _ h fun p e hp => ?_) _ _
  exact State.modLed_keeps (State.accrueCapacity_keeps hp _ _) _

theorem State.loadLedger_keeps {s u : State} (h : Keeps s u) : Keeps s (State.loadLedger u) := by
  unfold State.loadLedger
  try dsimp only
  repeat' (first | with_reducible assumption | (intro) | with_reducible apply State.loadNumbers_keeps | with_reducible apply State.powerGap_keeps | with_reducible apply State.completeCloses_keeps | with_reducible apply State.loadCopy_keeps | with_reducible apply State.checkpoint_keeps | with_reducible apply State.modLed_keeps | with_reducible apply State.gap_keeps | with_reducible apply State.notice_keeps | with_reducible apply State.accrueSince_keeps | with_reducible apply Keeps.ite | with_reducible apply Keeps.ite_snd | with_reducible apply Keeps.foldl | split | simp only [Keeps.mk])

theorem State.postTick_keeps {s u : State} (h : Keeps s u) : Keeps s (State.postTick u) := by
  unfold State.postTick
  try dsimp only
  repeat' (first | with_reducible assumption | (intro) | with_reducible apply State.modCal_keeps | with_reducible apply State.visible_keeps | with_reducible apply State.await_keeps | with_reducible apply Keeps.ite)

theorem State.meterSettings_keeps {s u : State} (h : Keeps s u) : Keeps s (State.meterSettings u) := by
  unfold State.meterSettings
  try dsimp only
  repeat' (first | with_reducible assumption | (intro) | with_reducible apply State.modSdb_keeps | with_reducible apply Keeps.ite)

theorem State.meterTick_keeps {s u : State} (h : Keeps s u) : Keeps s (State.meterTick u) := by
  unfold State.meterTick
  try dsimp only
  repeat' (first | with_reducible assumption | (intro) | with_reducible apply State.accrueCapacity_keeps | with_reducible apply State.modLed_keeps | with_reducible apply Keeps.ite)

theorem State.calendarTick_keeps {s u : State} (h : Keeps s u) : Keeps s (State.calendarTick u) := by
  unfold State.calendarTick
  try dsimp only
  repeat' (first | with_reducible assumption | (intro) | with_reducible apply State.meterSettings_keeps | with_reducible apply State.modCal_keeps | with_reducible apply State.postTick_keeps | with_reducible apply State.meterTick_keeps | with_reducible apply State.pointEnds_keeps | with_reducible apply State.fanTick_keeps | with_reducible apply State.switchTick_keeps | with_reducible apply Keeps.ite)

theorem State.calSaved_keeps {s u : State} (h : Keeps s u) (line : ℕ) : Keeps s (State.calSaved u line) := by
  unfold State.calSaved
  try dsimp only
  repeat' (first | with_reducible assumption | (intro) | with_reducible apply State.modCal_keeps)

theorem State.calendarSave_keeps {s u : State} (h : Keeps s u) (verified : Bool) : Keeps s (State.calendarSave u verified) := by
  unfold State.calendarSave
  try dsimp only
  repeat' (first | with_reducible assumption | (intro) | with_reducible apply State.modJrn_keeps | with_reducible apply State.modCal_keeps | with_reducible apply State.calSaved_keeps | with_reducible apply State.furCount_keeps | with_reducible apply State.furStore_keeps | with_reducible apply State.modFur_keeps | with_reducible apply State.furFailed_keeps | with_reducible apply State.furDamage_keeps | with_reducible apply Keeps.ite)

theorem State.readTickLo_keeps {s u : State} (h : Keeps s u) (t : ℕ) : Keeps s (State.readTickLo u t).2 := by
  unfold State.readTickLo
  try dsimp only
  repeat' (first | with_reducible assumption | (intro) | with_reducible apply State.modCal_keeps)

theorem State.loadCount_keeps {s u : State} (h : Keeps s u) (hi : ℕ) : Keeps s (State.loadCount u hi) := by
  unfold State.loadCount
  try dsimp only
  repeat' (first | with_reducible assumption | (intro) | with_reducible apply State.modCal_keeps)

theorem State.setUtc_keeps {s u : State} (h : Keeps s u) (v : ℕ) : Keeps s (State.setUtc u v) := by
  unfold State.setUtc
  try dsimp only
  repeat' (first | with_reducible assumption | (intro) | with_reducible apply State.modCal_keeps)

theorem State.setTime_keeps {s u : State} (h : Keeps s u) (v : ℕ) : Keeps s (State.setTime u v) := by
  unfold State.setTime
  try dsimp only
  repeat' (first | with_reducible assumption | (intro) | with_reducible apply State.modCal_keeps)

theorem State.writeGroups_keeps {s u : State} (h : Keeps s u) : Keeps s (State.writeGroups u) := by
  unfold State.writeGroups
  try dsimp only
  repeat' (first | with_reducible assumption | (intro) | with_reducible apply State.modQue_keeps | with_reducible apply State.writeWeight_keeps | with_reducible apply Keeps.ite | with_reducible apply Keeps.ite_snd | with_reducible apply Keeps.foldl)

theorem State.writeBayGrants_keeps {s u : State} (h : Keeps s u) : Keeps s (State.writeBayGrants u) := by
  unfold State.writeBayGrants
  try dsimp only
  repeat' (first | with_reducible assumption | (intro) | with_reducible apply State.modPlot_keeps | with_reducible apply Keeps.ite | with_reducible apply Keeps.ite_snd | with_reducible apply Keeps.foldl)

theorem State.settingsApply_keeps {s u : State} (h : Keeps s u) : Keeps s (State.settingsApply u) := by
  unfold State.settingsApply
  try dsimp only
  repeat' (first | with_reducible assumption | (intro) | with_reducible apply State.modSdb_keeps | with_reducible apply State.writeGroups_keeps | with_reducible apply State.writeBayGrants_keeps | with_reducible apply State.modEnv_keeps | with_reducible apply Keeps.ite)

theorem State.startPlot_keeps {s u : State} (h : Keeps s u) (t : ℕ) (a : ℕ) (i : Image) (p : ℕ × ℕ × ℕ × ℕ) : Keeps s (State.startPlot u t a i p) := by
  unfold State.startPlot
  try dsimp only
  repeat' (first | with_reducible assumption | (intro) | with_reducible apply State.modPlot_keeps | with_reducible apply State.dropPlotLines_keeps | with_reducible apply State.modTh_keeps | with_reducible apply Keeps.ite | with_reducible apply Keeps.ite_snd | with_reducible apply Keeps.foldl | split | simp only [Keeps.mk] | (refine Keeps.snd_of (by assumption) ?_) | (refine Keeps.fst_of (by assumption) ?_) | dsimp only | (simp only [Granary.give_mem, Granary.take_mem, Seedbank.setEnv_mem, Seedbank.modTen_mem]) | with_reducible apply Mem.wf_puts | with_reducible apply Mem.wf_clear | (exact Mem.wf_nil _) | with_reducible apply Mem.wf_putUnit | with_reducible apply Keeps.mkMems)

theorem State.releasePlot_keeps {s u : State} (h : Keeps s u) (t : ℕ) : Keeps s (State.releasePlot u t) := by
  unfold State.releasePlot
  try dsimp only
  repeat' (first | with_reducible assumption | (intro) | with_reducible apply State.modPlot_keeps)

theorem State.dropXs_keeps {s u : State} (h : Keeps s u) (f : Item → Bool) : Keeps s (State.dropXs u f) := by
  unfold State.dropXs
  refine Keeps.foldl _ _ (State.modSow_keeps h _) fun v x hv => ?_
  split
  · exact State.modGran_keeps hv _ fun g hg => by simpa using hg
  · exact hv

theorem State.stopPlot_keeps {s u : State} (h : Keeps s u) (t : ℕ) : Keeps s (State.stopPlot u t) := by
  unfold State.stopPlot
  try dsimp only
  repeat' (first | with_reducible assumption | (intro) | with_reducible apply State.stopThread_keeps | with_reducible apply State.dropXs_keeps | with_reducible apply State.retire_keeps | with_reducible apply State.modPlot_keeps | with_reducible apply Keeps.ite | with_reducible apply Keeps.ite_snd | with_reducible apply Keeps.foldl | split | simp only [Keeps.mk])

theorem State.waitsFor_keeps {s u : State} (h : Keeps s u) (x1 : Handle) (q : ℕ) : Keeps s (State.waitsFor u x1 q) := by
  unfold State.waitsFor
  try dsimp only
  repeat' (first | with_reducible assumption | (intro) | with_reducible apply State.await_keeps | with_reducible apply State.trace_keeps | with_reducible apply Keeps.ite)

theorem State.postItem_keeps {s u : State} (h : Keeps s u) (x1 : Handle) (q : ℕ) (words : List Word) : Keeps s (State.postItem u x1 q words) := by
  unfold State.postItem
  try dsimp only
  repeat' (first | with_reducible assumption | (intro) | with_reducible apply State.visible_keeps | with_reducible apply State.modOpen_keeps | with_reducible apply State.waitNoMore_keeps)

theorem State.deliverX_keeps {s u : State} (h : Keeps s u) (x1 : Handle) (t : ℕ) (i : ℕ) (text : String) (a : Word) : Keeps s (State.deliverX u x1 t i text a) := by
  unfold State.deliverX
  try dsimp only
  repeat' (first | with_reducible assumption | (intro) | with_reducible apply State.waitsFor_keeps | with_reducible apply State.modGran_keeps | with_reducible apply State.modOpen_keeps | with_reducible apply State.ownLeave_keeps | with_reducible apply State.postItem_keeps | with_reducible apply Keeps.ite | with_reducible apply Keeps.ite_snd | with_reducible apply Keeps.foldl | split | simp only [Keeps.mk] | (refine Keeps.snd_of (by assumption) ?_) | (refine Keeps.fst_of (by assumption) ?_) | dsimp only | (simp only [Granary.give_mem, Granary.take_mem, Seedbank.setEnv_mem, Seedbank.modTen_mem]) | with_reducible apply Mem.wf_puts)

theorem State.tryX_keeps {s u : State} (h : Keeps s u) (x1 : Handle) (t : ℕ) (i : ℕ) (text : String) : Keeps s (State.tryX u x1 t i text) := by
  unfold State.tryX
  try dsimp only
  repeat' (first | with_reducible assumption | (intro) | with_reducible apply State.deliverX_keeps | with_reducible apply State.modGran_keeps | with_reducible apply State.holdBuffer_keeps | with_reducible apply Keeps.ite | with_reducible apply Keeps.ite_snd | with_reducible apply Keeps.foldl | split | simp only [Keeps.mk] | (refine Keeps.snd_of (by assumption) ?_) | (refine Keeps.fst_of (by assumption) ?_) | dsimp only | (simp only [Granary.give_mem, Granary.take_mem, Seedbank.setEnv_mem, Seedbank.modTen_mem]))

theorem State.commitX_keeps {s u : State} (h : Keeps s u) : Keeps s (State.commitX u) := by
  unfold State.commitX
  try dsimp only
  repeat' (first | with_reducible assumption | (intro) | with_reducible apply State.reqCommit_keeps | with_reducible apply Keeps.ite | with_reducible apply Keeps.ite_snd | with_reducible apply Keeps.foldl | split)

theorem State.begin_keeps {s u : State} (h : Keeps s u) (x1 : Handle) : Keeps s (State.begin u x1) := by
  unfold State.begin
  try dsimp only
  repeat' (first | with_reducible assumption | (intro) | with_reducible apply State.modOpen_keeps)

theorem State.postForm_keeps {s u : State} (h : Keeps s u) (x1 : Handle) : Keeps s (State.postForm u x1) := by
  unfold State.postForm
  try dsimp only
  repeat' (first | with_reducible assumption | (intro) | with_reducible apply State.postItem_keeps | with_reducible apply State.waitsFor_keeps | with_reducible apply Keeps.ite | with_reducible apply Keeps.ite_snd | with_reducible apply Keeps.foldl | split)

theorem State.takeForm_keeps {s u : State} (h : Keeps s u) (x : Handle) : ∀ v, u.takeForm x = some v → Keeps s v := by
  intro v e
  unfold State.takeForm at e
  split at e
  · cases e; exact h
  · split at e
    · split at e
      · cases e; exact State.modOpen_keeps (State.takeUpItem_keeps h _) _ _ _
      · cases e
    · cases e

theorem State.ride_keeps {s u : State} (h : Keeps s u) (x : Handle) (run : State → State) (hrun : ∀ v, Keeps s v → Keeps s (run v)) :
    Keeps s (State.ride u x run) := by
  unfold State.ride
  dsimp only
  split
  · rename_i v e; exact hrun _ (State.takeForm_keeps (State.postForm_keeps h x) x v e)
  · exact State.postForm_keeps h x

theorem State.postWork_keeps {s u : State} (h : Keeps s u) (kk : ℕ) (seq : ℕ) (n : ℕ) : Keeps s (State.postWork kk seq u n) := by
  unfold State.postWork
  try dsimp only
  repeat' (first | with_reducible assumption | (intro) | with_reducible apply State.postItem_keeps | with_reducible apply State.modOpen_keeps | with_reducible apply State.waitsFor_keeps | with_reducible apply Keeps.ite | with_reducible apply Keeps.ite_snd | with_reducible apply Keeps.foldl | split)

theorem State.postLeft_keeps {s u : State} (h : Keeps s u) (x1 : Handle) : Keeps s (State.postLeft u x1) := by
  unfold State.postLeft
  try dsimp only
  repeat' (first | with_reducible assumption | (intro) | with_reducible apply State.postWork_keeps | with_reducible apply Keeps.ite | with_reducible apply Keeps.ite_snd | with_reducible apply Keeps.foldl)

theorem State.postWorks_keeps {s u : State} (h : Keeps s u) (x1 : Handle) : Keeps s (State.postWorks u x1) := by
  unfold State.postWorks
  try dsimp only
  repeat' (first | with_reducible assumption | (intro) | with_reducible apply State.modOpen_keeps | with_reducible apply State.begin_keeps | with_reducible apply State.worksDone_keeps | with_reducible apply State.commitStarts_keeps | with_reducible apply State.postLeft_keeps | with_reducible apply Keeps.ite | with_reducible apply Keeps.ite_snd | with_reducible apply Keeps.foldl | split)

theorem State.setFace_keeps {s u : State} (h : Keeps s u) (f : FaceSet) : Keeps s (State.setFace u f) := by
  unfold State.setFace
  try dsimp only
  repeat' (first | with_reducible assumption | (intro) | with_reducible apply State.modFace_keeps)

theorem State.plotStep_keeps {s u : State} (h : Keeps s u) (x1 : Handle) (t : ℕ) (a : ℕ) : Keeps s (State.plotStep u x1 t a) := by
  unfold State.plotStep
  try dsimp only
  repeat' (first | with_reducible assumption | (intro) | with_reducible apply State.reqStep_keeps | with_reducible apply State.stopPlot_keeps | with_reducible apply State.reqCommit_keeps | with_reducible apply State.modPlot_keeps | with_reducible apply State.releasePlot_keeps | with_reducible apply State.retire_keeps | with_reducible apply State.sdbAsk_keeps | with_reducible apply State.startPlot_keeps | with_reducible apply Keeps.ite | with_reducible apply Keeps.ite_snd | with_reducible apply Keeps.foldl | split)

theorem State.unloadRest_keeps {s u : State} (h : Keeps s u) (x1 : Handle) (t : ℕ) : Keeps s (State.unloadRest u x1 t) := by
  unfold State.unloadRest
  try dsimp only
  repeat' (first | with_reducible assumption | (intro) | with_reducible apply State.sdbAsk_keeps | with_reducible apply State.releasePlot_keeps)

theorem State.runUnload_keeps {s u : State} (h : Keeps s u) (x1 : Handle) (t : ℕ) : Keeps s (State.runUnload u x1 t) := by
  unfold State.runUnload
  try dsimp only
  repeat' (first | with_reducible assumption | (intro) | with_reducible apply State.stopPlot_keeps | with_reducible apply State.begin_keeps | with_reducible apply State.unloadRest_keeps | with_reducible apply State.reqCommit_keeps | with_reducible apply Keeps.ite)

theorem State.startProofs_keeps {s u : State} (h : Keeps s u) (x1 : Handle) : Keeps s (State.startProofs u x1) := by
  unfold State.startProofs
  try dsimp only
  repeat' (first | with_reducible assumption | (intro) | with_reducible apply State.modOpen_keeps | with_reducible apply State.proofRun_keeps | with_reducible apply Keeps.ite | with_reducible apply Keeps.ite_snd | with_reducible apply Keeps.foldl)

theorem State.selfProof_keeps {s u : State} (h : Keeps s u) (n : ℕ) (rail : Rail) (pass : Bool) : Keeps s (State.selfProof u n rail pass) := by
  unfold State.selfProof
  try dsimp only
  repeat' (first | with_reducible assumption | (intro) | with_reducible apply State.modOpen_keeps | with_reducible apply Keeps.ite | with_reducible apply Keeps.ite_snd | with_reducible apply Keeps.foldl | split)

theorem State.testStep_keeps {s u : State} (h : Keeps s u) (x1 : Handle) (i : ℕ) (pass : Bool) : Keeps s (State.testStep u x1 i pass) := by
  unfold State.testStep
  try dsimp only
  repeat' (first | with_reducible assumption | (intro) | with_reducible apply State.modOpen_keeps | with_reducible apply State.reqStep_keeps)

theorem State.proofsDone_keeps {s u : State} (h : Keeps s u) (x1 : Handle) : Keeps s (State.proofsDone u x1) := by
  unfold State.proofsDone
  try dsimp only
  repeat' (first | with_reducible assumption | (intro) | with_reducible apply State.testStep_keeps | with_reducible apply State.proofRun_keeps | with_reducible apply Keeps.ite | with_reducible apply Keeps.ite_snd | with_reducible apply Keeps.foldl)

theorem State.selfStep_keeps {s u : State} (h : Keeps s u) (x1 : Handle) : Keeps s (State.selfStep u x1) := by
  unfold State.selfStep
  try dsimp only
  repeat' (first | with_reducible assumption | (intro) | with_reducible apply State.freeCheck_keeps | with_reducible apply State.testStep_keeps | with_reducible apply State.reqCommit_keeps | with_reducible apply State.startProofs_keeps | with_reducible apply State.retire_keeps | with_reducible apply Keeps.ite | with_reducible apply Keeps.ite_snd | with_reducible apply Keeps.foldl | split)

theorem State.loseTen_keeps {s u : State} (h : Keeps s u) (t : ℕ) (own : Option ℕ) : Keeps s (State.loseTen u t own) := by
  unfold State.loseTen
  try dsimp only
  repeat' (first | with_reducible assumption | (intro) | with_reducible apply Keeps.ite | with_reducible apply Keeps.ite_snd | with_reducible apply Keeps.foldl | split | simp only [Keeps.mk])

theorem State.keyDone_keeps {s u : State} (h : Keeps s u) (x1 : Handle) (t : ℕ) : Keeps s (State.keyDone u x1 t) := by
  unfold State.keyDone
  try dsimp only
  repeat' (first | with_reducible assumption | (intro) | with_reducible apply State.retire_keeps | with_reducible apply State.loseTen_keeps)

theorem State.runKey_keeps {s u : State} (h : Keeps s u) (x1 : Handle) (t : ℕ) (k : Option (BitVec 256)) : Keeps s (State.runKey u x1 t k) := by
  unfold State.runKey
  try dsimp only
  repeat' (first | with_reducible assumption | (intro) | with_reducible apply State.begin_keeps | with_reducible apply State.keyDone_keeps | with_reducible apply State.sdbAsk_keeps | with_reducible apply State.reqCommit_keeps | with_reducible apply Keeps.ite)

theorem State.runEpoch_keeps {s u : State} (h : Keeps s u) (x1 : Handle) (t : ℕ) (e : ℕ) : Keeps s (State.runEpoch u x1 t e) := by
  unfold State.runEpoch
  try dsimp only
  repeat' (first | with_reducible assumption | (intro) | with_reducible apply State.reqCommit_keeps | with_reducible apply State.begin_keeps | with_reducible apply State.retire_keeps | with_reducible apply State.closeEpoch_keeps | with_reducible apply Keeps.ite)

theorem State.runField_keeps {s u : State} (h : Keeps s u) (x1 : Handle) : Keeps s (State.runField u x1) := by
  unfold State.runField
  try dsimp only
  repeat' (first | with_reducible assumption | (intro) | with_reducible apply State.postWorks_keeps | with_reducible apply State.ride_keeps | with_reducible apply State.sdbAsk_keeps | with_reducible apply State.begin_keeps | with_reducible apply State.plotStep_keeps | with_reducible apply State.runUnload_keeps | with_reducible apply State.selfStep_keeps | with_reducible apply State.tryX_keeps | with_reducible apply Keeps.ite | with_reducible apply Keeps.ite_snd | with_reducible apply Keeps.foldl | split)

theorem State.tryRun_keeps {s u : State} (h : Keeps s u) (x1 : Handle) : Keeps s (State.tryRun u x1) := by
  unfold State.tryRun
  try dsimp only
  repeat' (first | with_reducible assumption | (intro) | with_reducible apply State.retire_keeps | with_reducible apply State.setFace_keeps | with_reducible apply State.begin_keeps | with_reducible apply State.reqCommit_keeps | with_reducible apply State.postForm_keeps | with_reducible apply State.askWake_keeps | with_reducible apply State.modOpen_keeps | with_reducible apply State.runKey_keeps | with_reducible apply State.runEpoch_keeps | with_reducible apply State.ride_keeps | with_reducible apply State.runField_keeps | with_reducible apply Keeps.ite | with_reducible apply Keeps.ite_snd | with_reducible apply Keeps.foldl | split)

theorem State.goesOn_keeps {s u : State} (h : Keeps s u) (x1 : Handle) : Keeps s (State.goesOn u x1) := by
  unfold State.goesOn
  try dsimp only
  repeat' (first | with_reducible assumption | (intro) | with_reducible apply State.proofsDone_keeps | with_reducible apply State.deliverX_keeps | with_reducible apply State.worksDone_keeps | with_reducible apply State.postLeft_keeps | with_reducible apply Keeps.ite | with_reducible apply Keeps.ite_snd | with_reducible apply Keeps.foldl | split)

theorem State.runDue_keeps {s u : State} (h : Keeps s u) : Keeps s (State.runDue u) := by
  unfold State.runDue
  try dsimp only
  repeat' (first | with_reducible assumption | (intro) | with_reducible apply State.sdbKick_keeps | with_reducible apply State.serveTags_keeps | with_reducible apply State.tryRun_keeps | with_reducible apply State.goesOn_keeps | with_reducible apply State.finishDue_keeps | with_reducible apply Keeps.ite | with_reducible apply Keeps.ite_snd | with_reducible apply Keeps.foldl | split)

theorem State.advance_keeps {s u : State} (h : Keeps s u) (kk : ℕ) (seq : ℕ) : Keeps s (State.advance u kk seq) := by
  unfold State.advance
  try dsimp only
  repeat' (first | with_reducible assumption | (intro) | with_reducible apply State.plotStep_keeps | with_reducible apply State.selfStep_keeps | with_reducible apply State.retire_keeps | with_reducible apply State.worksDone_keeps | with_reducible apply State.commitStarts_keeps | with_reducible apply State.settle_keeps | with_reducible apply State.reqCommit_keeps | with_reducible apply State.forgotten_keeps | with_reducible apply State.serveTags_keeps | with_reducible apply State.unloadRest_keeps | with_reducible apply State.keyDone_keeps | with_reducible apply Keeps.ite | with_reducible apply Keeps.ite_snd | with_reducible apply Keeps.foldl | split)

theorem State.retryX_keeps {s u : State} (h : Keeps s u) : Keeps s (State.retryX u) := by
  unfold State.retryX
  try dsimp only
  repeat' (first | with_reducible assumption | (intro) | with_reducible apply State.tryX_keeps | with_reducible apply Keeps.ite | with_reducible apply Keeps.ite_snd | with_reducible apply Keeps.foldl | split)

theorem State.ticked_keeps {s v u : State} (h : Keeps s u) : Keeps s (State.ticked v u) := by
  unfold State.ticked
  split
  · exact State.runDue_keeps (State.retryX_keeps h)
  · exact h

theorem State.answer_keeps {s u : State} (h : Keeps s u) (x1 : Handle) : Keeps s (State.answer u x1) := by
  unfold State.answer
  try dsimp only
  repeat' (first | with_reducible assumption | (intro) | with_reducible apply State.notice_keeps | with_reducible apply State.afterLine_keeps | with_reducible apply State.emit_keeps | with_reducible apply Keeps.ite)

theorem State.plotUp_keeps {s u : State} (h : Keeps s u) (x1 : Handle) : Keeps s (State.plotUp u x1) := by
  unfold State.plotUp
  try dsimp only
  repeat' (first | with_reducible assumption | (intro) | with_reducible apply Keeps.ite | with_reducible apply Keeps.ite_snd | with_reducible apply Keeps.foldl | split | simp only [Keeps.mk])

theorem State.openRecorded_keeps {s u : State} (h : Keeps s u) (x1 : Handle) (r : Rec) (slot : ℕ) (seq : ℕ) : Keeps s (State.openRecorded u x1 r slot seq) := by
  unfold State.openRecorded
  try dsimp only
  repeat' (first | with_reducible assumption | (intro) | with_reducible apply State.modOpen_keeps | with_reducible apply State.answer_keeps | with_reducible apply State.finishDue_keeps | with_reducible apply State.plotUp_keeps | with_reducible apply State.advance_keeps | with_reducible apply Keeps.ite)

theorem State.recordDone_keeps {s u : State} (h : Keeps s u) (r : Rec) (slot : ℕ) (seq : ℕ) : Keeps s (State.recordDone u r slot seq) := by
  unfold State.recordDone
  try dsimp only
  repeat' (first | with_reducible assumption | (intro) | with_reducible apply State.openRecorded_keeps | with_reducible apply State.modHnd_keeps | with_reducible apply State.runDue_keeps | with_reducible apply Keeps.ite | with_reducible apply Keeps.ite_snd | with_reducible apply Keeps.foldl | split)

theorem State.recordEnds_keeps {s u : State} (h : Keeps s u) (verified : Bool) : Keeps s (State.recordEnds u verified) := by
  unfold State.recordEnds
  try dsimp only
  repeat' (first | with_reducible assumption | (intro) | with_reducible apply State.recordDone_keeps | with_reducible apply State.modJrn_keeps | with_reducible apply State.furStore_keeps | with_reducible apply State.furFailed_keeps | with_reducible apply State.furDamage_keeps | with_reducible apply Keeps.ite | with_reducible apply Keeps.ite_snd | with_reducible apply Keeps.foldl | split)

theorem State.epochsDone_keeps {s u : State} (h : Keeps s u) : Keeps s (State.epochsDone u) := by
  unfold State.epochsDone
  try dsimp only
  repeat' (first | with_reducible assumption | (intro) | with_reducible apply State.modOpen_keeps | with_reducible apply State.retire_keeps | with_reducible apply Keeps.ite | with_reducible apply Keeps.ite_snd | with_reducible apply Keeps.foldl | split)

theorem State.keptLost_keeps {s u : State} (h : Keeps s u) (line : ℕ) : Keeps s (State.keptLost u line) := by
  unfold State.keptLost
  try dsimp only
  repeat' (first | with_reducible assumption | (intro) | with_reducible apply State.modHnd_keeps)

theorem State.lineEnds_keeps {s u : State} (h : Keeps s u) (line : ℕ) (b : List Byte) (stored : Bool) : Keeps s (State.lineEnds u line b stored) := by
  unfold State.lineEnds
  try dsimp only
  repeat' (first | with_reducible assumption | (intro) | with_reducible apply State.epochsDone_keeps | with_reducible apply State.lockLineEnds_keeps | with_reducible apply State.eraseEnds_keeps | with_reducible apply State.keptLost_keeps | with_reducible apply State.reqCommit_keeps | with_reducible apply State.calSaved_keeps | with_reducible apply Keeps.ite)

theorem State.furAgain_keeps {s u : State} (h : Keeps s u) (line : ℕ) (b : List Byte) (n : ℕ) : Keeps s (State.furAgain u line b n) := by
  unfold State.furAgain
  try dsimp only
  repeat' (first | with_reducible assumption | (intro) | with_reducible apply State.modFur_keeps)

theorem State.gapAgain_keeps {s u : State} (h : Keeps s u) (b : List Byte) : Keeps s (State.gapAgain u b) := by
  unfold State.gapAgain
  try dsimp only
  repeat' (first | with_reducible assumption | (intro) | with_reducible apply State.modLed_keeps | with_reducible apply State.furAgain_keeps)

theorem State.closedAgain_keeps {s u : State} (h : Keeps s u) (line : ℕ) (b : List Byte) : Keeps s (State.closedAgain u line b) := by
  unfold State.closedAgain
  try dsimp only
  repeat' (first | with_reducible assumption | (intro) | with_reducible apply State.modFur_keeps | with_reducible apply State.modLed_keeps | with_reducible apply State.furAgain_keeps | with_reducible apply Keeps.ite)

theorem State.lineFails_keeps {s u : State} (h : Keeps s u) (line : ℕ) (b : List Byte) (n : ℕ) : Keeps s (State.lineFails u line b n) := by
  unfold State.lineFails
  try dsimp only
  repeat' (first | with_reducible assumption | (intro) | with_reducible apply State.furFailed_keeps | with_reducible apply State.furDamage_keeps | with_reducible apply State.gapAgain_keeps | with_reducible apply State.closedAgain_keeps | with_reducible apply State.furAgain_keeps | with_reducible apply State.lineEnds_keeps | with_reducible apply State.notice_keeps | with_reducible apply State.modJrn_keeps | with_reducible apply Keeps.ite)

theorem State.lineWrite_keeps {s u : State} (h : Keeps s u) (verified : Bool) : Keeps s (State.lineWrite u verified) := by
  unfold State.lineWrite
  try dsimp only
  repeat' (first | with_reducible assumption | (intro) | with_reducible apply State.furCount_keeps | with_reducible apply State.modJrn_keeps | with_reducible apply State.modFur_keeps | with_reducible apply State.lineEnds_keeps | with_reducible apply State.furStore_keeps | with_reducible apply State.lineFails_keeps | with_reducible apply Keeps.ite | with_reducible apply Keeps.ite_snd | with_reducible apply Keeps.foldl | split)

theorem State.furrowDone_keeps {s u : State} (h : Keeps s u) (verified : Bool) : Keeps s (State.furrowDone u verified) := by
  unfold State.furrowDone
  try dsimp only
  repeat' (first | with_reducible assumption | (intro) | with_reducible apply State.furPortDone_keeps | with_reducible apply State.runDue_keeps | with_reducible apply State.lineWrite_keeps | with_reducible apply Keeps.ite)

theorem State.throughHeader_keeps {s u : State} (h : Keeps s u) (verified : Bool) (x1 : Nat) : Keeps s (State.throughHeader verified x1 u) := by
  induction x1 generalizing u verified with
  | zero => unfold State.throughHeader; repeat' (with_reducible assumption)
  | succ n ih =>
    unfold State.throughHeader
    try dsimp only
    repeat' (first | with_reducible assumption | (intro) | with_reducible apply ih | with_reducible apply State.lines_keeps | with_reducible apply State.checkpoint_keeps | with_reducible apply State.lineWrite_keeps | with_reducible apply Mem.wf_puts | with_reducible apply Mem.wf_clear | with_reducible apply Mem.wf_nil | with_reducible apply Mem.wf_putUnit | with_reducible apply Keeps.ite | with_reducible apply Keeps.ite_snd | with_reducible apply Keeps.foldl | split)

theorem State.checkpointDone_keeps {s u : State} (h : Keeps s u) (verified : Bool) : Keeps s (State.checkpointDone u verified) := by
  unfold State.checkpointDone
  try dsimp only
  repeat' (first | with_reducible assumption | (intro) | with_reducible apply State.runDue_keeps | with_reducible apply State.throughHeader_keeps | with_reducible apply Keeps.ite)

theorem State.guardWords_keeps {s u : State} (h : Keeps s u) : Keeps s (State.guardWords u) := by
  unfold State.guardWords
  try dsimp only
  repeat' (first | with_reducible assumption | (intro) | with_reducible apply State.modEnv_keeps)

theorem State.jobFor_keeps {s u : State} (h : Keeps s u) (x1 : Handle) : Keeps s (State.jobFor u x1) := by
  unfold State.jobFor
  try dsimp only
  repeat' (first | with_reducible assumption | (intro) | with_reducible apply State.guardWords_keeps | with_reducible apply State.finishDue_keeps | with_reducible apply State.retire_keeps | with_reducible apply State.reqCommit_keeps | with_reducible apply State.reqStep_keeps | with_reducible apply State.modPlot_keeps | with_reducible apply Keeps.ite | with_reducible apply Keeps.ite_snd | with_reducible apply Keeps.foldl | split)

theorem State.jobEnds_keeps {s u : State} (h : Keeps s u) (j : SdbJob) : Keeps s (State.jobEnds u j) := by
  unfold State.jobEnds
  try dsimp only
  repeat' (first | with_reducible assumption | (intro) | with_reducible apply State.afterLine_keeps | with_reducible apply State.emit_keeps | with_reducible apply State.jobFor_keeps | with_reducible apply State.modOpen_keeps | with_reducible apply Keeps.ite | with_reducible apply Keeps.ite_snd | with_reducible apply Keeps.foldl | split)

theorem State.seedbankDone_keeps {s u : State} (h : Keeps s u) (verified : Bool) : Keeps s (State.seedbankDone u verified) := by
  unfold State.seedbankDone
  try dsimp only
  repeat' (first | with_reducible assumption | (intro) | with_reducible apply State.sdbKick_keeps | with_reducible apply State.sdbPortDone_keeps | with_reducible apply State.runDue_keeps | with_reducible apply State.jobEnds_keeps | with_reducible apply State.jobStored_keeps | with_reducible apply State.jobFailed_keeps | with_reducible apply Keeps.ite | with_reducible apply Keeps.ite_snd | with_reducible apply Keeps.foldl | split)

theorem State.settleAll_keeps {s u : State} (h : Keeps s u) (sure f : Nat) : Keeps s (State.settleAll sure f u) := by
  induction f generalizing u with
  | zero => exact h
  | succ f ih =>
    unfold State.settleAll
    dsimp only
    have ht := State.freeCheck_keeps h
    repeat' apply Keeps.ite
    · exact h
    · exact ih (State.recordEnds_keeps ht _)
    · exact ih (State.journalStart_keeps h)
    · exact ih (State.seedbankDone_keeps ht _)
    · exact ih (State.runDue_keeps (State.lineWrite_keeps ht _))
    · exact h

theorem State.dropWake_keeps {s u : State} (h : Keeps s u) : Keeps s (State.dropWake u) := by
  unfold State.dropWake
  try dsimp only
  repeat' (first | with_reducible assumption | (intro) | with_reducible apply State.modSys_keeps)

theorem State.unprefetchNamed_keeps {s u : State} (h : Keeps s u) (kk : ℕ) (seq : ℕ) : Keeps s (State.unprefetchNamed u kk seq) := by
  unfold State.unprefetchNamed
  try dsimp only
  repeat' (first | with_reducible assumption | (intro) | with_reducible apply State.unprefetch_keeps | with_reducible apply Keeps.ite | with_reducible apply Keeps.ite_snd | with_reducible apply Keeps.foldl)

theorem State.dropStarts_keeps {s u : State} (h : Keeps s u) (kk : ℕ) (seq : ℕ) : Keeps s (State.dropStarts u kk seq) := by
  unfold State.dropStarts
  try dsimp only
  repeat' (first | with_reducible assumption | (intro) | with_reducible apply State.modSow_keeps | with_reducible apply State.modOpen_keeps | with_reducible apply State.endWork_keeps | with_reducible apply State.unplan_keeps | with_reducible apply Keeps.ite | with_reducible apply Keeps.ite_snd | with_reducible apply Keeps.foldl)

theorem State.dropRest_keeps {s u : State} (h : Keeps s u) (x1 : Handle) : Keeps s (State.dropRest u x1) := by
  unfold State.dropRest
  try dsimp only
  repeat' (first | with_reducible assumption | (intro) | with_reducible apply State.showTags_keeps | with_reducible apply State.modSys_keeps | with_reducible apply Keeps.ite)

theorem State.cancelled_keeps {s u : State} (h : Keeps s u) (x1 : Handle) : Keeps s (State.cancelled u x1) := by
  unfold State.cancelled
  try dsimp only
  repeat' (first | with_reducible assumption | (intro) | with_reducible apply State.retire_keeps | with_reducible apply State.unprefetchNamed_keeps | with_reducible apply State.modOpen_keeps | with_reducible apply State.dropStarts_keeps | with_reducible apply State.dropXs_keeps | with_reducible apply State.modSdb_keeps | with_reducible apply State.finishDue_keeps | with_reducible apply State.runDue_keeps | with_reducible apply State.dropWake_keeps | with_reducible apply State.dropRest_keeps)

theorem State.cancelLine_keeps {s u : State} (h : Keeps s u) (k : ℕ) (r : HRef) : Keeps s (State.cancelLine u k r).2 := by
  unfold State.cancelLine
  try dsimp only
  repeat' (first | with_reducible assumption | (intro) | with_reducible apply State.cancelled_keeps | with_reducible apply Keeps.ite | with_reducible apply Keeps.ite_snd | with_reducible apply Keeps.foldl | split)

theorem State.giveBuffer_keeps {s u : State} (h : Keeps s u) (t : ℕ) (it : Item) : Keeps s (State.giveBuffer u t it) := by
  unfold State.giveBuffer
  try dsimp only
  repeat' (first | with_reducible assumption | (intro) | with_reducible apply State.modGran_keeps | with_reducible apply State.ownLeave_keeps | with_reducible apply State.ownEnter_keeps | with_reducible apply Keeps.ite | with_reducible apply Keeps.ite_snd | with_reducible apply Keeps.foldl | split | simp only [Keeps.mk] | (refine Keeps.snd_of (by assumption) ?_) | (refine Keeps.fst_of (by assumption) ?_) | dsimp only | (simp only [Granary.give_mem, Granary.take_mem, Seedbank.setEnv_mem, Seedbank.modTen_mem]))

theorem State.countXbad_keeps {s u : State} (h : Keeps s u) (t : ℕ) : Keeps s (State.countXbad u t) := by
  unfold State.countXbad
  try dsimp only
  repeat' (first | with_reducible assumption | (intro) | with_reducible apply State.modPlot_keeps)

theorem State.xComplete_keeps {s u : State} (h : Keeps s u) : Keeps s (State.xComplete u) := by
  unfold State.xComplete
  try dsimp only
  repeat' (first | with_reducible assumption | (intro) | with_reducible apply State.serveItem_keeps | with_reducible apply State.giveBuffer_keeps | with_reducible apply State.countXbad_keeps | with_reducible apply State.retire_keeps | with_reducible apply Keeps.ite | with_reducible apply Keeps.ite_snd | with_reducible apply Keeps.foldl | split)

theorem State.plotAsks_keeps {s u : State} (h : Keeps s u) : Keeps s (State.plotAsks u) := by
  unfold State.plotAsks
  try dsimp only
  repeat' (first | with_reducible assumption | (intro) | with_reducible apply State.serveItem_keeps | with_reducible apply State.countXbad_keeps | with_reducible apply State.modPlot_keeps | with_reducible apply Keeps.ite | with_reducible apply Keeps.ite_snd | with_reducible apply Keeps.foldl | split)

theorem State.plotDue_keeps {s u : State} (h : Keeps s u) (t : ℕ) : Keeps s (State.plotDue u t) := by
  unfold State.plotDue
  try dsimp only
  repeat' (first | with_reducible assumption | (intro) | with_reducible apply State.modPlot_keeps | with_reducible apply State.askWake_keeps | with_reducible apply State.notice_keeps | with_reducible apply Keeps.ite | with_reducible apply Keeps.ite_snd | with_reducible apply Keeps.foldl | split)

theorem State.baysDark_keeps {s u : State} (h : Keeps s u) : Keeps s (State.baysDark u) := by
  unfold State.baysDark
  try dsimp only
  repeat' (first | with_reducible assumption | (intro) | with_reducible apply State.modBays_keeps)

theorem State.fieldReset_keeps {s u : State} (h : Keeps s u) : Keeps s (State.fieldReset u) := by
  unfold State.fieldReset
  try dsimp only
  repeat' (first | with_reducible assumption | (intro) | with_reducible apply State.modSys_keeps | with_reducible apply State.baysDark_keeps | with_reducible apply Keeps.ite | with_reducible apply Keeps.ite_snd | with_reducible apply Keeps.foldl | split | simp only [Keeps.mk] | (refine Keeps.snd_of (by assumption) ?_) | (refine Keeps.fst_of (by assumption) ?_) | dsimp only | (simp only [Granary.give_mem, Granary.take_mem, Seedbank.setEnv_mem, Seedbank.modTen_mem]) | with_reducible apply Mem.wf_puts | with_reducible apply Mem.wf_clear | (exact Mem.wf_nil _) | with_reducible apply Mem.wf_putUnit | with_reducible apply Keeps.mkMems)

theorem State.fieldOff_keeps {s u : State} (h : Keeps s u) : Keeps s (State.fieldOff u) := by
  unfold State.fieldOff
  try dsimp only
  repeat' (first | with_reducible assumption | (intro) | with_reducible apply State.modSys_keeps | with_reducible apply State.fieldReset_keeps)

theorem State.replayFails_keeps {s u : State} (h : Keeps s u) (x1 : Handle) (reason : ℕ) : Keeps s (State.replayFails u x1 reason) := by
  unfold State.replayFails
  try dsimp only
  repeat' (first | with_reducible assumption | (intro) | with_reducible apply State.retire_keeps | with_reducible apply State.modOpen_keeps)

theorem State.replayCopy_keeps {s u : State} (h : Keeps s u) (x1 : Handle) : Keeps s (State.replayCopy u x1) := by
  unfold State.replayCopy
  try dsimp only
  repeat' (first | with_reducible assumption | (intro) | with_reducible apply State.modOpen_keeps | with_reducible apply State.request_keeps)

theorem State.replay_keeps {s u : State} (h : Keeps s u) (x1 : Handle) : Keeps s (State.replay u x1) := by
  unfold State.replay
  try dsimp only
  repeat' (first | with_reducible assumption | (intro) | with_reducible apply State.replayFails_keeps | with_reducible apply State.replayCopy_keeps | with_reducible apply Keeps.ite | with_reducible apply Keeps.ite_snd | with_reducible apply Keeps.foldl | split)

theorem State.hitHandle_keeps {s u : State} (h : Keeps s u) (up : Bool) (kind : Hit) (x3 : Handle) : Keeps s (State.hitHandle up kind u x3) := by
  unfold State.hitHandle
  try dsimp only
  repeat' (first | with_reducible assumption | (intro) | with_reducible apply State.modOpen_keeps | with_reducible apply State.replay_keeps | with_reducible apply Keeps.ite)

theorem State.supersede_keeps {s u : State} (h : Keeps s u) (hit : Handle → Hit) : Keeps s (State.supersede u hit) := by
  unfold State.supersede
  try dsimp only
  repeat' (first | with_reducible assumption | (intro) | with_reducible apply State.replayFails_keeps | with_reducible apply Keeps.ite | with_reducible apply Keeps.ite_snd | with_reducible apply Keeps.foldl)

theorem State.hitAll_keeps {s u : State} (h : Keeps s u) (up : Bool) (kind : Hit) : Keeps s (State.hitAll u up kind) := by
  unfold State.hitAll
  try dsimp only
  repeat' (first | with_reducible assumption | (intro) | with_reducible apply State.supersede_keeps | with_reducible apply State.hitHandle_keeps | with_reducible apply Keeps.ite | with_reducible apply Keeps.ite_snd | with_reducible apply Keeps.foldl | split)

theorem State.fieldLost_keeps {s u : State} (h : Keeps s u) (code : ℕ) (word : String) : Keeps s (State.fieldLost u code word) := by
  unfold State.fieldLost
  try dsimp only
  repeat' (first | with_reducible assumption | (intro) | with_reducible apply State.notice_keeps | with_reducible apply State.modSys_keeps | with_reducible apply State.fieldOff_keeps | with_reducible apply State.loseField_keeps | with_reducible apply State.runDue_keeps | with_reducible apply State.hitAll_keeps)

theorem State.fieldRestart_keeps {s u : State} (h : Keeps s u) (cause : ℕ) (kind : Hit) : Keeps s (State.fieldRestart u cause kind) := by
  unfold State.fieldRestart
  try dsimp only
  repeat' (first | with_reducible assumption | (intro) | with_reducible apply State.modSys_keeps | with_reducible apply State.fieldReset_keeps | with_reducible apply State.loseField_keeps | with_reducible apply State.runDue_keeps | with_reducible apply State.hitAll_keeps)

theorem State.dueRun_keeps {s u : State} (h : Keeps s u) (k : ℕ) (x2 : Due) : Keeps s (State.dueRun u k x2) := by
  unfold State.dueRun
  try dsimp only
  repeat' (first | with_reducible assumption | (intro) | with_reducible apply State.fieldRestart_keeps | with_reducible apply State.endSession_keeps | with_reducible apply State.modSes_keeps | with_reducible apply Keeps.ite | with_reducible apply Keeps.ite_snd | with_reducible apply Keeps.foldl | split)

theorem State.dueRuns_keeps {s u : State} (h : Keeps s u) : Keeps s (State.dueRuns u) := by
  unfold State.dueRuns
  try dsimp only
  repeat' (first | with_reducible assumption | (intro) | with_reducible apply State.dueRun_keeps | with_reducible apply State.modSys_keeps | with_reducible apply Keeps.ite | with_reducible apply Keeps.ite_snd | with_reducible apply Keeps.foldl)

theorem State.wakeFails_keeps {s u : State} (h : Keeps s u) (own : ℕ) (common : ℕ) : Keeps s (State.wakeFails u own common) := by
  unfold State.wakeFails
  try dsimp only
  repeat' (first | with_reducible assumption | (intro) | with_reducible apply State.retire_keeps | with_reducible apply State.runDue_keeps | with_reducible apply State.fieldOff_keeps | with_reducible apply Keeps.ite | with_reducible apply Keeps.ite_snd | with_reducible apply Keeps.foldl | split)

theorem State.restBegins_keeps {s u : State} (h : Keeps s u) (x : Handle) : Keeps s (State.restBegins u x) := by
  unfold State.restBegins
  have ht : Keeps s ((u.takeForm x).getD u) := by
    cases e : u.takeForm x with
    | none => exact h
    | some v => exact State.takeForm_keeps h x v e
  refine State.settle_keeps (Keeps.foldl _ _ ?_ fun v n hv => ?_)
  · exact State.modEnv_keeps (State.showTags_keeps (State.modSys_keeps (State.begin_keeps ht x) _)) _
  · split <;> first | exact State.bayStop_keeps hv _ | exact hv

theorem State.failXs_keeps {s u : State} (h : Keeps s u) : Keeps s (State.failXs u) := by
  unfold State.failXs
  try dsimp only
  repeat' (first | with_reducible assumption | (intro) | with_reducible apply State.retire_keeps | with_reducible apply Keeps.ite | with_reducible apply Keeps.ite_snd | with_reducible apply Keeps.foldl)

theorem State.restOff_keeps {s u : State} (h : Keeps s u) : Keeps s (State.restOff u) := by
  unfold State.restOff
  try dsimp only
  repeat' (first | with_reducible assumption | (intro) | with_reducible apply State.fieldOff_keeps | with_reducible apply State.failXs_keeps | with_reducible apply State.retire_keeps | with_reducible apply State.runDue_keeps | with_reducible apply Keeps.ite | with_reducible apply Keeps.ite_snd | with_reducible apply Keeps.foldl | split)

theorem State.restCommits_keeps {s u : State} (h : Keeps s u) : Keeps s (State.restCommits u) := by
  unfold State.restCommits
  try dsimp only
  repeat' (first | with_reducible assumption | (intro) | with_reducible apply State.modSys_keeps | with_reducible apply State.reqCommit_keeps | with_reducible apply Keeps.ite | with_reducible apply Keeps.ite_snd | with_reducible apply Keeps.foldl | split)

theorem State.restGoes_keeps {s u : State} (h : Keeps s u) : Keeps s (State.restGoes u) := by
  unfold State.restGoes
  try dsimp only
  repeat' (first | with_reducible assumption | (intro) | with_reducible apply State.restCommits_keeps | with_reducible apply State.restOff_keeps | with_reducible apply Keeps.ite)

theorem State.restEnds_keeps {s u : State} (h : Keeps s u) : Keeps s (State.restEnds u) := by
  unfold State.restEnds
  try dsimp only
  repeat' (first | with_reducible assumption | (intro) | with_reducible apply State.restGoes_keeps | with_reducible apply State.modSys_keeps | with_reducible apply State.endEarly_keeps | with_reducible apply State.sumsEnd_keeps)

theorem State.stopBusy_keeps {s u : State} (h : Keeps s u) (t : ℕ) : Keeps s (State.stopBusy u t) := by
  unfold State.stopBusy
  try dsimp only
  repeat' (first | with_reducible assumption | (intro) | with_reducible apply State.stopThread_keeps | with_reducible apply State.notice_keeps | with_reducible apply State.modPlot_keeps | with_reducible apply Keeps.ite | with_reducible apply Keeps.ite_snd | with_reducible apply Keeps.foldl)

theorem State.leftOver_keeps {s u : State} (h : Keeps s u) : Keeps s (State.leftOver u).2 := by
  unfold State.leftOver
  try dsimp only
  repeat' (first | with_reducible assumption | (intro) | with_reducible apply State.draw_keeps)

theorem State.takeIn_keeps {s u : State} (h : Keeps s u) (n i : Nat) : Keeps s (State.takeIn n i u) := by
  induction n generalizing u i with
  | zero => exact h
  | succ n ih =>
    unfold State.takeIn
    split
    · exact h
    · split
      · exact ih (State.lineQueued_keeps (State.modRing_keeps h _) _) i
      · exact ih h (i + 1)

theorem State.ringRoom_keeps {s u : State} (h : Keeps s u) : Keeps s (State.ringRoom u) := by
  unfold State.ringRoom
  try dsimp only
  repeat' (first | with_reducible assumption | (intro) | with_reducible apply State.dueRuns_keeps | with_reducible apply State.takeIn_keeps)

theorem State.writeTx_keeps {s u : State} (h : Keeps s u) (sym : BitVec 9) : Keeps s (State.writeTx u sym) := by
  unfold State.writeTx
  try dsimp only
  repeat' (first | with_reducible assumption | (intro) | with_reducible apply State.ringRoom_keeps | with_reducible apply State.modRing_keeps)

theorem State.cancelTx_keeps {s u : State} (h : Keeps s u) : Keeps s (State.cancelTx u) := by
  unfold State.cancelTx
  try dsimp only
  repeat' (first | with_reducible assumption | (intro) | with_reducible apply State.ringRoom_keeps | with_reducible apply State.modRing_keeps)

theorem State.sendLocal_keeps {s u : State} (h : Keeps s u) (f : Frame) : Keeps s (State.sendLocal u f) := by
  unfold State.sendLocal
  try dsimp only
  repeat' (first | with_reducible assumption | (intro) | with_reducible apply State.ringRoom_keeps | with_reducible apply State.modRing_keeps)

theorem State.txStart_keeps {s u : State} (h : Keeps s u) : Keeps s (State.txStart u) := by
  unfold State.txStart
  try dsimp only
  repeat' (first | with_reducible assumption | (intro) | with_reducible apply State.modRing_keeps | with_reducible apply State.sendLocal_keeps | with_reducible apply State.draw_keeps | with_reducible apply Keeps.ite | with_reducible apply Keeps.ite_snd | with_reducible apply Keeps.foldl | split)

theorem State.sendOwn_keeps {s u : State} (h : Keeps s u) (f : Frame) : Keeps s (State.sendOwn u f) := by
  unfold State.sendOwn
  try dsimp only
  repeat' (first | with_reducible assumption | (intro) | with_reducible apply State.modRing_keeps)

theorem State.sendPass_keeps {s u : State} (h : Keeps s u) (n : ℕ) : Keeps s (State.sendPass u n) := by
  unfold State.sendPass
  try dsimp only
  repeat' (first | with_reducible assumption | (intro) | with_reducible apply State.sendOwn_keeps | with_reducible apply State.modRing_keeps)

theorem State.startPass_keeps {s u : State} (h : Keeps s u) : Keeps s (State.startPass u) := by
  unfold State.startPass
  try dsimp only
  repeat' (first | with_reducible assumption | (intro) | with_reducible apply State.sendPass_keeps | with_reducible apply Keeps.ite)

theorem State.tellEarly_keeps {s u : State} (h : Keeps s u) : Keeps s (State.tellEarly u) := by
  unfold State.tellEarly
  try dsimp only
  repeat' (first | with_reducible assumption | (intro) | with_reducible apply State.notice_keeps | with_reducible apply Keeps.ite | with_reducible apply Keeps.ite_snd | with_reducible apply Keeps.foldl | split)

theorem State.breaks_keeps {s u : State} (h : Keeps s u) (n : Option ℕ) : Keeps s (State.breaks u n) := by
  unfold State.breaks
  try dsimp only
  repeat' (first | with_reducible assumption | (intro) | with_reducible apply State.modRing_keeps | with_reducible apply State.tellEarly_keeps | with_reducible apply State.notice_keeps | with_reducible apply Keeps.ite)

theorem State.passReturns_keeps {s u : State} (h : Keeps s u) (pass : ℕ) (next : ℕ) (full : Bool) (ovr : Bool) : Keeps s (State.passReturns u pass next full ovr) := by
  unfold State.passReturns
  try dsimp only
  repeat' (first | with_reducible assumption | (intro) | with_reducible apply State.modRing_keeps | with_reducible apply State.tellEarly_keeps | with_reducible apply State.notice_keeps | with_reducible apply Keeps.ite)

theorem State.setNumber_keeps {s u : State} (h : Keeps s u) (n : Option ℕ) : Keeps s (State.setNumber u n) := by
  unfold State.setNumber
  try dsimp only
  repeat' (first | with_reducible assumption | (intro) | with_reducible apply State.modRing_keeps | with_reducible apply State.endSession_keeps | with_reducible apply State.notice_keeps | with_reducible apply Keeps.ite | with_reducible apply Keeps.ite_snd | with_reducible apply Keeps.foldl | split)

theorem State.enumerate_keeps {s u : State} (h : Keeps s u) (pass : ℕ) (next : ℕ) (full : Bool) (ovr : Bool) (left : ℕ) : Keeps s (State.enumerate u pass next full ovr left) := by
  unfold State.enumerate
  try dsimp only
  repeat' (first | with_reducible assumption | (intro) | with_reducible apply State.setNumber_keeps | with_reducible apply State.modRing_keeps | with_reducible apply Keeps.ite)

theorem State.report_keeps {s u : State} (h : Keeps s u) : Keeps s (State.report u) := by
  unfold State.report
  try dsimp only
  repeat' (first | with_reducible assumption | (intro) | with_reducible apply State.sendOwn_keeps)

theorem State.lineArrives_keeps {s u : State} (h : Keeps s u) (k : ℕ) (text : String) : Keeps s (State.lineArrives u k text) := by
  unfold State.lineArrives
  try dsimp only
  repeat' (first | with_reducible assumption | (intro) | with_reducible apply State.modSes_keeps | with_reducible apply State.modRing_keeps | with_reducible apply State.ignore_keeps | with_reducible apply Keeps.ite)

theorem State.takeLine_keeps {s u : State} (h : Keeps s u) (src : ℕ) (ses : ℕ) (text : String) : Keeps s (State.takeLine u src ses text) := by
  unfold State.takeLine
  try dsimp only
  repeat' (first | with_reducible assumption | (intro) | with_reducible apply State.lineArrives_keeps | with_reducible apply State.modSes_keeps | with_reducible apply State.pushFrame_keeps | with_reducible apply Keeps.ite | with_reducible apply Keeps.ite_snd | with_reducible apply Keeps.foldl | split)

theorem State.printReply_keeps {s u : State} (h : Keeps s u) (src : ℕ) (text : String) : Keeps s (State.printReply u src text) := by
  unfold State.printReply
  try dsimp only
  repeat' (first | with_reducible assumption | (intro) | with_reducible apply State.pushLine_keeps | with_reducible apply State.modCon_keeps | with_reducible apply State.emit_keeps | with_reducible apply Keeps.ite | with_reducible apply Keeps.ite_snd | with_reducible apply Keeps.foldl | split)

theorem State.lineFrame_keeps {s u : State} (h : Keeps s u) (k : LineKind) (mark : Bool) (dest : ℕ) (src : ℕ) (ses : ℕ) (text : String) (left : ℕ) : Keeps s (State.lineFrame u k mark dest src ses text left) := by
  unfold State.lineFrame
  try dsimp only
  repeat' (first | with_reducible assumption | (intro) | with_reducible apply State.modRing_keeps | with_reducible apply State.ignore_keeps | with_reducible apply State.printReply_keeps | with_reducible apply State.takeLine_keeps | with_reducible apply Keeps.ite | with_reducible apply Keeps.ite_snd | with_reducible apply Keeps.foldl | split)

theorem State.modHng_keeps {s u : State} (h : Keeps s u) (f : Hinge → Hinge) : Keeps s (State.modHng u f) := by
  unfold State.modHng
  try dsimp only
  repeat' (first | with_reducible assumption | (intro) | with_reducible apply Keeps.ite | with_reducible apply Keeps.ite_snd | with_reducible apply Keeps.foldl | split | simp only [Keeps.mk])

theorem State.hngIgnored_keeps {s u : State} (h : Keeps s u) : Keeps s (State.hngIgnored u) := by
  unfold State.hngIgnored
  try dsimp only
  repeat' (first | with_reducible assumption | (intro) | with_reducible apply State.modHng_keeps)

theorem State.notify_keeps {s u : State} (h : Keeps s u) (b : Box) : Keeps s (State.notify u b) := by
  unfold State.notify
  try dsimp only
  repeat' (first | with_reducible assumption | (intro) | with_reducible apply State.visible_keeps | with_reducible apply State.modHng_keeps | with_reducible apply State.await_keeps | with_reducible apply Keeps.ite)

theorem State.boxClaim_keeps {s u : State} (h : Keeps s u) (who : Who) (b : Box) : Keeps s (State.boxClaim u who b) := by
  unfold State.boxClaim
  try dsimp only
  repeat' (first | with_reducible assumption | (intro) | with_reducible apply State.modHng_keeps | with_reducible apply State.hngIgnored_keeps | with_reducible apply Keeps.ite)

theorem State.boxPost_keeps {s u : State} (h : Keeps s u) (who : Who) (b : Box) (n : ℕ) : Keeps s (State.boxPost u who b n) := by
  unfold State.boxPost
  try dsimp only
  repeat' (first | with_reducible assumption | (intro) | with_reducible apply State.notify_keeps | with_reducible apply State.modHng_keeps | with_reducible apply State.hngIgnored_keeps | with_reducible apply Keeps.ite)

theorem State.boxRelease_keeps {s u : State} (h : Keeps s u) (who : Who) (b : Box) : Keeps s (State.boxRelease u who b) := by
  unfold State.boxRelease
  try dsimp only
  repeat' (first | with_reducible assumption | (intro) | with_reducible apply State.modHng_keeps | with_reducible apply State.hngIgnored_keeps | with_reducible apply Keeps.ite)

theorem State.boxWrite_keeps {s u : State} (h : Keeps s u) (who : Who) (b : Box) (i : ℕ) (w : Word) : Keeps s (State.boxWrite u who b i w) := by
  unfold State.boxWrite
  try dsimp only
  repeat' (first | with_reducible assumption | (intro) | with_reducible apply State.modHng_keeps | with_reducible apply State.hngIgnored_keeps | with_reducible apply Keeps.ite)

theorem State.boxForce_keeps {s u : State} (h : Keeps s u) (b : Box) : Keeps s (State.boxForce u b) := by
  unfold State.boxForce
  try dsimp only
  repeat' (first | with_reducible assumption | (intro) | with_reducible apply State.modSow_keeps | with_reducible apply State.modHng_keeps)

theorem State.boxCtl_keeps {s u : State} (h : Keeps s u) (who : Who) (b : Box) (v : ℕ) : Keeps s (State.boxCtl u who b v) := by
  unfold State.boxCtl
  try dsimp only
  repeat' (first | with_reducible assumption | (intro) | with_reducible apply State.boxClaim_keeps | with_reducible apply State.boxPost_keeps | with_reducible apply State.boxRelease_keeps | with_reducible apply State.hngIgnored_keeps | with_reducible apply Keeps.ite)

theorem State.touch_keeps {s u : State} (h : Keeps s u) (k : ℕ) : Keeps s (State.touch u k) := by
  unfold State.touch
  try dsimp only
  repeat' (first | with_reducible assumption | (intro) | with_reducible apply State.modHng_keeps)

theorem State.writeHinge_keeps {s u : State} (h : Keeps s u) (who : Who) (p : ℕ) (w : Word) : Keeps s (State.writeHinge u who p w) := by
  unfold State.writeHinge
  try dsimp only
  repeat' (first | with_reducible assumption | (intro) | with_reducible apply State.boxCtl_keeps | with_reducible apply State.touch_keeps | with_reducible apply State.modHng_keeps | with_reducible apply State.boxForce_keeps | with_reducible apply State.boxWrite_keeps | with_reducible apply Keeps.ite | with_reducible apply Keeps.ite_snd | with_reducible apply Keeps.foldl | split)

theorem State.expire_keeps {s u : State} (h : Keeps s u) (k : ℕ) : Keeps s (State.expire u k) := by
  unfold State.expire
  try dsimp only
  repeat' (first | with_reducible assumption | (intro) | with_reducible apply State.landInters_keeps | with_reducible apply State.modHng_keeps | with_reducible apply State.stopCore_keeps | with_reducible apply State.modSys_keeps | with_reducible apply State.hwPost_keeps | with_reducible apply Keeps.ite | with_reducible apply Keeps.ite_snd | with_reducible apply Keeps.foldl | split)

theorem State.giver_keeps {s u : State} (h : Keeps s u) (t : ℕ) (w : Word) : Keeps s (State.giver u t w).2 := by
  unfold State.giver
  try dsimp only
  repeat' (first | with_reducible assumption | (intro) | with_reducible apply State.draw_keeps | with_reducible apply Keeps.ite | with_reducible apply Keeps.ite_snd | with_reducible apply Keeps.foldl | split)

theorem State.giveBack_keeps {s u : State} (h : Keeps s u) (t : ℕ) (w : Word) : Keeps s (State.giveBack u t w) := by
  unfold State.giveBack
  try dsimp only
  repeat' (first | with_reducible assumption | (intro) | with_reducible apply State.giver_keeps | with_reducible apply State.modHnd_keeps | with_reducible apply State.modGran_keeps | with_reducible apply Keeps.ite | with_reducible apply Keeps.ite_snd | with_reducible apply Keeps.foldl | split | simp only [Keeps.mk] | (refine Keeps.snd_of (by assumption) ?_) | (refine Keeps.fst_of (by assumption) ?_) | dsimp only | (simp only [Granary.give_mem, Granary.take_mem, Seedbank.setEnv_mem, Seedbank.modTen_mem]))

theorem State.takeBack_keeps {s u : State} (h : Keeps s u) (t : Nat) : Keeps s (State.takeBack u t) := by
  unfold State.takeBack
  split
  · exact h
  · dsimp only
    split
    · exact h
    · exact Keeps.mkMems _ _ _ _ _ _ _ _ _ _ _ _ _ _ _ _ _ _ _ _ _ _ _
        (Keeps.foldl _ _ h fun v w hv => State.giveBack_keeps hv t w) (fun m => by apply Mem.wf_putUnit; exact m) id id id id id

theorem State.seize_keeps {s u : State} (h : Keeps s u) (t : ℕ) : Keeps s (State.seize u t) := by
  unfold State.seize
  try dsimp only
  repeat' (first | with_reducible assumption | (intro) | with_reducible apply State.modSow_keeps | with_reducible apply State.trace_keeps | with_reducible apply Keeps.ite | with_reducible apply Keeps.ite_snd | with_reducible apply Keeps.foldl)

theorem State.entryOf_keeps {s u : State} (h : Keeps s u) (t : ℕ) : Keeps s (State.entryOf u t).2 := by
  unfold State.entryOf
  try dsimp only
  repeat' (first | with_reducible assumption | (intro) | with_reducible apply State.draw_keeps | with_reducible apply Keeps.ite | with_reducible apply Keeps.ite_snd)

theorem State.restart_keeps {s u : State} (h : Keeps s u) (t : ℕ) : Keeps s (State.restart u t) := by
  unfold State.restart
  try dsimp only
  repeat' (first | with_reducible assumption | (intro) | with_reducible apply State.entryOf_keeps | with_reducible apply State.modTh_keeps | with_reducible apply Keeps.ite)

theorem State.recoverThread_keeps {s u : State} (h : Keeps s u) (t : ℕ) : Keeps s (State.recoverThread u t) := by
  unfold State.recoverThread
  try dsimp only
  repeat' (first | with_reducible assumption | (intro) | with_reducible apply State.restart_keeps | with_reducible apply State.takeBack_keeps | with_reducible apply State.seize_keeps)

theorem State.isRecovery_keeps {s u : State} (h : Keeps s u) (t : ℕ) : Keeps s (State.isRecovery u t).2 := by
  unfold State.isRecovery
  try dsimp only
  repeat' (first | with_reducible assumption | (intro) | with_reducible apply State.freeCheck_keeps | with_reducible apply Keeps.ite | with_reducible apply Keeps.ite_snd)

theorem State.threadTaken_keeps {s u : State} (h : Keeps s u) (it : Item) (t : ℕ) : Keeps s (State.threadTaken u it t) := by
  unfold State.threadTaken
  try dsimp only
  repeat' (first | with_reducible assumption | (intro) | with_reducible apply State.dropRest_keeps | with_reducible apply State.recoverThread_keeps | with_reducible apply State.serveItem_keeps | with_reducible apply State.runDue_keeps | with_reducible apply State.retire_keeps | with_reducible apply Keeps.ite | with_reducible apply Keeps.ite_snd | with_reducible apply Keeps.foldl)

theorem State.threadRecovery_keeps {s u : State} (h : Keeps s u) : Keeps s (State.threadRecovery u) := by
  unfold State.threadRecovery
  try dsimp only
  repeat' (first | with_reducible assumption | (intro) | with_reducible apply State.serveItem_keeps | with_reducible apply State.isRecovery_keeps | with_reducible apply State.fieldRestart_keeps | with_reducible apply State.threadTaken_keeps | with_reducible apply Keeps.ite | with_reducible apply Keeps.ite_snd | with_reducible apply Keeps.foldl | split)

theorem State.tellFault_keeps {s u : State} (h : Keeps s u) (k : ℕ) : Keeps s (State.tellFault u k) := by
  unfold State.tellFault
  try dsimp only
  repeat' (first | with_reducible assumption | (intro) | with_reducible apply State.notice_keeps)

theorem State.freeBoxes_keeps {s u : State} (h : Keeps s u) (k : ℕ) : Keeps s (State.freeBoxes u k) := by
  unfold State.freeBoxes
  try dsimp only
  repeat' (first | with_reducible assumption | (intro) | with_reducible apply State.boxForce_keeps | with_reducible apply State.freeCheck_keeps | with_reducible apply Keeps.ite)

theorem State.coreBack_keeps {s u : State} (h : Keeps s u) (k : ℕ) : Keeps s (State.coreBack u k) := by
  unfold State.coreBack
  try dsimp only
  repeat' (first | with_reducible assumption | (intro) | with_reducible apply State.modSys_keeps | with_reducible apply State.modCore_keeps)

theorem State.withdraw_keeps {s u : State} (h : Keeps s u) (x1 : Handle) : Keeps s (State.withdraw u x1) := by
  unfold State.withdraw
  try dsimp only
  repeat' (first | with_reducible assumption | (intro) | with_reducible apply State.modSow_keeps | with_reducible apply State.waitNoMore_keeps)

theorem State.recoverInPlace_keeps {s u : State} (h : Keeps s u) (k : ℕ) : Keeps s (State.recoverInPlace u k) := by
  unfold State.recoverInPlace
  try dsimp only
  repeat' (first | with_reducible assumption | (intro) | with_reducible apply State.coreBack_keeps | with_reducible apply State.dropRest_keeps | with_reducible apply State.recoverThread_keeps | with_reducible apply State.freeBoxes_keeps | with_reducible apply State.runDue_keeps | with_reducible apply State.replay_keeps | with_reducible apply State.withdraw_keeps | with_reducible apply Keeps.ite | with_reducible apply Keeps.ite_snd | with_reducible apply Keeps.foldl)

theorem State.endsInRestart_keeps {s u : State} (h : Keeps s u) (k : Nat) : Keeps s (State.endsInRestart u k).2 := by
  unfold State.endsInRestart
  have hr : Keeps s (if u.sys.recentF2 then u.freeCheck else (false, u)).2 := Keeps.ite_snd (State.freeCheck_keeps h) h
  dsimp only
  refine Keeps.ite_snd h (Keeps.ite_snd hr (Keeps.foldl_snd _ _ hr fun p t hp => ?_))
  exact Keeps.ite_snd hp (State.isRecovery_keeps hp _)

theorem State.heartServed_keeps {s u : State} (h : Keeps s u) (k : ℕ) : Keeps s (State.heartServed u k) := by
  unfold State.heartServed
  try dsimp only
  repeat' (first | with_reducible assumption | (intro) | with_reducible apply State.modSow_keeps | with_reducible apply State.serveItem_keeps | with_reducible apply Keeps.ite | with_reducible apply Keeps.ite_snd | with_reducible apply Keeps.foldl)

theorem State.readOn_keeps {s u : State} (h : Keeps s u) : Keeps s (State.readOn u) := by
  unfold State.readOn
  try dsimp only
  repeat' (first | with_reducible assumption | (intro) | with_reducible apply State.pump_keeps)

theorem State.storeChar_keeps {s u : State} (h : Keeps s u) (c : Byte) : Keeps s (State.storeChar u c) := by
  unfold State.storeChar
  try dsimp only
  repeat' (first | with_reducible assumption | (intro) | with_reducible apply State.modCon_keeps | with_reducible apply State.flowPoints_keeps | with_reducible apply Keeps.ite)

theorem State.consoleChar_keeps {s u : State} (h : Keeps s u) (c : Byte) (framingError : Bool) : Keeps s (State.consoleChar u c framingError) := by
  unfold State.consoleChar
  try dsimp only
  repeat' (first | with_reducible assumption | (intro) | with_reducible apply State.modCon_keeps | with_reducible apply State.readOn_keeps | with_reducible apply State.storeChar_keeps | with_reducible apply Keeps.ite)

theorem State.readConRx_keeps {s u : State} (h : Keeps s u) : Keeps s (State.readConRx u) := by
  unfold State.readConRx
  try dsimp only
  repeat' (first | with_reducible assumption | (intro) | with_reducible apply State.flowPoints_keeps | with_reducible apply State.modCon_keeps)

theorem State.releaseHeld_keeps {s u : State} (h : Keeps s u) (n : Nat) : Keeps s (State.releaseHeld n u) := by
  induction n generalizing u with
  | zero => exact h
  | succ n ih =>
    unfold State.releaseHeld
    split
    · exact h
    · split
      · exact ih (State.lineQueued_keeps (State.pushOut_keeps (State.modCon_keeps h _) _) _)
      · exact h

theorem State.tellLost_keeps {s u : State} (h : Keeps s u) : Keeps s (State.tellLost u) := by
  unfold State.tellLost
  try dsimp only
  repeat' (first | with_reducible assumption | (intro) | with_reducible apply State.modCon_keeps | with_reducible apply State.notice_keeps | with_reducible apply Keeps.ite)

theorem State.ignoreForm_keeps {s u : State} (h : Keeps s u) (k : ℕ) (proof : Bool) : Keeps s (State.ignoreForm u k proof) := by
  unfold State.ignoreForm
  try dsimp only
  repeat' (first | with_reducible assumption | (intro) | with_reducible apply State.ignore_keeps | with_reducible apply State.modSes_keeps | with_reducible apply Keeps.ite)

theorem State.malformed_keeps {s u : State} (h : Keeps s u) (k : Fin 16) : Keeps s (State.malformed u k) := by
  unfold State.malformed
  try dsimp only
  repeat' (first | with_reducible assumption | (intro) | with_reducible apply State.afterLine_keeps | with_reducible apply State.ignoreForm_keeps | with_reducible apply State.nextLine_keeps | with_reducible apply Keeps.ite)

theorem State.addressed_keeps {s u : State} (h : Keeps s u) (w : Typed) (body : State → State) (hbody : ∀ v, Keeps s v → Keeps s (body v)) : Keeps s (State.addressed u w body) := by
  unfold State.addressed
  try dsimp only
  repeat' (first | with_reducible assumption | (intro) | with_reducible apply hbody | with_reducible apply State.nextLine_keeps | with_reducible apply State.afterLine_keeps | with_reducible apply State.ignoreForm_keeps | with_reducible apply Keeps.ite)

theorem State.runsHere_keeps {s u : State} (h : Keeps s u) (text : String) : Keeps s (State.runsHere u text) := by
  unfold State.runsHere
  try dsimp only
  repeat' (first | with_reducible assumption | (intro) | with_reducible apply State.modCon_keeps)

theorem State.cutLine_keeps {s u : State} (h : Keeps s u) (clean : Bool) (line : ℕ) (b : List Byte) : Keeps s (State.cutLine u clean line b) := by
  unfold State.cutLine
  try dsimp only
  repeat' (first | with_reducible assumption | (intro) | with_reducible apply State.draw_keeps | with_reducible apply State.furStore_keeps | with_reducible apply State.furDamage_keeps | with_reducible apply Keeps.ite)

theorem State.cutFurrow_keeps {s u : State} (h : Keeps s u) (clean : Bool) : Keeps s (State.cutFurrow u clean) := by
  unfold State.cutFurrow
  try dsimp only
  repeat' (first | with_reducible assumption | (intro) | with_reducible apply State.cutLine_keeps | with_reducible apply State.draw_keeps | with_reducible apply Keeps.ite | with_reducible apply Keeps.ite_snd | with_reducible apply Keeps.foldl | split)

theorem State.cutSeedbank_keeps {s u : State} (h : Keeps s u) : Keeps s (State.cutSeedbank u) := by
  unfold State.cutSeedbank
  try dsimp only
  repeat' (first | with_reducible assumption | (intro) | with_reducible apply State.pageDamage_keeps | with_reducible apply Keeps.ite)

theorem State.coldReset_keeps {s u : State} (h : Keeps s u) (code : Nat) (low jtag : Bool) : Keeps s (u.coldReset code low jtag) := by
  refine ⟨h.1, fun m => ?_⟩
  obtain ⟨_, _, _, _, e, _, g, i⟩ := h.2 m
  exact ⟨rfl, rfl, rfl, rfl, e, rfl, g, i⟩

theorem State.coldStart_keeps {s u : State} (h : Keeps s u) (code : ℕ) (clean : Bool) (low : Bool) : Keeps s (State.coldStart u code clean low) := by
  unfold State.coldStart
  try dsimp only
  repeat' (first | with_reducible assumption | (intro) | with_reducible apply State.modHnd_keeps | with_reducible apply State.cutSeedbank_keeps | with_reducible apply State.cutFurrow_keeps | with_reducible apply State.coldReset_keeps | with_reducible apply Keeps.ite)

theorem State.setQueue_keeps {s u : State} (h : Keeps s u) (q : ℕ) (limit : ℕ) (urg : ℕ) : Keeps s (State.setQueue u q limit urg) := by
  unfold State.setQueue
  try dsimp only
  repeat' (first | with_reducible assumption | (intro) | with_reducible apply State.modQue_keeps)

theorem State.loadJournal_keeps {s u : State} (h : Keeps s u) : Keeps s (State.loadJournal u) := by
  unfold State.loadJournal
  try dsimp only
  repeat' (first | with_reducible assumption | (intro) | with_reducible apply State.modJrn_keeps | with_reducible apply State.modHnd_keeps)

theorem State.rankOpens_keeps {s u : State} (h : Keeps s u) : Keeps s (State.rankOpens u) := by
  unfold State.rankOpens
  try dsimp only
  repeat' (first | with_reducible assumption | (intro) | with_reducible apply State.ranked_keeps | with_reducible apply Keeps.ite | with_reducible apply Keeps.ite_snd | with_reducible apply Keeps.foldl)

theorem State.rebase_keeps {s u : State} (h : Keeps s u) (d : ℕ) : Keeps s (State.rebase u d) := by
  unfold State.rebase
  try dsimp only
  repeat' (first | with_reducible assumption | (intro) | with_reducible apply Keeps.ite | with_reducible apply Keeps.ite_snd | with_reducible apply Keeps.foldl | split | simp only [Keeps.mk])

theorem State.restoreLocks_keeps {s u : State} (h : Keeps s u) : Keeps s (State.restoreLocks u) := by
  unfold State.restoreLocks
  try dsimp only
  repeat' (first | with_reducible assumption | (intro) | with_reducible apply State.setLatch_keeps | with_reducible apply Keeps.ite | with_reducible apply Keeps.ite_snd | with_reducible apply Keeps.foldl)

theorem State.markOpens_keeps {s u : State} (h : Keeps s u) : Keeps s (State.markOpens u) := by
  unfold State.markOpens
  try dsimp only
  repeat' (first | with_reducible assumption | (intro) | with_reducible apply State.modHnd_keeps)

theorem State.coldReplay_keeps {s u : State} (h : Keeps s u) : Keeps s (State.coldReplay u) := by
  unfold State.coldReplay
  try dsimp only
  repeat' (first | with_reducible assumption | (intro) | with_reducible apply State.supersede_keeps | with_reducible apply State.markOpens_keeps | with_reducible apply State.replay_keeps | with_reducible apply State.finishDue_keeps | with_reducible apply State.settleAll_keeps | with_reducible apply State.runDue_keeps | with_reducible apply Keeps.ite | with_reducible apply Keeps.ite_snd | with_reducible apply Keeps.foldl | split)

theorem State.releaseField_keeps {s u : State} (h : Keeps s u) : Keeps s (State.releaseField u) := by
  unfold State.releaseField
  try dsimp only
  repeat' (first | with_reducible assumption | (intro) | with_reducible apply State.modSys_keeps | with_reducible apply Keeps.ite | with_reducible apply Keeps.ite_snd | with_reducible apply Keeps.foldl | split | simp only [Keeps.mk] | (refine Keeps.snd_of (by assumption) ?_) | (refine Keeps.fst_of (by assumption) ?_) | dsimp only | (simp only [Granary.give_mem, Granary.take_mem, Seedbank.setEnv_mem, Seedbank.modTen_mem]) | with_reducible apply Mem.wf_puts | with_reducible apply Mem.wf_clear | (exact Mem.wf_nil _) | with_reducible apply Mem.wf_putUnit | with_reducible apply Keeps.mkMems)

theorem State.setBoard_keeps {s u : State} (h : Keeps s u) (main : ℕ → Chan) (aux : ℕ → Chan) (sm : ℕ → ℕ) (sa : ℕ → ℕ) : Keeps s (State.setBoard u main aux sm sa) := by
  unfold State.setBoard
  try dsimp only
  repeat' (first | with_reducible assumption | (intro) | with_reducible apply State.programAll_keeps | with_reducible apply State.modBays_keeps | with_reducible apply Keeps.ite | with_reducible apply Keeps.ite_snd | with_reducible apply Keeps.foldl)

theorem State.readBoard_keeps {s u : State} (h : Keeps s u) : Keeps s (State.readBoard u) := by
  unfold State.readBoard
  try dsimp only
  repeat' (first | with_reducible assumption | (intro) | with_reducible apply State.setBoard_keeps | with_reducible apply State.notice_keeps | with_reducible apply State.proofRun_keeps | with_reducible apply State.modBays_keeps | with_reducible apply Keeps.ite)

theorem State.replayField_keeps {s u : State} (h : Keeps s u) : Keeps s (State.replayField u) := by
  unfold State.replayField
  try dsimp only
  repeat' (first | with_reducible assumption | (intro) | with_reducible apply State.modOpen_keeps | with_reducible apply State.replay_keeps | with_reducible apply Keeps.ite | with_reducible apply Keeps.ite_snd | with_reducible apply Keeps.foldl | split)

theorem State.needField_keeps {s u : State} (h : Keeps s u) : Keeps s (State.needField u) := by
  unfold State.needField
  try dsimp only
  repeat' (first | with_reducible assumption | (intro) | with_reducible apply State.isDown_keeps | with_reducible apply Keeps.ite | with_reducible apply Keeps.ite_snd | with_reducible apply Keeps.foldl)

theorem State.announceField_keeps {s u : State} (h : Keeps s u) (f : Fn) : Keeps s (State.announceField u f) := by
  unfold State.announceField
  try dsimp only
  repeat' (first | with_reducible assumption | (intro) | with_reducible apply State.notice_keeps | with_reducible apply State.runDue_keeps | with_reducible apply Keeps.ite | with_reducible apply Keeps.ite_snd | with_reducible apply Keeps.foldl | split | simp only [Keeps.mk])

theorem State.fieldReady_keeps {s u : State} (h : Keeps s u) : Keeps s (State.fieldReady u) := by
  unfold State.fieldReady
  try dsimp only
  repeat' (first | with_reducible assumption | (intro) | with_reducible apply State.modTags_keeps | with_reducible apply State.modSys_keeps | with_reducible apply State.runDue_keeps | with_reducible apply State.readBoard_keeps | with_reducible apply State.modFans_keeps | with_reducible apply State.announceField_keeps | with_reducible apply State.showTags_keeps)

theorem State.setFieldQueues_keeps {s u : State} (h : Keeps s u) : Keeps s (State.setFieldQueues u) := by
  unfold State.setFieldQueues
  try dsimp only
  repeat' (first | with_reducible assumption | (intro) | with_reducible apply State.setQueue_keeps | with_reducible apply Keeps.ite | with_reducible apply Keeps.ite_snd | with_reducible apply Keeps.foldl)

theorem State.wakesDone_keeps {s u : State} (h : Keeps s u) : Keeps s (State.wakesDone u) := by
  unfold State.wakesDone
  try dsimp only
  repeat' (first | with_reducible assumption | (intro) | with_reducible apply State.retire_keeps | with_reducible apply Keeps.ite | with_reducible apply Keeps.ite_snd | with_reducible apply Keeps.foldl)

theorem State.tellWoken_keeps {s u : State} (h : Keeps s u) (t : ℕ) : Keeps s (State.tellWoken u t) := by
  unfold State.tellWoken
  try dsimp only
  repeat' (first | with_reducible assumption | (intro) | with_reducible apply State.hwPost_keeps | with_reducible apply Keeps.ite)

theorem State.granted_keeps {s u : State} (h : Keeps s u) (k : ℕ) : Keeps s (State.granted u k) := by
  unfold State.granted
  try dsimp only
  repeat' (first | with_reducible assumption | (intro) | with_reducible apply State.modHng_keeps | with_reducible apply Keeps.ite)

theorem State.readAlert_keeps {s u : State} (h : Keeps s u) : Keeps s (State.readAlert u).2 := by
  unfold State.readAlert
  try dsimp only
  repeat' (first | with_reducible assumption | (intro) | with_reducible apply State.draw_keeps | with_reducible apply Keeps.ite | with_reducible apply Keeps.ite_snd)

theorem State.readSystem_keeps {s u : State} (h : Keeps s u) (p : ℕ) : Keeps s (State.readSystem u p).2 := by
  unfold State.readSystem
  try dsimp only
  repeat' (first | with_reducible assumption | (intro) | with_reducible apply State.readAlert_keeps | with_reducible apply Keeps.ite | with_reducible apply Keeps.ite_snd | with_reducible apply Keeps.foldl | split)

theorem State.writeLocks_keeps {s u : State} (h : Keeps s u) (i : ℕ) (v : ℕ) : Keeps s (State.writeLocks u i v) := by
  unfold State.writeLocks
  try dsimp only
  repeat' (first | with_reducible assumption | (intro) | with_reducible apply State.writeLock_keeps | with_reducible apply Keeps.ite | with_reducible apply Keeps.ite_snd | with_reducible apply Keeps.foldl)

theorem State.writeSystem_keeps {s u : State} (h : Keeps s u) (k : ℕ) (p : ℕ) (v : ℕ) : Keeps s (State.writeSystem u k p v) := by
  unfold State.writeSystem
  try dsimp only
  repeat' (first | with_reducible assumption | (intro) | with_reducible apply State.modSys_keeps | with_reducible apply State.writeLocks_keeps | with_reducible apply Keeps.ite | with_reducible apply Keeps.ite_snd | with_reducible apply Keeps.foldl | split)

theorem State.readSower_keeps {s u : State} (h : Keeps s u) (k : ℕ) (p : ℕ) : Keeps s (State.readSower u k p).2 := by
  unfold State.readSower
  try dsimp only
  repeat' (first | with_reducible assumption | (intro) | with_reducible apply State.contextAccess_keeps | with_reducible apply State.readTrLo_keeps | with_reducible apply Keeps.ite | with_reducible apply Keeps.ite_snd | with_reducible apply Keeps.foldl | split)

theorem State.writeSower_keeps {s u : State} (h : Keeps s u) (k : ℕ) (p : ℕ) (v : ℕ) : Keeps s (State.writeSower u k p v) := by
  unfold State.writeSower
  try dsimp only
  repeat' (first | with_reducible assumption | (intro) | with_reducible apply State.writeSowQ_keeps | with_reducible apply State.writeSowT_keeps | with_reducible apply State.modTh_keeps | with_reducible apply State.writeWeight_keeps | with_reducible apply State.writeSowCtl_keeps | with_reducible apply State.flush_keeps | with_reducible apply State.writeStSel_keeps | with_reducible apply State.modCore_keeps | with_reducible apply State.contextAccess_keeps | with_reducible apply State.writeTrCtl_keeps | with_reducible apply State.modSow_keeps | with_reducible apply Keeps.ite | with_reducible apply Keeps.ite_snd | with_reducible apply Keeps.foldl | split)

theorem State.readGranary_keeps {s u : State} (h : Keeps s u) (k t p : Nat) : Keeps s (u.readGranary k t p).2 := by
  unfold State.readGranary
  dsimp only
  split
  · split
    · exact h
    · exact h.of_eq rfl rfl (by simp) rfl rfl
  · split
    · exact h
    · split <;> exact h

theorem State.writeGranary_keeps {s u : State} (h : Keeps s u) (k t p v : Nat) : Keeps s (State.writeGranary u k t p v) := by
  unfold State.writeGranary
  dsimp only
  split
  · exact h
  split
  · exact State.modGran_keeps h _ fun g hg => by simpa using hg
  · split
    · exact State.modGran_keeps h _ fun g hg => by simpa using hg
    · exact State.modCore_keeps h ..
    · exact State.modGran_keeps h _ fun g hg => by simpa using hg
    · exact State.modGran_keeps h _ fun g hg => by simpa using hg
    · exact State.modCore_keeps h ..
    · exact h

theorem State.readConsole_keeps {s u : State} (h : Keeps s u) (p : ℕ) : Keeps s (State.readConsole u p).2 := by
  unfold State.readConsole
  try dsimp only
  repeat' (first | with_reducible assumption | (intro) | with_reducible apply State.readConRx_keeps | with_reducible apply Keeps.ite | with_reducible apply Keeps.ite_snd | with_reducible apply Keeps.foldl | split)

theorem State.writeConsole_keeps {s u : State} (h : Keeps s u) (p : ℕ) (v : ℕ) : Keeps s (State.writeConsole u p v) := by
  unfold State.writeConsole
  try dsimp only
  repeat' (first | with_reducible assumption | (intro) | with_reducible apply State.modCon_keeps | with_reducible apply Keeps.ite | with_reducible apply Keeps.ite_snd | with_reducible apply Keeps.foldl | split)

theorem State.readRing_keeps {s u : State} (h : Keeps s u) (p : ℕ) : Keeps s (State.readRing u p).2 := by
  unfold State.readRing
  try dsimp only
  repeat' (first | with_reducible assumption | (intro) | with_reducible apply State.modRing_keeps | with_reducible apply Keeps.ite | with_reducible apply Keeps.ite_snd | with_reducible apply Keeps.foldl | split)

theorem State.writeRing_keeps {s u : State} (h : Keeps s u) (p : ℕ) (v : ℕ) : Keeps s (State.writeRing u p v) := by
  unfold State.writeRing
  try dsimp only
  repeat' (first | with_reducible assumption | (intro) | with_reducible apply State.modRing_keeps | with_reducible apply State.startPass_keeps | with_reducible apply State.cancelTx_keeps | with_reducible apply State.writeTx_keeps | with_reducible apply Keeps.ite | with_reducible apply Keeps.ite_snd | with_reducible apply Keeps.foldl | split)

theorem State.writeFurrow_keeps {s u : State} (h : Keeps s u) (p : ℕ) (v : ℕ) : Keeps s (State.writeFurrow u p v) := by
  unfold State.writeFurrow
  try dsimp only
  repeat' (first | with_reducible assumption | (intro) | with_reducible apply State.modFur_keeps | with_reducible apply State.furCmd_keeps | with_reducible apply Keeps.ite)

theorem State.writeSeedbank_keeps {s u : State} (h : Keeps s u) (p : ℕ) (v : ℕ) : Keeps s (State.writeSeedbank u p v) := by
  unfold State.writeSeedbank
  try dsimp only
  repeat' (first | with_reducible assumption | (intro) | with_reducible apply State.modSdb_keeps | with_reducible apply State.sdbCmd_keeps | with_reducible apply Keeps.ite)

theorem State.readCalendar_keeps {s u : State} (h : Keeps s u) (t : ℕ) (p : ℕ) : Keeps s (State.readCalendar u t p).2 := by
  unfold State.readCalendar
  try dsimp only
  repeat' (first | with_reducible assumption | (intro) | with_reducible apply State.readTickLo_keeps | with_reducible apply Keeps.ite | with_reducible apply Keeps.ite_snd | with_reducible apply Keeps.foldl | split)

theorem State.writeCalendar_keeps {s u : State} (h : Keeps s u) (p : ℕ) (v : ℕ) : Keeps s (State.writeCalendar u p v) := by
  unfold State.writeCalendar
  try dsimp only
  repeat' (first | with_reducible assumption | (intro) | with_reducible apply State.modCal_keeps | with_reducible apply State.loadCount_keeps | with_reducible apply State.setUtc_keeps | with_reducible apply Keeps.ite | with_reducible apply Keeps.ite_snd | with_reducible apply Keeps.foldl | split)

theorem State.modSpi_keeps {s u : State} (h : Keeps s u) (f : Spi → Spi) : Keeps s (State.modSpi u f) := by
  unfold State.modSpi
  try dsimp only
  repeat' (first | with_reducible assumption | (intro) | with_reducible apply Keeps.ite | with_reducible apply Keeps.ite_snd | with_reducible apply Keeps.foldl | split | simp only [Keeps.mk])

theorem State.spiMove_keeps {s u : State} (h : Keeps s u) (d a b n : Nat) : Keeps s (State.spiMove u d a b n) := by
  induction n generalizing u a b with
  | zero => exact h
  | succ n ih =>
    unfold State.spiMove
    dsimp only
    split
    · exact ih (State.writeData_keeps h ..) _ _
    · exact ih h _ _

theorem State.spiEnds_keeps {s u : State} (h : Keeps s u) : Keeps s (State.spiEnds u) := by
  unfold State.spiEnds
  try dsimp only
  repeat' (first | with_reducible assumption | (intro) | with_reducible apply State.draw_keeps | with_reducible apply State.modSpi_keeps | with_reducible apply State.spiMove_keeps | with_reducible apply Keeps.ite | with_reducible apply Keeps.ite_snd | with_reducible apply Keeps.foldl | split)

theorem State.readStamp_keeps {s u : State} (h : Keeps s u) : Keeps s (State.readStamp u).2 := by
  unfold State.readStamp
  try dsimp only
  repeat' (first | with_reducible assumption | (intro) | with_reducible apply State.stamped_keeps)

theorem State.readPort_keeps {s u : State} (h : Keeps s u) (k : ℕ) (t : ℕ) (p : ℕ) : Keeps s (State.readPort u k t p).2 := by
  unfold State.readPort
  try dsimp only
  repeat' (first | with_reducible assumption | (intro) | with_reducible apply State.readSystem_keeps | with_reducible apply State.lookBay_keeps | with_reducible apply State.readSower_keeps | with_reducible apply State.readGranary_keeps | with_reducible apply State.readStamp_keeps | with_reducible apply State.readConsole_keeps | with_reducible apply State.readRing_keeps | with_reducible apply State.readCalendar_keeps | with_reducible apply State.readEnvPort_keeps | with_reducible apply Keeps.ite | with_reducible apply Keeps.ite_snd | with_reducible apply Keeps.foldl | split)

theorem State.writePort_keeps {s u : State} (h : Keeps s u) (k : ℕ) (t : ℕ) (p : ℕ) (w : Word) : Keeps s (State.writePort u k t p w) := by
  unfold State.writePort
  try dsimp only
  repeat' (first | with_reducible assumption | (intro) | with_reducible apply State.writeSystem_keeps | with_reducible apply State.modPlot_keeps | with_reducible apply State.writeBayPort_keeps | with_reducible apply State.writeHinge_keeps | with_reducible apply State.writeSower_keeps | with_reducible apply State.writeGranary_keeps | with_reducible apply State.writeConsole_keeps | with_reducible apply State.writeRing_keeps | with_reducible apply State.writeFurrow_keeps | with_reducible apply State.writeSeedbank_keeps | with_reducible apply State.writeCalendar_keeps | with_reducible apply State.modSpi_keeps | with_reducible apply State.writeKeyPort_keeps | with_reducible apply State.writeTagPort_keeps | with_reducible apply State.writeFacePort_keeps | with_reducible apply State.writeFanPort_keeps | with_reducible apply State.writeShunt_keeps | with_reducible apply State.writeEnvPort_keeps | with_reducible apply Keeps.ite | with_reducible apply Keeps.ite_snd | with_reducible apply Keeps.foldl | split)

theorem State.inPort_keeps {s u : State} (h : Keeps s u) (k : ℕ) (t : ℕ) (p : ℕ) : Keeps s (State.inPort u k t p).2 := by
  unfold State.inPort
  try dsimp only
  repeat' (first | with_reducible assumption | (intro) | with_reducible apply State.readPort_keeps | with_reducible apply State.granted_keeps | with_reducible apply Keeps.ite | with_reducible apply Keeps.ite_snd)

theorem State.outPort_keeps {s u : State} (h : Keeps s u) (k : ℕ) (t : ℕ) (p : ℕ) (w : Word) : Keeps s (State.outPort u k t p w) := by
  unfold State.outPort
  try dsimp only
  repeat' (first | with_reducible assumption | (intro) | with_reducible apply State.writePort_keeps | with_reducible apply State.granted_keeps | with_reducible apply Keeps.ite)

theorem State.drainOne_keeps {s u : State} (h : Keeps s u) (k : ℕ) : Keeps s (State.drainOne u k) := by
  unfold State.drainOne
  try dsimp only
  repeat' (first | with_reducible assumption | (intro) | with_reducible apply State.outPort_keeps | with_reducible apply State.modCore_keeps | with_reducible apply Keeps.ite | with_reducible apply Keeps.ite_snd | with_reducible apply Keeps.foldl | split)

theorem State.drain_keeps {s u : State} (h : Keeps s u) (k : Nat) (x1 : Nat) : Keeps s (State.drain k x1 u) := by
  induction x1 generalizing u k with
  | zero => unfold State.drain; repeat' (with_reducible assumption)
  | succ n ih =>
    unfold State.drain
    try dsimp only
    repeat' (first | with_reducible assumption | (intro) | with_reducible apply ih | with_reducible apply State.drainOne_keeps)

theorem State.drainAll_keeps {s u : State} (h : Keeps s u) (k : ℕ) : Keeps s (State.drainAll u k) := by
  unfold State.drainAll
  try dsimp only
  repeat' (first | with_reducible assumption | (intro) | with_reducible apply State.drain_keeps | with_reducible apply Keeps.ite | with_reducible apply Keeps.ite_snd | with_reducible apply Keeps.foldl)

theorem State.setOpen_keeps {s u : State} (h : Keeps s u) (t : ℕ) (o : Option OpenItem) : Keeps s (State.setOpen u t o) := by
  unfold State.setOpen
  try dsimp only
  repeat' (first | with_reducible assumption | (intro) | with_reducible apply State.modTh_keeps)

theorem State.append_keeps {s u : State} (h : Keeps s u) (k : ℕ) (t : ℕ) (o : OpenItem) (w : Word) (last : Bool) : Keeps s (State.append u k t o w last) := by
  unfold State.append
  try dsimp only
  repeat' (first | with_reducible assumption | (intro) | with_reducible apply State.flushEnd_keeps | with_reducible apply State.setOpen_keeps | with_reducible apply State.modSow_keeps | with_reducible apply State.visible_keeps | with_reducible apply State.drainAll_keeps | with_reducible apply Keeps.ite | with_reducible apply Keeps.ite_snd | with_reducible apply Keeps.foldl | split)

theorem State.waitSpace_keeps {s u : State} (h : Keeps s u) (k : ℕ) (t : ℕ) (q : ℕ) (w : Word) (last : Bool) : Keeps s (State.waitSpace u k t q w last) := by
  unfold State.waitSpace
  try dsimp only
  repeat' (first | with_reducible assumption | (intro) | with_reducible apply State.drainAll_keeps | with_reducible apply State.trace_keeps | with_reducible apply State.modTh_keeps | with_reducible apply State.freeCore_keeps | with_reducible apply State.await_keeps | with_reducible apply Keeps.ite)

theorem State.post_keeps {s u : State} (h : Keeps s u) (k t q : Nat) (w : Word) (last : Bool) :
    (State.post u k t q w last).Kept s := by
  unfold State.post
  split
  · exact State.append_keeps h ..
  · dsimp only
    split
    · trivial
    · split
      · exact State.append_keeps h ..
      · exact State.waitSpace_keeps h ..

theorem State.toReg_keeps {s u : State} (h : Keeps s u) (k : ℕ) (t : ℕ) (rd : ℕ) (v : Word) : Keeps s (State.toReg u k t rd v) := by
  unfold State.toReg
  try dsimp only
  repeat' (first | with_reducible assumption | (intro) | with_reducible apply State.modTh_keeps | with_reducible apply Keeps.ite)

theorem State.completes_keeps {s u : State} (h : Keeps s u) (x : Transfer) : Keeps s (State.completes u x) := by
  unfold State.completes
  try dsimp only
  repeat' (first | with_reducible assumption | (intro) | with_reducible apply State.goPc_keeps | with_reducible apply Keeps.ite)

theorem State.hingeGrant_keeps {s u : State} (h : Keeps s u) (x : Transfer) : Keeps s (State.hingeGrant u x) := by
  unfold State.hingeGrant
  split
  · refine State.completes_keeps (State.toReg_keeps ?_ ..) _
    split
    · exact h
    · exact State.inPort_keeps h ..
  · refine State.completes_keeps ?_ _
    split
    · exact h
    · exact State.outPort_keeps h ..
  · rename_i q w last _
    have hp := State.post_keeps (State.granted_keeps h x.core) x.core x.tid q w last
    split
    · rename_i v e; rw [e] at hp; exact State.completes_keeps hp _
    · rename_i v e; rw [e] at hp; exact hp
    · exact h

theorem State.boundary_keeps {s u : State} (h : Keeps s u) (x : Transfer) : Keeps s (State.boundary u x) := by
  unfold State.boundary
  try dsimp only
  repeat' (first | with_reducible assumption | (intro) | with_reducible apply State.expire_keeps | with_reducible apply State.stopNow_keeps | with_reducible apply Keeps.ite)

theorem State.lateGrant_keeps {s u : State} (h : Keeps s u) (x : Transfer) : Keeps s (State.lateGrant u x) := by
  unfold State.lateGrant
  try dsimp only
  repeat' (first | with_reducible assumption | (intro) | with_reducible apply State.boundary_keeps | with_reducible apply State.hingeGrant_keeps)

theorem State.heldGrant_keeps {s u : State} (h : Keeps s u) : Keeps s (State.heldGrant u) := by
  unfold State.heldGrant
  try dsimp only
  repeat' (first | with_reducible assumption | (intro) | with_reducible apply State.lateGrant_keeps | with_reducible apply State.modHng_keeps | with_reducible apply Keeps.ite | with_reducible apply Keeps.ite_snd | with_reducible apply Keeps.foldl | split)

theorem State.heldGrants_keeps {s u : State} (h : Keeps s u) : Keeps s (State.heldGrants u) :=
  Keeps.foldl _ _ h fun _ _ hv => State.heldGrant_keeps hv

theorem State.arbitrate_keeps {s u : State} (h : Keeps s u) (lat : Option Transfer) (fld : List Transfer) : Keeps s (State.arbitrate u lat fld) := by
  unfold State.arbitrate
  try dsimp only
  repeat' (first | with_reducible assumption | (intro) | with_reducible apply State.hingeGrant_keeps | with_reducible apply State.modHng_keeps | with_reducible apply State.lateGrant_keeps | with_reducible apply Keeps.ite | with_reducible apply Keeps.ite_snd | with_reducible apply Keeps.foldl | split)

theorem State.atCycle_keeps {s u : State} (h : Keeps s u) (lat : Option Transfer) (fld : List Transfer) : Keeps s (State.atCycle u lat fld) := by
  unfold State.atCycle
  try dsimp only
  repeat' (first | with_reducible assumption | (intro) | with_reducible apply State.heldGrants_keeps | with_reducible apply State.arbitrate_keeps)

theorem State.transfer_keeps {s u : State} (h : Keeps s u) (x : Transfer) : Keeps s (State.transfer u x) := by
  unfold State.transfer
  try dsimp only
  repeat' (first | with_reducible assumption | (intro) | with_reducible apply State.atCycle_keeps | with_reducible apply Keeps.ite)

theorem State.accessed_keeps {s u : State} (h : Keeps s u) (x : Transfer) : Keeps s (State.accessed u x) := by
  unfold State.accessed
  try dsimp only
  repeat' (first | with_reducible assumption | (intro) | with_reducible apply State.transfer_keeps | with_reducible apply State.hingeGrant_keeps | with_reducible apply Keeps.ite)

theorem State.wroteOf_keeps {s u : State} (h : Keeps s u) (who : Who) (p : ℕ) (v : State → ℕ) : Keeps s (State.wroteOf u who p v) := by
  unfold State.wroteOf
  try dsimp only
  repeat' (first | with_reducible assumption | (intro) | with_reducible apply State.accessed_keeps | with_reducible apply State.drainAll_keeps | with_reducible apply Keeps.ite)

theorem State.wrote_keeps {s u : State} (h : Keeps s u) (who : Who) (p : ℕ) (v : ℕ) : Keeps s (State.wrote u who p v) := by
  unfold State.wrote
  try dsimp only
  repeat' (first | with_reducible assumption | (intro) | with_reducible apply State.wroteOf_keeps)

theorem State.didRead_keeps {s u : State} (h : Keeps s u) (who : Who) (p : ℕ) : Keeps s (State.didRead u who p) := by
  unfold State.didRead
  try dsimp only
  repeat' (first | with_reducible assumption | (intro) | with_reducible apply State.accessed_keeps | with_reducible apply State.drainAll_keeps | with_reducible apply Keeps.ite)

theorem State.drainCores_keeps {s u : State} (h : Keeps s u) (l : List ℕ) : Keeps s (State.drainCores u l) := by
  unfold State.drainCores
  try dsimp only
  repeat' (first | with_reducible assumption | (intro) | with_reducible apply State.drainAll_keeps | with_reducible apply Keeps.ite | with_reducible apply Keeps.ite_snd | with_reducible apply Keeps.foldl)

theorem State.wroteSel_keeps {s u : State} (h : Keeps s u) (who : Who) (r : ℕ) (p : ℕ) (port : ℕ) (v : ℕ) : Keeps s (State.wroteSel u who r p port v) := by
  unfold State.wroteSel
  try dsimp only
  repeat' (first | with_reducible assumption | (intro) | with_reducible apply State.wrote_keeps | with_reducible apply State.accessed_keeps | with_reducible apply Keeps.ite)

theorem State.buffer_keeps {s u : State} (h : Keeps s u) (k : ℕ) (t : ℕ) (p : ℕ) (w : Word) : Keeps s (State.buffer u k t p w) := by
  unfold State.buffer
  try dsimp only
  repeat' (first | with_reducible assumption | (intro) | with_reducible apply State.drainOne_keeps | with_reducible apply State.modCore_keeps | with_reducible apply Keeps.ite)

theorem State.modJtag_keeps {s u : State} (h : Keeps s u) (f : JtagPort → JtagPort) : Keeps s (State.modJtag u f) := by
  unfold State.modJtag
  try dsimp only
  repeat' (first | with_reducible assumption | (intro) | with_reducible apply Keeps.ite | with_reducible apply Keeps.ite_snd | with_reducible apply Keeps.foldl | split | simp only [Keeps.mk])

theorem State.loadCode_keeps {s u : State} (h : Keeps s u) (c : BitVec 6) : Keeps s (State.loadCode u c) := by
  unfold State.loadCode
  try dsimp only
  repeat' (first | with_reducible assumption | (intro) | with_reducible apply State.modJtag_keeps)

theorem State.loadIr_keeps {s u : State} (h : Keeps s u) (i : Jtag) : Keeps s (State.loadIr u i) := by
  unfold State.loadIr
  try dsimp only
  repeat' (first | with_reducible assumption | (intro) | with_reducible apply State.loadCode_keeps)

theorem State.extest_keeps {s u : State} (h : Keeps s u) : Keeps s (State.extest u) := by
  unfold State.extest
  try dsimp only
  repeat' (first | with_reducible assumption | (intro) | with_reducible apply State.loadIr_keeps | with_reducible apply State.fieldLost_keeps | with_reducible apply Keeps.ite)

theorem State.peekPort_keeps {s u : State} (h : Keeps s u) (lcSide : Bool) (p : ℕ) : Keeps s (State.peekPort u lcSide p).2 := by
  unfold State.peekPort
  try dsimp only
  repeat' (first | with_reducible assumption | (intro) | with_reducible apply State.draw_keeps | with_reducible apply State.inPort_keeps | with_reducible apply State.modSys_keeps | with_reducible apply Keeps.ite | with_reducible apply Keeps.ite_snd)

theorem State.dbgPeek_keeps {s u : State} (h : Keeps s u) (space : DbgSpace) (lcSide : Bool) (a : ℕ) : Keeps s (State.dbgPeek u space lcSide a).2 := by
  unfold State.dbgPeek
  try dsimp only
  repeat' (first | with_reducible assumption | (intro) | with_reducible apply State.heldGrants_keeps | with_reducible apply State.peekPort_keeps | with_reducible apply Keeps.ite | with_reducible apply Keeps.ite_snd | with_reducible apply Keeps.foldl | split)

theorem State.dbgPoke_keeps {s u t : State} (h : Keeps s u) (space : DbgSpace) (lcSide : Bool) (a : Nat) (w : Word)
    (e : u.dbgPoke space lcSide a w = some t) : Keeps s t := by
  cases space with
  | data =>
    obtain ⟨x, -, rfl⟩ := Option.map_eq_some_iff.1 e
    exact State.writeData_keeps h ..
  | io =>
    simp only [State.dbgPoke] at e
    split at e
    · cases e; exact State.outPort_keeps (State.heldGrants_keeps h) ..
    · cases e
  | instr =>
    obtain ⟨x, -, hx⟩ := Option.bind_eq_some_iff.1 e
    exact State.writeInstr_keeps h _ _ hx
  | context =>
    simp only [State.dbgPoke] at e
    split at e
    · cases e; exact State.writeContext_keeps h ..
    · cases e

theorem State.capture_keeps {s u : State} (h : Keeps s u) : Keeps s (State.capture u) := by
  unfold State.capture
  try dsimp only
  repeat' (first | with_reducible assumption | (intro) | with_reducible apply State.freeCheck_keeps | with_reducible apply State.modJtag_keeps | with_reducible apply Keeps.ite | with_reducible apply Keeps.ite_snd)

theorem State.scanDbg_keeps {s u : State} (h : Keeps s u) (space : DbgSpace) (lcSide : Bool) (a : Word) : Keeps s (State.scanDbg u space lcSide a) := by
  unfold State.scanDbg
  try dsimp only
  repeat' (first | with_reducible assumption | (intro) | with_reducible apply State.modJtag_keeps | with_reducible apply State.capture_keeps)

theorem State.captured_keeps {s u : State} (h : Keeps s u) (ok : Bool) (w : Word) : Keeps s (State.captured u ok w) := by
  unfold State.captured
  try dsimp only
  repeat' (first | with_reducible assumption | (intro) | with_reducible apply State.modJtag_keeps)

theorem State.dbgRead_keeps {s u : State} (h : Keeps s u) (space : DbgSpace) (lcSide : Bool) (a : ℕ) : Keeps s (State.dbgRead u space lcSide a) := by
  unfold State.dbgRead
  try dsimp only
  repeat' (first | with_reducible assumption | (intro) | with_reducible apply State.dbgPeek_keeps | with_reducible apply State.captured_keeps | with_reducible apply Keeps.ite | with_reducible apply Keeps.ite_snd | with_reducible apply Keeps.foldl | split)

theorem State.dbgWrite_keeps {s u : State} (h : Keeps s u) (space : DbgSpace) (lcSide : Bool) (a : Nat) (w : Word) :
    Keeps s (u.dbgWrite space lcSide a w) := by
  unfold State.dbgWrite
  split
  · rename_i t e; exact State.captured_keeps (State.dbgPoke_keeps h _ _ _ _ e) ..
  · exact State.captured_keeps h ..

theorem State.dbgResume_keeps {s u : State} (h : Keeps s u) (t : ℕ) : Keeps s (State.dbgResume u t) := by
  unfold State.dbgResume
  try dsimp only
  repeat' (first | with_reducible assumption | (intro) | with_reducible apply State.modTh_keeps | with_reducible apply State.modSow_keeps | with_reducible apply Keeps.ite)

theorem State.endService_keeps {s u : State} (h : Keeps s u) (t : ℕ) : Keeps s (State.endService u t) := by
  unfold State.endService
  try dsimp only
  repeat' (first | with_reducible assumption | (intro) | with_reducible apply State.dropHeld_keeps | with_reducible apply State.modTh_keeps)

theorem State.done_keeps {s u : State} (h : Keeps s u) (k : ℕ) (t : ℕ) : Keeps s (State.done u k t) := by
  unfold State.done
  try dsimp only
  repeat' (first | with_reducible assumption | (intro) | with_reducible apply State.endService_keeps | with_reducible apply State.freeCore_keeps | with_reducible apply State.trace_keeps)

theorem State.keepCore_keeps {s u : State} (h : Keeps s u) (k : ℕ) (t : ℕ) (p : Pair) : Keeps s (State.keepCore u k t p) := by
  unfold State.keepCore
  try dsimp only
  repeat' (first | with_reducible assumption | (intro) | with_reducible apply State.takePair_keeps | with_reducible apply State.modTh_keeps | with_reducible apply State.modQue_keeps | with_reducible apply State.trace_keeps | with_reducible apply State.enterBuffer_keeps | with_reducible apply Keeps.ite | with_reducible apply Keeps.ite_snd | with_reducible apply Keeps.foldl | split)

theorem State.next_keeps {s u : State} (h : Keeps s u) (k : ℕ) (t : ℕ) : Keeps s (State.next u k t) := by
  unfold State.next
  try dsimp only
  repeat' (first | with_reducible assumption | (intro) | with_reducible apply State.endService_keeps | with_reducible apply State.done_keeps | with_reducible apply State.choose_keeps | with_reducible apply State.keepCore_keeps | with_reducible apply Keeps.ite | with_reducible apply Keeps.ite_snd | with_reducible apply Keeps.foldl | split | simp only [Keeps.mk] | (refine Keeps.snd_of (by assumption) ?_))

theorem State.yield_keeps {s u : State} (h : Keeps s u) (k : ℕ) (t : ℕ) : Keeps s (State.yield u k t) := by
  unfold State.yield
  try dsimp only
  repeat' (first | with_reducible assumption | (intro) | with_reducible apply State.modSow_keeps | with_reducible apply State.modTh_keeps | with_reducible apply State.freeCore_keeps | with_reducible apply State.trace_keeps)

theorem State.flowSeize_keeps {s u : State} (h : Keeps s u) (k : ℕ) (t : ℕ) (f : ℕ) : Keeps s (State.flowSeize u k t f).2 := by
  unfold State.flowSeize
  try dsimp only
  repeat' (first | with_reducible assumption | (intro) | with_reducible apply State.trace_keeps | with_reducible apply State.modSow_keeps | with_reducible apply Keeps.ite | with_reducible apply Keeps.ite_snd | with_reducible apply Keeps.foldl | split)

end Sys2Proof.Machine
end

