-- ==== Sys2Proof/Tests/Slice0.lean ====
section
/-! SUPPORT. The model's own tests: ill-formed commands are refused, words of `spec/` decode to their instructions, and for
each obligation with hypotheses one theorem `witness_<name>` shows states and operands that meet them. -/

namespace Sys2Proof.Tests

open Sys2Proof Sys2Proof.Machine

-- one theorem after another: a hundred of these evaluations at once need more threads than the memory limit allows
set_option Elab.async false

/-! ### States -/

/-- The outcome is a next state of which `p` holds. -/
def nextIs (r : Res) (p : State → Bool) : Bool :=
  match r with
  | .next t => p t
  | _ => false

/-- Every latch function is up. -/
def latchUp : State := { State.reset with up := latchOrder, ses := vset State.reset.ses 0 { isOpen := true } }

/-- The state FIELD, every function up, the keepers' threads TID 0..5 on their cores. -/
def field : State :=
  let s := latchUp.releaseField
  { s with
    up := latchOrder ++ fieldOrder
    sys := { s.sys with kst := .field, fieldEn := true, fieldPg := true, pll := .locked, fastClk := true }
    sow := { s.sow with dispatch := true } }

/-- A plot's first thread runs on core 0. -/
def plotRuns : State :=
  let s := (field.modCore 0 fun c => { c with run := some 24 }).modTh 24 fun h => { h with st := .running }
  { s with plots := vmod s.plots 0 fun p => { p with st := .running, isize := 1, dsize := 2, ibase := 0, dbase := 0 } }

/-- Thread 0 with other registers or status. -/
def on0 (f : Thread → Thread) : State := field.modTh 0 f

/-- What the instruction of thread `t` on core `k` starts from. -/
def starts (s : State) (k : CoreId) (t : Nat) : State :=
  (s.written k.val t).touchCache k.val (((s.written k.val t).instrAt t ((s.written k.val t).th t).pc).getD default)

/-- An instruction can issue. -/
def canIssue (s : State) (k : CoreId) (t : Nat) : Bool :=
  s.issuer k.val = some t && !(s.landInters k.val t).2
    && ((s.written k.val t).instrAt t ((s.written k.val t).th t).pc).isSome

theorem issues_of {s : State} {k : CoreId} {t : Nat} (h : canIssue s k t = true) : Issues s k t (starts s k t) := by
  simp only [canIssue, Bool.and_eq_true, decide_eq_true_eq, Bool.not_eq_true'] at h
  obtain ⟨⟨h1, h2⟩, h3⟩ := h
  obtain ⟨x, hx⟩ := Option.isSome_iff_exists.mp h3
  exact ⟨h1, h2, x, hx, by simp [starts, hx]⟩

/-- The console's session, without a tag. -/
def con0 : Src := { ses := 0, tag := "-" }

/-- A line of the console runs: that of the state's console store, or, where none waits there, the one that command `c` stands for. -/
theorem line_runs {s : State} {c : Instr} (hc : s.sends con0 c = true) (hl : s.longFirst 0 = false) :
    LineRuns s con0 c (s.nextLine 0).2 ((s.nextLine 0).2.ringEcho 0 (s.nextLine 0).1) :=
  ⟨hc, hl, rfl, rfl⟩

/-- Where the console may run a line and none waits, every command's line runs. -/
theorem any_line {s : State} (hc : s.canRun 0 = true) (hf : s.con.lines = []) (hl : s.con.longLine = false) (c : Instr) :
    LineRuns s con0 c (s.nextLine 0).2 ((s.nextLine 0).2.ringEcho 0 (s.nextLine 0).1) :=
  line_runs (by simp [State.sends, State.says, State.firstLine, con0, hc, hf]) (by simp [State.longFirst, hl])

theorem test_issue : canIssue field 0 0 = true ∧ canIssue field 3 3 = true ∧ canIssue State.reset 6 120 = true
    ∧ canIssue plotRuns 0 24 = true := by decide +kernel


/-! ### Ill-formed commands, one for each check -/

theorem test_noRepeat : noRepeat [1, 1] = false ∧ (Instr.keys con0 [3, 3]).args = false ∧ (Instr.keys con0 []).args = false := by
  decide +kernel

theorem test_illFormed :
    (Instr.broadcastLine "").args = false ∧ (Instr.forwardAddressedLine 1 "\t").args = false
    ∧ (Instr.bayOn con0 []).args = false ∧ (Instr.bayOff con0 [1, 1]).args = false ∧ (Instr.bayInfo con0 []).args = false
    ∧ (Instr.envelopeSet con0 .main { whole := 1, frac := 12, digits := 1 }).args = false
    ∧ (Instr.profileForget con0 []).args = false ∧ (Instr.tag con0 [] .green .off).args = false
    ∧ (Instr.tagAuto con0 []).args = false ∧ (Instr.faceText con0 "\"").args = false
    ∧ (Instr.fanDuty con0 [] 0).args = false ∧ (Instr.fanAuto con0 [2, 2]).args = false
    ∧ (Instr.lineBaud con0 4294967296).args = false ∧ (Instr.prove con0 [0#16]).args = false
    ∧ (Instr.tenancyGroup con0 0 4294967296).args = false
    ∧ (Instr.tenancyShare con0 0 { whole := 1000000, frac := 0, digits := 0 }).args = false
    ∧ (Instr.tenancyAllot con0 0 { whole := 0, frac := 0, digits := 5 }).args = false
    ∧ (Instr.tenancyWeight con0 0 4294967296).args = false ∧ (Instr.assign con0 [] 0).args = false
    ∧ (Instr.assignNone con0 []).args = false ∧ (Instr.quotaPool con0 0 0 4294967296).args = false
    ∧ (Instr.plotLoad con0 0 4294967296).args = false ∧ (Instr.xVerb con0 "Y1" "").args = false
    ∧ (Instr.traceCoresOn con0 []).args = false ∧ (Instr.traceCoresOff con0 [1, 1]).args = false
    ∧ (Instr.traceDump con0 4294967296).args = false := by decide +kernel

theorem test_illFormedEvents :
    (Instr.hingeTransferRequest none [(1, ⟨0, none, 0⟩), (1, ⟨0, none, 0⟩)]).args = false
    ∧ (Instr.ringSolFrame false 1 2 0 "" 0).args = false ∧ (Instr.ringSobFrame false 1 2 0 "A" 0).args = false
    ∧ (Instr.ringSorFrame false 1 2 0 "" 0).args = false ∧ (Instr.adcSampleComplete [] []).args = false
    ∧ (Instr.guardSlot [] []).args = false ∧ (Instr.keypadBay []).args = false ∧ (Instr.keypadTenancy []).args = false
    ∧ (Instr.mulws 0 1 0 0).args = false ∧ (Instr.mulwu 0 1 0 0).args = false ∧ (Instr.dmulw 0 1 0 0).args = false
    ∧ (Instr.dcvb 0 1 0).args = false ∧ (Instr.dshl 0 1 0 9).args = false ∧ (Instr.dshr 0 1 0 9).args = false
    ∧ tagOk "#" = false := by decide +kernel

/-! ### Words of the encoding (R535 to R541), written field by field from the tables of R535 and R540 -/

/-- ALU 0x00: NOP is the word 0; ADD g3, g1, g2 has fn 0x01; SHLI g1, g2, 5 has fn 0x10 and its count in sh. -/
theorem test_word_alu : decodeWord 0#32 = some (.r .nop 0 0 0 0)
    ∧ decodeWord 0b000000_00011_00001_00010_00000_000001#32 = some (.r .add 3 1 2 0)
    ∧ decodeWord 0b000000_00001_00010_00000_00101_010000#32 = some (.r .shli 1 2 0 5)
    ∧ decodeWord 0b000000_00011_00001_00010_00001_000001#32 = none := by decide +kernel

/-- ADDI 0x01, LDW 0x08, STW 0x0D, IN 0x11, IWR 0x14, BEQ 0x18, BRK 0x21, POST 0x22. -/
theorem test_word_immediate : decodeWord 0b000001_00011_00001_1111111111111111#32 = some (.i .addi 3 1 0xFFFF#16)
    ∧ decodeWord 0b001000_00100_00010_0000000000001000#32 = some (.i .ldw 4 2 8#16)
    ∧ decodeWord 0b001101_00100_00010_0000000000001000#32 = some (.i .stw 4 2 8#16)
    ∧ decodeWord 0b010001_00001_00000_0000001000000000#32 = some (.i .portIn 1 0 0x200#16)
    ∧ decodeWord 0b010100_00001_00010_0000000000000100#32 = some (.i .iwr 1 2 4#16)
    ∧ decodeWord 0b011000_00001_00010_0000000000000100#32 = some (.i .beq 1 2 4#16)
    ∧ decodeWord 0b100001_00000_00000_0000000000000111#32 = some (.i .brk 0 0 7#16)
    ∧ decodeWord 0b100001_00001_00000_0000000000000111#32 = none
    ∧ decodeWord 0b100010_00001_00000_0000000000010100#32 = some (.i .post 1 0 20#16) := by decide +kernel

/-- JMP 0x1E; control 0x20 with RET 0x02; Sower 0x24 with DONE 0x01; multiply and divide 0x28 with MULWS 0x03, whose rd is even,
and DIVS 0x08; decimal 0x29 with DSHL 0x07, whose count is at most 8; float 0x2A with FMADD 0x05, whose rc is in sh; 0x25
is reserved. -/
theorem test_word_groups : decodeWord 0b011110_00000000000000000000000101#32 = some (.j .jmp 5#26)
    ∧ decodeWord 0b100000_00000_00000_00000_00000_000010#32 = some (.r .ret 0 0 0 0)
    ∧ decodeWord 0b100100_00000_00000_00000_00000_000001#32 = some (.r .done 0 0 0 0)
    ∧ decodeWord 0b101000_00010_00011_00100_00000_000011#32 = some (.r .mulws 2 3 4 0)
    ∧ decodeWord 0b101000_00001_00011_00100_00000_000011#32 = none
    ∧ decodeWord 0b101000_00001_00011_00100_00000_001000#32 = some (.r .divs 1 3 4 0)
    ∧ decodeWord 0b101001_00001_00011_00000_01000_000111#32 = some (.r .dshl 1 3 0 8)
    ∧ decodeWord 0b101001_00001_00011_00000_01001_000111#32 = none
    ∧ decodeWord 0b101010_00001_00010_00011_00100_000101#32 = some (.r .fmadd 1 2 3 4)
    ∧ decodeWord 0b100101_00000_00000_00000_00000_000000#32 = none := by decide +kernel

/-- The word of a command is that of its fields. -/
theorem test_word_command : (Instr.addi 0 3 1 0xFFFF#16).word = some 0b000001_00011_00001_1111111111111111#32
    ∧ (Instr.beq 0 1 2 4#16).word = some 0b011000_00001_00010_0000000000000100#32
    ∧ (Instr.fmadd 0 1 2 3 4).word = some 0b101010_00001_00010_00011_00100_000101#32 := by decide +kernel

/-! ### Effects worked out by hand from the rules -/

/-- The check value of R256 for the characters 123456789. -/
theorem test_crc : crc32c [0x31, 0x32, 0x33, 0x34, 0x35, 0x36, 0x37, 0x38, 0x39] = 0xE3069283 := by decide +kernel

/-- Registers g1 and g2 of thread 0. -/
def pair (a b : Word) : State := on0 fun h => { h with regs := vset (vset h.regs 1 a) 2 b }

/-- 0x00000005 minus 0x00000007 gives 0x99999998 with dc 1, written when the interlocked result is (the example under R592). -/
theorem test_dsub : nextIs (exec (.dsub 0 3 1 2) (pair 5#32 7#32)) (fun t =>
      ((t.th 0).inter.map fun x => (x.lo, x.dc)) = [(0x99999998#32, some true)] && (t.th 0).reg 3 = 0#32 && (t.th 0).pc = 4) = true
    ∧ nextIs (exec (.dsub 0 3 1 2) (pair 5#32 7#32)) (fun t => nextIs (exec (.interlockedResult 0) t) fun v =>
      (v.th 0).reg 3 = 0x99999998#32 && (v.th 0).ts.getLsbD 1) = true := by decide +kernel

/-- 1 - 2 borrows; 0xFFFFFFFF + 1 carries; a register that is source and destination. -/
theorem test_carry : nextIs (exec (.sub 0 1 1 2) (pair 1#32 2#32)) (fun t => (t.th 0).reg 1 = 0xFFFFFFFF#32 && (t.th 0).ts.getLsbD 0) = true
    ∧ nextIs (exec (.add 0 2 1 2) (pair 0xFFFFFFFF#32 1#32)) (fun t => (t.th 0).reg 2 = 0#32 && (t.th 0).ts.getLsbD 0) = true := by
  decide +kernel

/-- -7 / 2 is -3 with remainder -1. -/
theorem test_divs : nextIs (exec (.divs 0 3 1 2) (pair 0xFFFFFFF9#32 2#32)) (fun t => ((t.th 0).inter.map Inter.lo) = [0xFFFFFFFD#32]) = true
    ∧ nextIs (exec (.rems 0 3 1 2) (pair 0xFFFFFFF9#32 2#32)) (fun t => ((t.th 0).inter.map Inter.lo) = [0xFFFFFFFF#32]) = true := by
  decide +kernel

/-- 1.0 + 2.0 = 3.0 exactly; 1.0 / 3.0 rounds to 0x3EAAAAAB inexactly; the square root of 2.0 is 0x3FB504F3; 1.0 / 0 raises DZ. -/
theorem test_float : fAdd true 0 0x3F800000#32 0x40000000#32 = (0x40400000#32, 0#5)
    ∧ fDiv true 0 0x3F800000#32 0x40400000#32 = (0x3EAAAAAB#32, 1#5) ∧ fSqrt true 0 0x40000000#32 = (0x3FB504F3#32, 1#5)
    ∧ fDiv true 0 0x3F800000#32 0#32 = (0x7F800000#32, 8#5) := by decide +kernel

/-- BNE taken backwards from address 0 wraps modulo 2^24. -/
theorem test_branch : nextIs (exec (.bne 0 1 2 0xFFFF#16) (pair 1#32 2#32)) (fun t => (t.th 0).pc = 0xFFFFFC) = true := by decide +kernel

/-- A byte stored at an odd address of data SRAM reads back, its neighbour stays 0. -/
theorem test_store : nextIs (exec (.stb 0 1 2 3#16) (pair 0x1AB#32 0#32)) (fun t => t.readData (.sram 3) 1 = 0xAB && t.readData (.sram 2) 1 = 0) = true := by
  decide +kernel

/-- A trap by BRK 7 of thread 0 parks it with code 15 and posts its item of flow 0xFE0F to Q54 (R528). -/
theorem test_brk : nextIs (exec (.brk 0 7#16) field) (fun t => (t.th 0).st = .faulted && (t.th 0).trap = 15 && (t.core 0).run = none
    && t.sow.store.any fun it => it.q = 54 && it.typ = 0xFE0F && it.word 3 = 7#32) = true := by decide +kernel

/-! ### Witnesses of the machine as a whole -/

theorem witness_StepRunsFront : ({ State.reset with pending := [.readyLine] } : State).pending = .readyLine :: []
    ∧ State.reset.pending = [] := by decide +kernel

theorem witness_QueueUntouched : nextIs (exec .readyLine State.reset) (fun _ => true) = true := by decide +kernel

theorem witness_StepKeepsMemories : nextIs (step { State.reset with pending := [.readyLine] }) (fun t => t.pending.isEmpty) = true
    ∧ State.reset.memOk := ⟨by decide +kernel, by unfold State.memOk; decide +kernel⟩

theorem witness_DecodeOfWord : (Asm.r .fmadd 31 31 31 31).wf = true ∧ (Asm.i .stw 31 31 0xFFFF#16).wf = true := by decide +kernel

theorem witness_WordOfDecode : decodeWord 0#32 = some (.r .nop 0 0 0 0)
    ∧ (decodeWord 0b101010_11111_11111_11111_11111_000101#32).isSome = true := by decide +kernel

/-! ### Witnesses of Oluique -/

theorem witness_CarryArithmetic : ∃ u, Issues field 0 0 u := ⟨_, issues_of test_issue.1⟩
theorem witness_RegisterForms : ∃ u, Issues field 3 3 u := ⟨_, issues_of test_issue.2.1⟩
theorem witness_Multiplies : (∃ u, Issues State.reset 6 120 u) ∧ (30 : Reg).val % 2 = 0 := ⟨⟨_, issues_of test_issue.2.2.1⟩, rfl⟩
theorem witness_Branches : ∃ u, Issues plotRuns 0 24 u := ⟨_, issues_of test_issue.2.2.2⟩
theorem witness_StatusForms : ∃ u, Issues State.reset 6 120 u := ⟨_, issues_of test_issue.2.2.1⟩

/-- An instruction of thread 0 issues whatever its registers and status are. -/
theorem test_issue0 : canIssue (on0 fun h => { h with rsd := 12 }) 0 0 = true
    ∧ canIssue (on0 fun h => { h with ts := 0x80000#20 }) 0 0 = true ∧ canIssue (on0 fun h => { h with ts := 0x10000#20 }) 0 0 = true
    ∧ canIssue (on0 fun h => { h with ts := 0x40000#20, regs := Vector.replicate 32 0xA#32 }) 0 0 = true
    ∧ canIssue (on0 fun h => { h with regs := Vector.replicate 32 0xA#32 }) 0 0 = true := by decide +kernel

/-- Addresses 0, 2, 0x7FFF and the last byte of data SRAM; a word of the kernel. -/
theorem witness_Loads : (starts field 0 0).dataAt 0 0 = some (.sram 0) ∧ (starts field 0 0).dataAt 0 2 = some (.sram 2)
    ∧ (starts field 0 0).dataAt 0 0x7FFF = some (.sram 0x7FFF) ∧ ((starts field 0 0).instrAt 0 0).isSome = true
    ∧ (starts field 0 0).dataAt 0 0x3FFFF = some (.sram 0x3FFFF) := by decide +kernel

/-- A store at 4 by a field core; IWR by a kernel to the first word of plot RAM, and by LC to that of latch instruction RAM. -/
theorem witness_Stores : field.memOk ∧ (starts field 0 0).dataAt 0 4 = some (.sram 4) ∧ isPlot 0 = false ∧ isPlot 120 = false
    ∧ (starts field 0 0).instrAt 0 0x40000 = some (.plotRam 0) ∧ ((starts field 0 0).writeInstr (.plotRam 0) 7#32).isSome = true
    ∧ (starts State.reset 6 120).instrAt 120 0x10000 = some (.latchRam 0)
    ∧ ((starts State.reset 6 120).writeInstr (.latchRam 0) 7#32).isSome = true :=
  ⟨by unfold State.memOk; decide +kernel, by decide +kernel⟩

/-- Odd and half-aligned addresses; an address of no region; a plot thread; LC. -/
theorem witness_AccessTraps : (((starts field 0 0).th 0).reg 0 + (1#16).signExtend 32).toNat % 2 ≠ 0
    ∧ (((starts field 0 0).th 0).reg 0 + (2#16).signExtend 32).toNat % 4 ≠ 0
    ∧ (starts field 0 0).dataAt 0 (((starts field 0 0).th 0).reg 0 + (0x8000#16).signExtend 32).toNat = none
    ∧ isPlot 24 = true ∧ (∃ u, Issues plotRuns 0 24 u) ∧ ∃ u, Issues State.reset 6 120 u := by
  refine ⟨by decide +kernel, by decide +kernel, by decide +kernel, by decide +kernel, ⟨_, issues_of test_issue.2.2.2⟩,
    ⟨_, issues_of test_issue.2.2.1⟩⟩

/-- Depth 12 and depth 0 with rsw 0, depth 0 with rsw 1. -/
theorem witness_JumpsAndCalls : (∃ u, Issues (on0 fun h => { h with rsd := 12 }) 0 0 u ∧ (u.th 0).rsd = 12 ∧ (u.th 0).ts.getLsbD 19 = false)
    ∧ (∃ u, Issues field 0 0 u ∧ (u.th 0).rsd = 0 ∧ (u.th 0).ts.getLsbD 19 = false)
    ∧ ∃ u, Issues (on0 fun h => { h with ts := 0x80000#20 }) 0 0 u ∧ (u.th 0).ts.getLsbD 19 = true :=
  ⟨⟨_, issues_of test_issue0.1, by decide +kernel, by decide +kernel⟩, ⟨_, issues_of test_issue.1, by decide +kernel, by decide +kernel⟩,
    ⟨_, issues_of test_issue0.2.1, by decide +kernel⟩⟩

theorem witness_TrapParks : field.sow.spill.length < 16 ∧ State.reset.sow.spill.length < 16 := by decide +kernel

/-- A divisor of 0 with dze 0 and with dze 1, and one that is not 0. -/
theorem witness_Divides : (∃ u, Issues field 0 0 u ∧ (u.th 0).reg 1 = 0#32 ∧ (u.th 0).ts.getLsbD 16 = false)
    ∧ (∃ u, Issues (on0 fun h => { h with ts := 0x10000#20 }) 0 0 u ∧ (u.th 0).reg 1 = 0#32 ∧ (u.th 0).ts.getLsbD 16 = true)
    ∧ ∃ u, Issues (on0 fun h => { h with regs := Vector.replicate 32 0xA#32 }) 0 0 u ∧ (u.th 0).reg 1 ≠ 0#32 :=
  ⟨⟨_, issues_of test_issue.1, by decide +kernel, by decide +kernel⟩, ⟨_, issues_of test_issue0.2.2.1, by decide +kernel, by decide +kernel⟩,
    ⟨_, issues_of test_issue0.2.2.2.2, by decide +kernel⟩⟩

/-- Operands 0; an operand with an invalid nibble under dinve 1 and 0; a shift by 8; the greatest value of eight digits. -/
theorem witness_Decimals : (∃ u, Issues field 0 0 u ∧ bcdBad 8 ((u.th 0).reg 1).toNat = false)
    ∧ (∃ u, Issues (on0 fun h => { h with ts := 0x40000#20, regs := Vector.replicate 32 0xA#32 }) 0 0 u
      ∧ bcdBad 8 ((u.th 0).reg 1).toNat = true ∧ (u.th 0).ts.getLsbD 18 = true)
    ∧ (∃ u, Issues (on0 fun h => { h with regs := Vector.replicate 32 0xA#32 }) 0 0 u ∧ bcdBad 8 ((u.th 0).reg 1).toNat = true
      ∧ (u.th 0).ts.getLsbD 18 = false)
    ∧ (8 : Fin 32).val ≤ 8 ∧ 99999999 < 100000000 :=
  ⟨⟨_, issues_of test_issue.1, by decide +kernel⟩, ⟨_, issues_of test_issue0.2.2.2.1, by decide +kernel, by decide +kernel⟩,
    ⟨_, issues_of test_issue0.2.2.2.2, by decide +kernel, by decide +kernel⟩, by decide, by decide⟩

theorem witness_Floats : (∃ u, Issues field 0 0 u ∧ 0 < 120) ∧ ∃ u, Issues State.reset 6 120 u ∧ 120 ≤ 120 :=
  ⟨⟨_, issues_of test_issue.1, by decide⟩, ⟨_, issues_of test_issue.2.2.1, by decide⟩⟩

/-- A signalling and a quiet NaN, both infinities, zeros of both signs and a negative number; 1.5, 2^128, 2^-127 and 2^-150 as the
magnitudes to round; a part cut off below, at and above the half; values beyond the range of a signed word. -/
theorem witness_FloatResults : (fRead true 0x7F800001#32).isNan = true ∧ (fRead true 0x7F800001#32).isSig = true
    ∧ (fRead false 0xFFC00000#32).isNan = true ∧ (fRead false 0xFFC00000#32).isSig = false
    ∧ fRead true 0x7F800000#32 = .inf false ∧ fRead true 0xFF800000#32 = .inf true ∧ fRead true 0#32 = .fin false 0 (-149)
    ∧ fRead true 0x80000000#32 = .fin true 0 (-149) ∧ fRead true 0xBF800000#32 = .fin true 0x800000 (-23)
    ∧ (0x007FFFFF#32).toNat / 2 ^ 23 % 256 = 0 ∧ (3 : Nat) < 2 ^ 24 ∧ (-126 : Int) ≤ -1 + bitLen 3 - 1 ∧ (-1 : Int) + bitLen 3 - 1 ≤ 127
    ∧ (127 : Int) < 128 + bitLen 1 - 1 ∧ (-127 : Int) + bitLen 1 - 1 < -126 ∧ (-149 : Int) ≤ -127 ∧ (-150 : Int) + bitLen 1 - 1 < -126
    ∧ 2 * (5 % 2 ^ 2) < 2 ^ 2 ∧ 2 ^ 2 < 2 * (7 % 2 ^ 2) ∧ 2 * (6 % 2 ^ 2) = 2 ^ 2 ∧ 6 % 2 ^ 2 ≠ 0 ∧ 4 % 2 ^ 2 = 0
    ∧ fRead true 0x4F000000#32 = .fin false 0x800000 8 ∧ 2 ^ 31 ≤ 0x800000 * 2 ^ (8 : Int).toNat
    ∧ fRead true 0xCF000001#32 = .fin true 0x800001 8 ∧ 2 ^ 31 < 0x800001 * 2 ^ (8 : Int).toNat
    ∧ (0xFF000000#32) ≠ 0#32 ∧ (0xFF000000#32).toInt.natAbs ≤ 2 ^ 24 := by decide +kernel

/-- A result that raises NX, with fen 0 and with fen all ones. -/
def raised (ts : BitVec 20) : State := on0 fun h => { h with ts := ts, inter := [⟨.float, 1, 0#32, none, none, false, 1#5, 0⟩] }

theorem witness_ResultsWritten : (raised 0#20).runner 0 = some 0 ∧ (1#5 &&& ((raised 0#20).th 0).fen) = 0#5
    ∧ (1#5 &&& ((raised 0xFFFFF#20).th 0).fen) ≠ 0#5
    ∧ ((on0 fun h => { h with delayed := [⟨1, 5#32, 0⟩] }).th 0).delayed = [⟨1, 5#32, 0⟩]
    ∧ (on0 fun h => { h with delayed := [⟨1, 5#32, 0⟩] }).runner 0 = some 0 := by decide +kernel

/-! ### Witnesses of ports, posts and the Sower -/

/-- A port that a field core reaches for a read and a write; one that refuses it, and a plot's thread that both refuse. -/
theorem witness_PortInstructions : (starts field 0 0).refuses 0 0 0x200 false = false ∧ (starts field 0 0).refuses 0 0 0x200 true = false
    ∧ fieldPort 0x200 = true ∧ ((starts field 0 0).core 0).wbuf.length < 4 ∧ fieldPort 0x10 = false
    ∧ (starts plotRuns 0 24).refuses 0 24 0x10 false = true ∧ (starts plotRuns 0 24).refuses 0 24 0x10 true = true
    ∧ (starts State.reset 6 120).refuses 6 120 0x10 true = false := by decide +kernel

/-- An access served at once, and one that meets core 3's transfer at the hinge. -/
def met : State := { field with hng := { field.hng with waiting := [⟨3, 3, .read 0x10 0, false, false⟩] } }

theorem witness_PortInstructions_clear : Clear ((starts field 0 0).drainAll 0) 0 0x10 ∧ canIssue met 0 0 = true
    ∧ ¬ Clear ((starts met 0 0).drainAll 0) 0 0x10 ∧ (starts met 0 0).refuses 0 0 0x10 true = false
    ∧ (((starts field 0 0).drainAll 0).inPort 0 0 0x200).2.core 0 = (((starts field 0 0).drainAll 0)).core 0
    ∧ ((((starts field 0 0).drainAll 0).inPort 0 0 0x200).2.th 0).st = .running := by
  unfold Clear; decide +kernel

/-- Thread 0 has an open item for Q1 of one word. -/
def posting (n : Nat) : State := on0 fun h =>
  { h with openItem := some { q := 1, words := List.replicate n 5#32, flushed := none, dropped := false } }

/-- Q1 holds its 16 items. -/
def full : State := field.modSow fun w => { w with store := (List.range 16).map fun n => { words := [0#32], q := 1, age := n } }

theorem witness_Posting : canIssue field 0 0 = true ∧ canIssue (posting 2) 0 0 = true ∧ canIssue (posting 3) 0 0 = true ∧ canIssue full 0 0 = true
    ∧ ((starts field 0 0).th 0).openItem = none ∧ (starts field 0 0).hasRoom 1 = true ∧ (starts field 0 0).waiter 1 = none
    ∧ (((starts (posting 2) 0 0).th 0).openItem.map fun o => o.words.length) = some 2
    ∧ (((starts (posting 3) 0 0).th 0).openItem.map fun o => o.words.length) = some 3
    ∧ (starts full 0 0).hasRoom 1 = false ∧ ((starts full 0 0).th 0).openItem = none ∧ ((starts full 0 0).th 0).st ≠ .idle
    ∧ postAllowed 0 1 = true ∧ crosses 0 1 = false ∧ postAllowed 24 1 = false ∧ crosses 0 57 = true ∧ (starts field 0 0).hng.waiting = []
    ∧ (starts field 0 0).hng.asking = [] ∧ (starts field 0 0).sys.fieldUp = true ∧ (starts State.reset 6 120).sys.fieldUp = false
    ∧ postAllowed 120 1 = true := by decide +kernel

/-- An item of flow 5 in Q20, to which thread 0 listens; thread 0 runs, or is idle. -/
def queued (st : TState) : State :=
  let s := (field.modSow fun w => { w with store := [{ words := [0x00500000#32, 1#32], q := 20, age := 0 }], nextAge := 1 }).modTh 0
    fun h => { h with st := st, listen := 0x100000#64 }
  if st = .running then s else s.modCore 0 fun c => { c with run := none }

theorem witness_ServiceOfItems : canIssue field 0 0 = true ∧ ((starts field 0 0).endService 0).servable 0 = true
    ∧ (((starts field 0 0).endService 0).choose 0).1 = none
    ∧ canIssue (queued .running) 0 0 = true ∧ ((starts (queued .running) 0 0).core 0).standby = none
    ∧ (starts (queued .running) 0 0).servable 0 = true
    ∧ ((((starts (queued .running) 0 0).endService 0).choose 0).1.map fun p => (p.tid, p.held, p.item.isSome)) = some (0, false, true) := by
  decide +kernel

theorem witness_ChoiceIsUrgent : (((queued .idle).choose 0).1.map fun p => p.tid) = some 0 := by decide +kernel

theorem witness_FlowsInOrder : ((queued .idle).newPairs 0).map (fun p => (p.tid, p.item.map Item.flow)) = [(0, some 5)] := by decide +kernel

/-- Thread 0 idle while another runs on core 0, which prefetches; an urgent pair where every core runs one that is not. -/
def behind : State := (queued .idle).modCore 0 fun c => { c with run := some 6 }
def urgent : State := behind.modQue 20 fun x => { x with urg := 3 }

theorem witness_Dispatching : (queued .idle).servable 0 = true ∧ ((queued .idle).core 0).standby = none ∧ ((queued .idle).core 0).run = none
    ∧ (((queued .idle).choose 0).1.map fun p => decide (p.tid < 128)) = some true
    ∧ behind.servable 0 = true ∧ (behind.core 0).standby = none ∧ (behind.core 0).run = some 6 ∧ behind.prefetchCore 0 = true
    ∧ ((behind.choose 0).1.map fun p => (decide (p.tid < 128), p.held, p.item.isSome)) = some (true, false, true)
    ∧ (urgent.pairs 0).isEmpty = false ∧ ((List.range 6).filter urgent.servable).headD 9 = 0
    ∧ ((List.range 6).filter urgent.servable).any (fun k => (urgent.core k).run.isNone) = false
    ∧ (urgent.pairs 0).foldl (fun m p => max m p.urg) 0 = 3 ∧ (bestSlot urgent.preemptCores).isSome = true
    ∧ (List.range 6).all (fun k => (field.pairs k).isEmpty) = true ∧ ((queued .idle).th 0).wait = none := by decide +kernel

/-- Thread 6 stands by on core 0: freshly prefetched with an item of urgency 0, or with the item that it was preempted from. -/
def standing (again : Bool) : State :=
  (behind.modCore 0 fun c => { c with standby := some 7 }).modTh 7 fun h =>
    { h with st := .standby, item := some { words := [0#32], q := 1, age := 5 }, resumed := again }

/-- A pair of urgency 1, of core 0 alone: its slot is empty; thread 7's item of urgency 0 holds it; or one of urgency 1 does. -/
def below (s : State) : State := (s.modQue 20 fun x => { x with urg := 1 })

theorem witness_Dispatching_slots : ((standing false).core 0).standby = some 7 ∧ (standing false).servable 0 = true
    ∧ (((standing false).modCore 0 fun c => { c with run := none }).core 0).run = none ∧ ((standing true).th 7).resumed = true
    ∧ ((standing false).th 7).resumed = false ∧ ((standing false).th 7).item.isSome = true
    ∧ (List.range 6).filter (below behind).servable = 0 :: [1, 2, 3, 4, 5] ∧ ((below behind).pairs 0).isEmpty = false
    ∧ [0, 1, 2, 3, 4, 5].any (fun k => ((below behind).core k).run.isNone) = false
    ∧ ((below behind).pairs 0).foldl (fun m p => max m p.urg) 0 = 1 ∧ [0, 1, 2, 3, 4, 5].find? (below behind).slotOpen = some 0
    ∧ [0].find? (below (standing false)).slotOpen = none ∧ bestSlot ((below (standing false)).lowerSlots [0] 1) = some 0
    ∧ bestSlot ((standing false).lowerSlots [0] 0) = none := by decide +kernel

/-- Core 3 stalls in an instruction at a transfer that waits. -/
def midway : State := { field with hng := { field.hng with waiting := [⟨3, 3, .read 0x10 1, true, false⟩] } }

theorem witness_StopAndStart : field.reachT 0 = true ∧ (field.th 0).st ≠ .stopped ∧ (field.th 6).st = .stopped
    ∧ ((raised 0#20).th 0).inter ≠ [] ∧ (raised 0#20).midAccess 0 = false ∧ (raised 0#20).reachT 0 = true
    ∧ State.reset.reachT 121 = true ∧ field.midAccess 0 = false ∧ midway.midAccess 3 = true ∧ (midway.th 3).st ≠ .stopped := by decide +kernel

/-- Thread 0 waits for Q1, which has room; a fault item waits in the spill for Q54. -/
def waits : State := field.modSow fun w => { w with claims := [(1, .thread 0), (54, .spilled)], spill := [(54, [1#32])] }

theorem witness_PlacesAndSpill : waits.hasRoom 1 = true ∧ waits.waiter 1 = some (.thread 0) ∧ waits.hasRoom 54 = true
    ∧ waits.waiter 54 = some .spilled ∧ takeSpill 54 waits.sow.spill = (some [1#32], []) := by decide +kernel

/-- Limits 1 and 256, 0 and 257. -/
theorem witness_SowerPorts : Reaches field (.fc 0) (0x240 + 1) true ∧ fieldAt (256#32).toNat 0 9 = 256 ∧ fieldAt (257#32).toNat 0 9 = 257
    ∧ field.limitSum true 1 256 ≤ 3584 ∧ Reaches field (.fc 0) 0x208 true ∧ Reaches field (.fc 5) 0x200 true ∧ field.sow.dispatch = true
    ∧ (0x3F#6).getLsbD 3 = true ∧ field.sow.preempt.getLsbD 3 = false := by unfold Reaches Clear; decide +kernel

theorem witness_SowerWindows : Reaches field (.fc 0) 0x202 true ∧ Reaches field .lc 0x210 true ∧ (field.core 0).stSel < 128
    ∧ Reaches field (.fc 0) 0x210 true ∧ Reaches field (.fc 0) 0x219 false ∧ Reaches field (.fc 0) 0x220 true
    ∧ Reaches field (.fc 0) 0x223 false := by unfold Reaches Clear; decide +kernel

/-- Core 0's window selects register 31 of thread 6, which is STOPPED. -/
def windowed : State := field.modCore 0 fun c => { c with cxTid := 6, cxWord := 31 }

theorem witness_SowerWindows_write : Reaches field .lc 0x3F2 false ∧ Reaches field .lc 0x3F4 true ∧ Reaches windowed (.fc 0) 0x219 true
    ∧ ((windowed.drained (.fc 0)).core 0).cxWord = 31
    ∧ ((windowed.drained (.fc 0)).core 0).cxTid = 6 ∧ ((windowed.drained (.fc 0)).th 6).st ≠ .running
    ∧ ((windowed.drained (.fc 0)).th 6).st ≠ .standby := by unfold Reaches Clear; decide +kernel

/-! ### Witnesses of the Granary and the other ports -/

/-- Pools of four sizes. -/
def sized : State := { field with gran := { field.gran with sized := true } }

/-- Requester 31 finds a free buffer of pool 3 within its quota, requester 16 one of pool 0; in single mode class 2 has no pool, and a
quota of 0 leaves none. -/
theorem witness_TakeAndGive : sized.gran.sized = true ∧ sized.gran.inuseOf 31 3 < sized.gran.quotaOf 31 3
    ∧ sized.gran.owed 31 3 < sized.gran.free 3 ∧ sized.gran.inuseOf 16 0 < sized.gran.quotaOf 16 0
    ∧ sized.gran.owed 16 0 < sized.gran.free 0 ∧ field.gran.sized = false ∧ field.gran.inuseOf 16 0 < field.gran.quotaOf 16 0
    ∧ field.gran.owed 16 0 < field.gran.free 0 ∧ ¬ ((2 : Nat) < 2 ∧ 0 = 0) := by decide +kernel

/-- Core 0's state once its port writes have taken effect, with buffers in use and all free. -/
def busyGran : State := { sized with gran := (sized.gran.take 16 0).2 }

theorem witness_GranaryPorts : (sized.drained (.fc 0)).gran.sized = true ∧ (field.drained (.fc 0)).gran.sized = false
    ∧ Reaches sized (.fc 0) (0x480 + 4 * 31 + 3) false ∧ Reaches sized (.fc 0) (0x440 + 31) true ∧ Reaches sized (.fc 0) 0x400 true
    ∧ (sized.drained (.fc 0)).gran.allFree = true ∧ Reaches busyGran (.fc 0) 0x400 true
    ∧ (busyGran.drained (.fc 0)).gran.allFree = false ∧ Reaches sized .lc (0x480 + 4 * 31 + 3) false ∧ Reaches sized .lc 0x400 true := by
  unfold Reaches Clear; decide +kernel

/-- Minimums of 64 buffers of pool 3, which fit, and of 4,097, which do not. -/
theorem witness_GranaryPorts_settings : Reaches sized (.fc 0) 0x410 true ∧ (sized.drained (.fc 0)).mayAccess 0 0x411 true = true
    ∧ (sized.drained (.fc 0)).mayAccess 0 0x412 true = true
    ∧ (List.range 32).foldl (fun n j => n + (if j = 31 then (16#13).toNat else (sized.drained (.fc 0)).gran.minOf j 3)) 0 ≤ poolBuffers 3
    ∧ poolBuffers 3 < (List.range 32).foldl (fun n j => n + (if j = 31 then (4097#13).toNat else (sized.drained (.fc 0)).gran.minOf j 3)) 0 := by
  unfold Reaches Clear; decide +kernel

/-- A transfer of 4 bytes, and of 4,096 bytes; one under way; a waiting port write. -/
def spiOf (f : Spi → Spi) : State := { field with spi := f field.spi }

theorem witness_OtherPorts : Reaches field .lc 0x240 true ∧ Reaches field .lc 5 true
    ∧ Reaches (spiOf fun x => { x with len := 4 }) (.fc 0) 0xB01 true ∧ (spiOf fun x => { x with len := 4 }).spi.job = none
    ∧ (spiOf fun x => { x with len := 4 }).spi.cmd < 4 ∧ (spiOf fun x => { x with len := 4 }).spi.dest < 0x40000
    ∧ Reaches (spiOf fun x => { x with len := 4096, dest := 0x3FFFC }) (.fc 0) 0xB01 true
    ∧ field.sys.inReset = false ∧ field.sys.fieldUp = true ∧ (spiOf fun x => { x with job := some (0, 0, 4) }).spi.job.isSome = true
    ∧ ((field.modCore 5 fun c => { c with wbuf := [(0x200#16, 1#32)] }).core 5).wbuf = [(0x200#16, 1#32)] := by
  unfold Reaches Clear; decide +kernel

/-! ### Witnesses of cold starts, the latch sequence, WAKE and REST -/

/-- Bay 0 as given, its PRESENT and LATCHED keys closed, its row not clamped. -/
def bay0 (f : Bay → Bay) : State :=
  { field with bays := { field.bays with bay := vmod field.bays.bay 0 f }
               keys := { field.keys with pubDeb := Vector.replicate 16 0xFFFFFFFF#32 }
               sys := { field.sys with clamps := 0#12 } }

/-- A handle of the console, numbered 1, accepted and not yet running. -/
def handle (f : Form) : Handle := { newHandle 0 1 0 .console "-" 0 "VERB" f with accepted := true, order := 1 }

def withHandle (s : State) (h : Handle) : State := { s with hnd := { s.hnd with opens := [h] } }

/-- The first `n` latch functions are up. -/
def upTo (n : Nat) : State := { State.reset with up := latchOrder.take n, ses := latchUp.ses }

/-- The field is released, and the functions of `fieldOrder` before place `n` are up. -/
def fieldTo (n : Nat) : State := { field with up := latchOrder ++ fieldOrder.take n }

/-- The state WAKING, its power and its PLL as given. -/
def waking (en pg : Bool) (p : Pll) : State :=
  { latchUp with sys := { latchUp.sys with kst := .waking, fieldEn := en, fieldPg := pg, pll := p } }

theorem witness_ColdStarts : ({ State.reset with sys := { State.reset.sys with inReset := true } } : State).jtag.dbgReset = false
    ∧ State.reset.sys.inReset = false ∧ State.reset.jrn.writing = none ∧ State.reset.fur.op ≠ some .write
    ∧ State.reset.fur.pendingLines = []
    ∧ ({ State.reset with sys := { State.reset.sys with inReset := true }, jtag := { State.reset.jtag with dbgReset := true } } : State).jtag.dbgReset
      = true := by decide +kernel

/-- It is the turn of `f` once those of `before` have announced. -/
abbrev Turn (s : State) (before : List Fn) (f : Fn) : Prop :=
  s.isUp f = false ∧ f ∉ s.down ∧ ∀ g ∈ before, s.isUp g = true ∨ g ∈ s.down

theorem witness_LatchSequence : State.reset.sys.inReset = false ∧ (∀ n : Fin 8, Turn (upTo n.val) (latchOrder.take n.val) (latchOrder.getD n.val .line))
    ∧ latchOrder = [.line, .face, .seedbank, .furrow, .calendar, .ring, .replay, .keys] ∧ ¬ Turn (upTo 0) [.line] .face
    ∧ (upTo 5).sys.head = false ∧ (upTo 5).ring.st = .pending
    ∧ ({ upTo 5 with sys := { State.reset.sys with head := true }, ring := { State.reset.ring with st := .ok } } : State).ring.st = .ok
    ∧ ({ upTo 5 with ring := { State.reset.ring with number := some 3 } } : State).ring.number.isSome = true
    ∧ (upTo 7).keys.armed = false ∧ ({ upTo 7 with keys := { State.reset.keys with armed := true } } : State).keys.armed = true := by decide +kernel

theorem witness_WakeSteps : latchUp.sys.fieldEn = false
    ∧ ({ latchUp with sys := { latchUp.sys with wakePend := [.panel, .plot 3] } } : State).sys.wakePend = .panel :: [.plot 3]
    ∧ latchUp.sys.kst = .latch ∧ latchUp.sys.enHold = false ∧ latchUp.jtag.ins ≠ .extest ∧ latchUp.sys.inReset = false ∧ (waking true false .off).sys.kst = .waking
    ∧ (waking true false .off).sys.pll = .off ∧ (waking true true .locking).sys.pll = .locking
    ∧ (waking true true .locked).sys.fieldUp = false ∧ (waking true true .locked).sys.pll = .locked
    ∧ (waking true true .locking).sys.pll ≠ .locked ∧ (waking true false .off).sys.fieldEn = true := by decide +kernel

/-- Both rails of every bay passed their proofs; plot 1 waits for its image. -/
def proved : State :=
  { fieldTo 3 with bays := { field.bays with bay := Vector.replicate 96 { main := { pass := true }, aux := { pass := true }, proofDone := true } } }
def loading : State := { field with plots := vmod field.plots 1 fun p => { p with addr := some 0, st := .loading } }

/-- A replayed handle whose copy is not durable waits for FIELD alone. -/
def copying : State := withHandle { fieldTo 0 with sys := { field.sys with kst := .waking } } { handle (.tagAuto 1#96) with copying := true }

theorem witness_FieldSequence : field.sys.fieldUp = true ∧ Turn (fieldTo 0) [] .field
    ∧ ({ fieldTo 0 with sys := { field.sys with kst := .waking } } : State).sys.kst = .waking
    ∧ (({ fieldTo 0 with sys := { field.sys with kst := .waking } } : State).replayField.copyDue .field) = false
    ∧ copying.sys.kst = .waking ∧ copying.replayField.copyDue .field = true
    ∧ (∀ n : Fin 18, Turn (fieldTo n.val) (fieldOrder.take n.val) (fieldOrder.getD n.val .field)
      ∧ (fieldTo n.val).copyDue (fieldOrder.getD n.val .field) = false)
    ∧ fieldOrder = [.field, .sower, .granary] ++ (List.range 12).map Fn.baysRow ++ [.envelope, .ledger, .tenancy]
    ∧ (fieldTo 2).gran.allFree = true ∧ proved.rowProved 0 = true ∧ Turn proved [.field, .sower, .granary] (.baysRow 0)
    ∧ loading.plotTurn 1 = true ∧ loading.copyDue (.plot 1) = false ∧ (loading.findImage 1 0).1 ≠ 0 := by decide +kernel

/-- An image of one instruction, FF FF FF FF, without data or verbs, at address 0 of the SPI NOR (R519, R520). -/
def imageBytes : List Byte := [0x57#8, 0x5A#8, 0x50#8, 0x4C#8, 1#8, 0#8, 0#8, 0#8, 4#8] ++ List.replicate 239 0#8
def imaged : State :=
  let c := BitVec.ofNat 32 (crc32c (imageBytes ++ List.replicate 4 0xFF#8))
  { loading with mems := { loading.mems with flash := (List.range 256).map fun n => (n, (imageBytes ++ bytesOf [c]).getD n 0#8) } }

set_option maxRecDepth 20000 in
theorem witness_FieldSequence_image : (imaged.findImage 1 0).1 = 0 := by decide +kernel

/-- A REST that starts, its item in Q4; one that waits for its plots, that closes its interval, and whose COMMITTED is durable. -/
def rests : State :=
  (withHandle field (handle .rest)).modSow fun w => { w with store := [{ words := [header 1 0x71 0 0, 1#32], q := 4, age := 0 }] }
def restsOn : State := { field with sys := { field.sys with kst := .resting, restStep := 3 } }
def restAt (n : Nat) (p : Phase) : State :=
  withHandle { field with sys := { field.sys with kst := .resting, restStep := n } } { handle .rest with running := true, phase := p }

theorem witness_FieldFalls : field.sys.fieldEn = true ∧ field.sys.pll = .locked ∧ (rests.restReady.map fun h => h.form) = some .rest
    ∧ rests.sys.inReset = false ∧ rests.sys.fieldUp = true ∧ restsOn.sys.kst = .resting ∧ restsOn.sys.restStep = 3
    ∧ (∀ n : Fin 96, (restsOn.bayAt n.val).st ≠ .stopping) ∧ restsOn.loadedPlots.all restsOn.plotIdle = true
    ∧ ({ restsOn with fur := { field.fur with pendingLines := [(2944, [], 0)] } } : State).headerDue = true
    ∧ (restAt 4 .accepted).headerDue = false ∧ (restAt 4 .accepted).restHandle.isSome = true ∧ (restAt 4 .accepted).sys.restStep = 4
    ∧ ((restAt 5 .committed).restHandle.map fun h => h.phase) = some .committed ∧ (restAt 5 .committed).sys.kst = .resting
    ∧ plotRuns.plotIdle 0 = false ∧ field.plotIdle 0 = true
    ∧ ({ field with sys := { field.sys with kst := .resting, restStep := 2 } } : State).sys.restStep = 2
    ∧ (({ bay0 fun b => { b with st := .stopping } with sys := { field.sys with kst := .resting, restStep := 2 } } : State).bayAt 0).st
      = .stopping := by decide +kernel

/-! ### Witnesses of the hinge and recovery -/

/-- The L2F mailbox in the given state, with the given owner. -/
def boxAt (st : BoxState) (o : Nat) : State := { field with hng := { field.hng with l2f := { field.hng.l2f with st := st, owner := o } } }

/-- LC's core, 6, and core 3 ask for transfers of ports beyond the hinge; one transfer of core 3 is held, or waits its turn. -/
def lcAsk : Access := { port := 0x200#16, write := none }
def fcAsk : Access := { port := 0x10#16, write := none }
def xfer : Transfer := ⟨3, 3, .read 0x10 0, false, false⟩
def hinged (f : Hinge → Hinge) : State := { field with hng := f field.hng }

theorem witness_Hinge : (boxAt .free 15).sys.fieldUp = true ∧ ((boxAt .free 15).hng.box .l2f).st = .free ∧ Box.l2f.ownedBy .lc = true
    ∧ Box.l2f.ownedBy (.fc 0) = false ∧ Box.f2l.ownedBy (.fc 5) = true ∧ ((boxAt .claimed 8).hng.box .l2f).owner = Who.lc.code
    ∧ ((boxAt .claimed 8).hng.box .l2f).st = .claimed ∧ (boxAt .claimed 8).hasRoom ((boxAt .claimed 8).hng.noteQ .l2f) = true
    ∧ (boxAt .claimed 8).waiter ((boxAt .claimed 8).hng.noteQ .l2f) = none ∧ ((boxAt .posted 8).hng.box .l2f).st = .posted
    ∧ ((boxAt .claimed 8).modQue 0 fun x => { x with limit := 0 }).hasRoom 0 = false
    ∧ (field.modSow fun w => { w with claims := [(0, noteClaim .l2f)] }).noteWaits .l2f = some 0
    ∧ (field.modSow fun w => { w with claims := [(0, noteClaim .l2f)] }).waiter 0 = some (noteClaim .l2f)
    ∧ (field.modSow fun w => { w with claims := [(0, noteClaim .l2f)] }).hasRoom 0 = true
    ∧ (1#5).toNat = 1 ∧ (16#5).toNat = 16 ∧ (17#5).toNat = 17 := by decide +kernel

/-- A side reaches the mailbox ports, and a core its heartbeat; a plot does not. -/
theorem witness_Hinge_reach : Reaches (boxAt .free 15) .lc (boxCtlPort .l2f) true ∧ Reaches (boxAt .free 15) .lc (boxWordPort .l2f + 15) true
    ∧ Reaches (boxAt .free 15) (.fc 5) (boxCtlPort .f2l) true ∧ Reaches (boxAt .free 15) (.fc 5) (boxWordPort .f2l + 0) true
    ∧ Reaches field .lc 0x106 true ∧ Reaches field (.fc 5) 0x103 true ∧ plotRuns.mayAccess 0 0x103 true = false := by
  unfold Reaches Clear; decide +kernel

/-- LC's and two field cores' requests meet nothing, a held transfer, or one that waits its turn; core 3 stalls on its own. -/
theorem witness_Hinge_transfers : field.sys.inReset = false ∧ field.hng.waiting = [] ∧ field.hng.asking = []
    ∧ field.requests .lc lcAsk = true ∧ field.requests (.fc 3) fcAsk = true ∧ field.requests (.fc 5) fcAsk = true
    ∧ (3 + 5 - field.hng.lastFc % 6) % 6 < (5 + 5 - field.hng.lastFc % 6) % 6
    ∧ (hinged fun h => { h with waiting := [xfer] }).hng.waiting = [xfer] ∧ (hinged fun h => { h with waiting := [xfer] }).requests .lc lcAsk = true
    ∧ (hinged fun h => { h with asking := [xfer] }).hng.asking = xfer :: [] ∧ (hinged fun h => { h with asking := [xfer] }).hng.waiting = []
    ∧ (hinged fun h => { h with asking := [xfer] }).requests .lc lcAsk = true
    ∧ midway.stalled 3 = true ∧ ((field.hingeGrant xfer).core xfer.core).halting = false
    ∧ ((field.hingeGrant xfer).th xfer.tid).stopping = false := by decide +kernel

/-- The hypotheses of the hinge stand once the earlier port writes have taken effect: these sides have written nothing. -/
theorem witness_Hinge_drained : ∀ who : Who, (boxAt .free 15).drained who = boxAt .free 15 ∧ (boxAt .claimed 8).drained who = boxAt .claimed 8
    ∧ (boxAt .posted 8).drained who = boxAt .posted 8 ∧ field.drained who = field ∧ field.drainCores [3] = field
    ∧ field.drainCores [3, 5] = field := by
  intro who
  cases who with
  | lc => exact ⟨rfl, rfl, rfl, rfl, rfl, rfl⟩
  | fc k => fin_cases k <;> exact ⟨rfl, rfl, rfl, rfl, rfl, rfl⟩

/-- Core 2 has stopped by its heartbeat, and its item stands in LC's queue; core 2 has stopped by a full spill; every other
core has stopped too. -/
def stoppedHb : State :=
  { field with sys := { field.sys with hbStop := 4#6 } }.modSow fun w => { w with store := [{ words := heartWords 2, q := 56, age := 0 }] }
def stoppedSpill : State := { field with sys := { field.sys with spillStop := 4#6 } }
def alone : State := (List.range 6).foldl (fun s k => s.modCore k fun c => { c with stopped := true }) stoppedHb

/-- Thread 24 has trapped ALIGN, and its fault item stands in Q54. -/
def trapped : State :=
  (field.modTh 24 fun h => { h with st := .faulted, trap := 14 }).modSow fun w =>
    { w with store := [{ words := [header 3 0 0 0xFE0E, 24#32, 0#32, 0#32], q := 54, age := 0 }], nextAge := 1 }

/-- A keeper's thread, 1, has trapped, and it listens to Q54. -/
def trappedKeeper : State :=
  (field.modTh 1 fun h => { h with st := .faulted, trap := 14, listen := 0x40000000000000#64 }).modSow fun w =>
    { w with store := [{ words := [header 3 0 0 0xFE0E, 1#32, 0#32, 0#32], q := 54, age := 0 }], nextAge := 1 }

/-- Thread 24 has been parked by BREAK, and its item stands in Q54; a thread caught on core 2 was serving the item of an open handle. -/
def parked : State := trapped.modSow fun w => { w with store := [{ words := [header 3 0 0 0xFE0F, 24#32, 0#32, 0#32], q := 54, age := 0 }] }
def caught : State := (withHandle stoppedHb { handle (.selftest 0) with running := true }).modTh 24 fun h =>
  { h with st := .faulted, trap := 0, lastCore := 2, took := some { words := [header 1 0x71 0 0, 1#32], q := 4, age := 7 } }

theorem witness_Recovering_items : stoppedHb.heartKnown 2 = true ∧ (stoppedHb.heartItem 2).isSome = true ∧ field.heartKnown 2 = false
    ∧ (parked.nextFault.map fun it => it.typ) = some 0xFE0F ∧ (trapped.nextFault.map fun it => it.typ) = some 0xFE0E
    ∧ caught.party 2 = [24] ∧ (caught.handlesNamed ((caught.party 2).flatMap caught.lostItems)).map (fun h => (h.kk, h.seq)) = [(0, 1)] := by
  decide +kernel

theorem witness_Recovering : field.sys.inReset = false ∧ field.sys.fieldUp = true ∧ (field.core 2).run.isSome = true
    ∧ (field.core 2).stopped = false ∧ field.stalled 2 = false ∧ midway.stalled 3 = true ∧ (midway.core 3).run.isSome = true ∧ stoppedHb.sys.hbStop.getLsbD 2 = true ∧ (stoppedHb.heartItem 2).isSome = true
    ∧ stoppedHb.sys.spillStop.getLsbD 2 = false ∧ stoppedHb.onlyServer 2 = false ∧ stoppedHb.sys.recentF2 = false
    ∧ (∀ t ∈ stoppedHb.party 2, 24 ≤ t) ∧ stoppedSpill.sys.spillStop.getLsbD 2 = true ∧ alone.onlyServer 2 = true
    ∧ (((stoppedHb.heartServed 2).tellFault 2).endsInRestart 2).1 = false ∧ (((alone.heartServed 2).tellFault 2).endsInRestart 2).1 = true
    ∧ (List.range 6).find? stoppedHb.coreFault = some 2
    ∧ (trapped.nextFault.map fun it => fieldAt (it.word 1).toNat 0 7) = some 24 ∧ (trapped.th 24).st = .faulted
    ∧ (trapped.isRecovery 24).1 = false ∧ (trappedKeeper.nextFault.map fun it => fieldAt (it.word 1).toNat 0 7) = some 1
    ∧ (trappedKeeper.isRecovery 1).1 = true := by decide +kernel

/-! ### Witnesses of the console and the ring -/

def console (f : Console → Console) : State := { latchUp with con := f latchUp.con }

theorem witness_ConsoleAndLines : latchUp.sys.inReset = false ∧ latchUp.isUp .line = true ∧ latchUp.con.xon = false
    ∧ latchUp.con.rx = [] ∧ latchUp.con.marks = [] ∧ latchUp.con.lines = [] ∧ latchUp.con.overlong = false ∧ latchUp.con.buf.length < 200
    ∧ (console fun c => { c with xon := true }).con.xon = true
    ∧ 512 ≤ (console fun c => { c with rx := List.replicate 512 65#8 }).con.rx.length
    ∧ (console fun c => { c with rx := List.replicate 511 65#8 }).con.rx.length < 512
    ∧ blankText (console fun c => { c with buf := "STATE" }).con.buf = false
    ∧ latchUp.con.cts = false ∧ latchUp.con.stopped = false ∧ latchUp.con.lostSince = 0 ∧ latchUp.con.held = []
    ∧ latchUp.con.tx = [] ∧ latchUp.con.outq = [] ∧ latchUp.con.rateDue = none ∧ latchUp.con.tx = []
    ∧ (console fun c => { c with rateDue := some 2 }).con.rateDue = some 2 ∧ (console fun c => { c with tx := [65#8] }).con.tx ≠ [] := by decide +kernel

/-- A flow character waits for CONS_CTS; LC's output fills the transmit store; PROVE, with its address and with an argument that the
verb does not take. -/
theorem witness_ConsoleAndLines_output : (console fun c => { c with flowDue := some 0x11#8 }).con.flowDue = some 0x11#8
    ∧ (console fun c => { c with outq := [.line "A"] }).con.outSent < outChars (console fun c => { c with outq := [.line "A"] }).con.outq
    ∧ latchUp.con.flowDue = none ∧ latchUp.con.txUsed < 16 ∧ (console fun c => { c with outq := [.line "ABCDEFGHIJKLMN"] }).con.txUsed = 16
    ∧ (∀ h ∈ latchUp.con.held, h.out.isRate = false) ∧ provesLine "PROVE g" = true ∧ provesLine "STATE" = false := by decide +kernel

/-- A numbered ring is there, and the console's next line is the given one; ring session 3 has been idle for an hour of ticks. -/
def lined (t : String) : State := { console fun c => { c with lines := [t] } with ring := { latchUp.ring with number := some 1, st := .ok } }
def idleSes (l : List (Nat × String)) : State :=
  { latchUp with ses := vset latchUp.ses 3 { isOpen := true, src := 2 }, cal := { latchUp.cal with tick := 57600 }
                 ring := { latchUp.ring with linesIn := l } }

/-- A line addressed to keeper 2 and to keeper 1, which is this one; a broadcast line; each before READY RING too; a malformed
line. -/
theorem witness_ConsoleLines : (lined "@2 STATE").canRun 0 = true ∧ (lined "@2 STATE").addresses (.addressed (2#8).toNat "STATE") = true
    ∧ (lined "@1  STATE").addresses (.addressed (1#8).toNat "STATE") = true ∧ ((lined "@1 STATE").nextLine 0).2.keeperNo = 1
    ∧ (lined "@* STATE").addresses (.broadcast "STATE") = true ∧ ((lined "@* STATE").nextLine 0).2.isUp .ring = true
    ∧ ((lined "@* STATE").nextLine 0).2.ring.number.isSome = true ∧ (console fun c => { c with lines := ["@2 STATE"] }).ring.number = none
    ∧ ({ lined "@2 STATE" with up := [.line] } : State).isUp .ring = false ∧ ({ lined "@2 STATE" with up := [.line] } : State).canRun 0 = true
    ∧ (lined "BAY 96 ON").badLine 0 = true ∧ (lined "STATE").badLine 0 = false ∧ (lined "STATE 1").badLine 0 = true
    ∧ (lined "BAY 96 ON").badProof 0 = false ∧ (lined "PROVE 0001").badLine 0 = true ∧ (lined "PROVE 0001").badProof 0 = true := by decide +kernel

theorem witness_IdleSession : ((idleSes []).sesAt 3).isOpen = true ∧ ((idleSes []).sesAt 3).lastTick + 57600 ≤ (idleSes []).cal.tick
    ∧ (idleSes []).hasOpen 3 = false ∧ (idleSes []).sys.inReset = false ∧ (idleSes [(3, "STATE")]).ring.linesIn = [(3, "STATE")]
    ∧ (idleSes [(3, "STATE")]).hasOpen 3 = false := by decide +kernel

/-- A ring with the given registers, of a member or of the head. -/
def ringed (head : Bool) (f : Ring → Ring) : State :=
  { latchUp with sys := { latchUp.sys with head := head }, ring := f { latchUp.ring with number := some 1, st := .ok }
                 ses := vset latchUp.ses 3 { isOpen := true, src := 2 } }

theorem witness_RingFrames : textErrors "A" = 0 ∧ textErrors "\t" ≠ 0 ∧ blankText "A" = false
    ∧ (ringed false id).lineAct .sol false 5 2 = .forwarded ∧ (ringed false id).lineAct .sob false 0 1 = .removed
    ∧ (ringed true id).lineAct .sol true 5 2 = .looped ∧ (ringed true fun r => { r with passOut := true }).lineAct .sol false 5 2 = .stale
    ∧ (ringed false id).lineAct .sol false 5 1 = .returned ∧ (ringed false id).lineAct .sob false 0 2 = .copied
    ∧ (ringed false id).lineAct .sol false 1 2 = .taken ∧ (ringed false id).sessionOf 2 0 = some 3 ∧ (ringed false id).isUp .ring = true
    ∧ (ringed false id).lineAct .sor false 1 2 = .taken ∧ (ringed false id).sys.head = false ∧ (ringed false id).sys.inReset = false
    ∧ (ringed true fun r => { r with passOut := true, pass := 7 }).ring.pass = (7#8).toNat ∧ (ringed true id).isUp .line = true
    ∧ (ringed true id).ring.passOut = false ∧ goodSyms "\t" ≤ (4 : Fin 65).val ∧ (4 : Fin 65).val < goodSyms "A\t" ∧ textErrors "A\t" ≠ 0
    ∧ (ringed false id).ring.holdIn = false ∧ (ringed false fun r => { r with holdIn := true }).ring.holdIn = true := by decide +kernel

theorem witness_RingItself : (ringed true id).sys.head = true ∧ (ringed true id).ring.passOut = false
    ∧ (ringed true fun r => { r with st := .broken }).ring.st = .broken
    ∧ (ringed true fun r => { r with passOut := true, passTry := 1 }).ring.passTry = 1
    ∧ (ringed true fun r => { r with passOut := true, passTry := 2 }).ring.passTry = 2
    ∧ (ringed false fun r => { r with joining := true }).ring.joining = true ∧ (ringed false id).ring.joining = false ∧ (ringed false id).sys.due = []
    ∧ (ringed false id).ring.build.getLast? ≠ some (ctlSym 4 false) ∧ 2048 ≤ (ringed false fun r => { r with insq := [.raw (List.replicate 2048 1#9)] }).ring.insUsed
    ∧ (ringed false id).isUp .ring = true
    ∧ (ringed false id).ring.upDead = false ∧ (ringed false id).ring.holdOut = false
    ∧ (ringed false fun r => { r with upDead := true }).ring.upDead = true ∧ (ringed false fun r => { r with holdIn := true }).ring.holdIn = true
    ∧ (ringed false fun r => { r with own := [.join] }).ring.own = .join :: [] ∧ (ringed false id).ring.holdIn = false
    ∧ (ringed false fun r => { r with fwd := [{ frame := .join, held := 0 }], insq := [.raw []], lastLocal := some true }).ring.lastLocal = some true
    ∧ (ringed false id).ring.own = [] ∧ (ringed false id).ring.fwd = [] ∧ (ringed false id).ring.insq = []
    ∧ (ringed false id).ring.discard = false ∧ (ringed false id).ring.insUsed < 2048 ∧ (ringed false id).ring.wait = []
    ∧ (ringed false fun r => { r with build := List.replicate 204 1#9 }).ring.build.length ≤ 204
    ∧ (ringed false fun r => { r with rx := List.replicate 49 1#9 }).ring.rx.length - 1 = 48
    ∧ (ringed false fun r => { r with abtDue := true }).ring.abtDue = true ∧ (ringed false id).ring.abtDue = false := by decide +kernel

/-- A local frame's turn; a keeper without a number that has nothing but local frames; a store that empties to 16 and to 17 places,
where the point of 16 counts a copied frame's symbols once. -/
theorem witness_RingItself_turns : (ringed false fun r => { r with fwd := [{ frame := .join, held := 0 }], insq := [.raw []], lastLocal := some false }).ring.lastLocal
      = some false ∧ (ringed false id).ring.number = some 1
    ∧ (ringed false fun r => { r with number := none, insq := [.raw []] }).ring.number = none
    ∧ (ringed false fun r => { r with rx := List.replicate 17 1#9 }).ring.rx.length - 1 = 16
    ∧ (ringed false fun r => { r with rx := List.replicate 18 1#9 }).ring.rx.length - 1 = 17
    ∧ ({ frame := .join, held := 3, shared := 3 } : Fwd).held - ({ frame := .join, held := 3, shared := 3 } : Fwd).shared = 0 := by
  decide +kernel

/-! ### Lines as typed (R111, R117, R138, R181, R246), each beside the command that the tables of the verbs make of it -/

/-- What the console's line reads as. -/
def reads (t : String) (c : Instr) : Bool := readLine 0 t = some (.command c)

/-- Keywords and hexadecimal digits in either case, runs of spaces, a tag, ranges and lists. -/
theorem test_lines_shelf : reads "STATE" (.state con0) = true ∧ reads "  #k1   wake " (.wake { con0 with tag := "k1" }) = true
    ∧ reads "bay 1,3..4 on" (.bayOn con0 [1, 3, 4]) = true ∧ reads "BAY 95 UNLOCK" (.bayUnlock con0 95 false false) = true
    ∧ reads "BAY 0 LOCATE OFF" (.bayLocateOff con0 0) = true
    ∧ reads "ENVELOPE SET MAIN 120.05" (.envelopeSet con0 .main { whole := 120, frac := 5, digits := 2 }) = true
    ∧ reads "TAG 7 GREEN BLINK4" (.tag con0 [7] .green .blink4) = true ∧ reads "FAN 0..1 DUTY 100" (.fanDuty con0 [0, 1] 100) = true
    ∧ reads "FACE TEXT \"a  B\"" (.faceText con0 "a  B") = true := by decide +kernel

theorem test_lines_account : reads "LINE XON ON" (.lineXonOn con0) = true ∧ reads "WHO ALL" (.whoAll con0) = true
    ∧ reads "OPEN t15" (.openT con0 15) = true ∧ reads "PROVE 00aF-0001" (.prove con0 [0xAF#16, 1#16]) = true
    ∧ reads "TENANCY T1 SHARE 10.5" (.tenancyShare con0 1 { whole := 10, frac := 5, digits := 1 }) = true
    ∧ reads "ASSIGN 0..2 NONE" (.assignNone con0 [0, 1, 2]) = true ∧ reads "QUOTA T3 POOL 2 9" (.quotaPool con0 3 2 9) = true
    ∧ reads "LEDGER T0 GAPS" (.ledgerGaps con0 0) = true ∧ reads "TIME SET 7" (.timeSet con0 7#32) = true := by decide +kernel

theorem test_lines_service : reads "PLOT T1 LOAD 4096" (.plotLoad con0 1 4096) = true ∧ reads "Xa b" (.xVerb con0 "XA" "b") = true
    ∧ reads "TRACE DUMP 4096" (.traceDump con0 4096) = true ∧ reads "STATS Q 63" (.statsQ con0 63) = true
    ∧ reads "STATS CORE 6" (.statsCore con0 6) = true ∧ reads "HANDLE h0a.00fF" (.handle con0 ⟨0xA#8, 0xFF#16⟩) = true
    ∧ reads "RING TERM OFF" (.ringTermOff con0) = true ∧ readLine 0 "@7  STATE" = some (.addressed 7 "STATE")
    ∧ readLine 0 "@* #a BAY 1 ON" = some (.broadcast "#a BAY 1 ON") := by decide +kernel

/-- A missing, surplus or wrong argument, an unbalanced quote, a value out of its grammar, an address on a ring line. -/
theorem test_lines_refused : [readLine 0 "BAY ON", readLine 0 "STATE 1", readLine 0 "BAY 96 ON", readLine 0 "BAY 3..1 ON",
      readLine 0 "FACE TEXT \"a", readLine 0 "OPEN T16", readLine 0 "PROVE 0001", readLine 0 "TENANCY T1 SHARE 1.23456",
      readLine 0 "#123456789 STATE", readLine 3 "@2 STATE", readLine 0 "@256 STATE", readLine 0 "FLY"].all Option.isNone = true := by
  decide +kernel

/-! ### Witnesses of the verbs -/

/-- The console's session has proved T0 in the state FIELD and no line waits; a challenge of T1, whose key is set, is pending. -/
def steward : State :=
  { field with ses := vset field.ses 0 { isOpen := true, proved := some 0, challenge := some (1, 5#64) }
               sdb := { field.sdb with ten := vmod field.sdb.ten 1 fun x => { x with key := some 7#256 } } }

/-- The states that a line of the console leaves once taken, and once echoed. -/
def tookLine (s : State) : State := (s.nextLine 0).2
def echoed (s : State) : State := (tookLine s).ringEcho 0 (s.nextLine 0).1

/-- In the state FIELD the steward's line of any command runs, and what its checks ask for is there; in LATCH, before any
session has proved a tenancy, each runs too. -/
theorem witness_VerbReports : (∀ c, LineRuns steward con0 c (tookLine steward) (echoed steward))
    ∧ (∀ c, LineRuns latchUp con0 c (tookLine latchUp) (echoed latchUp))
    ∧ (tookLine steward).steward 0 = true ∧ (tookLine steward).inField = true ∧ (tookLine steward).isUp .envelope = true
    ∧ (tookLine steward).isUp .keys = true ∧ (tookLine steward).ledgerReady = true ∧ (tookLine steward).granReady 0 = true
    ∧ (tookLine steward).traceReady 0 = true ∧ (tookLine steward).tenReady = true ∧ (tookLine steward).tenant 0 15 = true
    ∧ (tookLine steward).bayRights 0 [0, 95] = true ∧ (tookLine latchUp).steward 0 = false :=
  ⟨any_line (by decide +kernel) (by decide +kernel) (by decide +kernel), any_line (by decide +kernel) (by decide +kernel) (by decide +kernel),
    by decide +kernel⟩

/-- T1 holds the console and its plot has the X verb "XA"; the steward has 64 open handles; the seedbank is busy. -/
def tenant : State :=
  { steward with ses := vset field.ses 0 { isOpen := true, proved := some 1 }, up := steward.up ++ [.plot 1]
                 plots := vmod steward.plots 1 fun p => { p with st := .running, verbs := ["XA"] } }
def crowded : State := { steward with hnd := { steward.hnd with opens := List.replicate 64 (handle .rest) } }
def busySdb : State := { steward with sdb := { steward.sdb with jobBusy := true } }

theorem witness_VerbForms : (tookLine steward).usable .rest = true ∧ (tookLine steward).usable .wake = true
    ∧ ((tookLine steward).holds 0).isSome = true ∧ (echoed steward).resources con0 .rest = true
    ∧ (tookLine steward).envOk .main { whole := 120, frac := 0, digits := 1 } = true
    ∧ (tookLine steward).usable (.envSet .main (envValue .main { whole := 120, frac := 0, digits := 1 })) = true
    ∧ (tookLine steward).usable (.forget 1#96 0#96) = true ∧ (tookLine steward).usable (.tag 1#96 .green .off) = true
    ∧ (tookLine steward).usable (.face .off) = true ∧ textShows "A" = true ∧ (tookLine steward).usable (.keySet 15 7#256) = true
    ∧ (tookLine steward).usable (.plotLoad 15 4096) = true ∧ (tookLine steward).usable (.selftest 0) = true
    ∧ (tookLine steward).usable (.epoch 15 0) = true ∧ (tookLine steward).bayReady [95] = true ∧ (tookLine steward).bayRights 0 [95] = true := by
  decide +kernel

theorem witness_VerbForms_other : (∀ c, LineRuns tenant con0 c (tookLine tenant) (echoed tenant))
    ∧ (∀ c, LineRuns crowded con0 c (tookLine crowded) (echoed crowded)) ∧ (tookLine tenant).xVerb 0 "XA" "" = some (1, 0, false)
    ∧ (echoed tenant).xVerb 0 "XA" "" = some (1, 0, false) ∧ (tookLine steward).xVerb 0 "XA" "" = none
    ∧ (echoed crowded).resources con0 .rest = false ∧ (echoed busySdb).sdb.jobBusy = true ∧ (tookLine steward).sdb.shareSum 1 1000 ≤ 1000
    ∧ (tookLine steward).pools.contains 0 = true :=
  ⟨any_line (by decide +kernel) (by decide +kernel) (by decide +kernel), any_line (by decide +kernel) (by decide +kernel) (by decide +kernel),
    by decide +kernel⟩

theorem proves_of {s : State} {k t : Nat} {c : BitVec 64} {key : BitVec 256} (h : s.pendingChallenge k = some (t, c))
    (hk : (vget s.sdb.ten t).key = some key) : s.proves k (proofGroups key c) = some t := by
  simp [State.proves, h, hk]

/-- A right proof of the pending challenge, and none where no challenge is pending. -/
theorem witness_VerbActs : (tookLine steward).isUp .seedbank = true ∧ (tookLine steward).keySet 1 = true
    ∧ (tookLine steward).proves 0 (proofGroups 7#256 5#64) = some 1 ∧ (echoed steward).proves 0 (proofGroups 7#256 5#64) = some 1
    ∧ (echoed steward).placeFree 0 1 = true ∧ (tookLine tenant).proves 0 [] = none :=
  ⟨by decide +kernel, by decide +kernel, proves_of (by decide +kernel) (by decide +kernel), proves_of (by decide +kernel) (by decide +kernel),
    by decide +kernel, by decide +kernel⟩

/-- A handle that the session sees, open or kept; a locked bay; lines held and not. -/
def keptOne : State := { steward with hnd := { steward.hnd with kept := [{ (default : Kept) with seq := 1, orphan := true }] } }
def lockedBay : State := { steward with bays := { steward.bays with bay := vset steward.bays.bay 0 { st := .locked } } }

/-- A line of another keeper is held for room on the console. -/
def clogged : State := { steward with con := { steward.con with held := [{ out := .line "@2 =- STATE" }] } }

theorem witness_VerbActs_handles : (echoed steward).seenOpen 0 ⟨0, 1⟩ = none ∧ (echoed steward).seenKept 0 ⟨0, 1⟩ = none
    ∧ ((echoed (withHandle steward (handle .rest))).seenOpen 0 ⟨0, 1⟩).isSome = true
    ∧ (echoed keptOne).seenOpen 0 ⟨0, 1⟩ = none ∧ ((echoed keptOne).seenKept 0 ⟨0, 1⟩).isSome = true
    ∧ ((tookLine lockedBay).bayAt 0).st = .locked ∧ (tookLine steward).statsReady 0 = true ∧ (tookLine steward).rowReady 95 = true
    ∧ (tookLine steward).actedBays [95] = [95] ∧ (baudCode 115200).isSome = true
    ∧ ((echoed steward).reply con0 "RESET FIELD").linesHeld 0 = false
    ∧ (tookLine clogged).steward 0 = true ∧ ((echoed clogged).reply con0 "RESET FIELD").linesHeld 0 = true := by decide +kernel

/-- Lines of every shape whose checks the steward's session passes. -/
def stewardLines : List Instr :=
  let d : DecVal := { whole := 120, frac := 0, digits := 1 }
  [.wake con0, .rest con0, .envelopeSet con0 .main d, .profileForget con0 [95], .tag con0 [95] .green .off, .tagAuto con0 [0],
    .faceText con0 "A", .faceTextOff con0, .faceView con0 .auto, .keySet con0 15 7#256, .keyClear con0 15, .plotLoad con0 15 4096,
    .plotUnload con0 15, .selftest con0, .ledgerEpoch con0 15, .bayOn con0 [95], .bayOff con0 [0], .tenancyGroup con0 1 1,
    .tenancyShare con0 1 { whole := 10, frac := 5, digits := 1 }, .tenancyAllot con0 1 d, .tenancyWeight con0 1 2,
    .assign con0 [95] 15, .assignNone con0 [0], .quotaPool con0 1 0 8, .granaryModeSingle con0, .granaryModeSized con0,
    .ringTermOn con0, .ringTermOff con0]
def actingLines : List Instr :=
  [.lineBaud con0 115200, .lineXonOn con0, .lineXonOff con0, .echoOn con0, .echoOff con0, .bayLocateOn con0 95, .bayLocateOff con0 0,
    .bayInfo con0 [95], .fanDuty con0 [7] 100, .fanAuto con0 [0], .timeSet con0 7#32, .traceModeStop con0, .traceModeWrap con0,
    .traceClear con0, .traceCoresOn con0 [6], .traceCoresOff con0 [0], .traceDump con0 4096, .statsClear con0, .resetField con0,
    .cancel con0 ⟨0, 1⟩, .statsQ con0 63, .statsCore con0 6, .close con0, .openT con0 1, .handle con0 ⟨0, 1⟩]

/-- The steward's keeper is the head. -/
def headed : State := { steward with sys := { steward.sys with head := true } }
/-- T1's session, with the stored quotas in the Granary. -/
def buffered : State := { tenant with gran := tenant.setQuotas tenant.gran }

theorem witness_VerbsTakeEffect_runs (c : Instr) : LineRuns steward con0 c (tookLine steward) (echoed steward)
    ∧ LineRuns lockedBay con0 c (tookLine lockedBay) (echoed lockedBay) ∧ LineRuns headed con0 c (tookLine headed) (echoed headed)
    ∧ LineRuns buffered con0 c (tookLine buffered) (echoed buffered) :=
  ⟨any_line (by decide +kernel) (by decide +kernel) (by decide +kernel) c, any_line (by decide +kernel) (by decide +kernel) (by decide +kernel) c,
    any_line (by decide +kernel) (by decide +kernel) (by decide +kernel) c, any_line (by decide +kernel) (by decide +kernel) (by decide +kernel) c⟩

theorem witness_VerbsTakeEffect : stewardLines.all ((tookLine steward).formOk 0) = true
    ∧ actingLines.all ((tookLine steward).formOk 0) = true ∧ (tookLine lockedBay).formOk 0 (.bayUnlock con0 0 true true) = true
    ∧ (((echoed lockedBay).unlockProofs 0 true true).bayAt 0).agree = true ∧ (tookLine buffered).formOk 0 (.xVerb con0 "XA" "") = true
    ∧ (tookLine buffered).xVerb 0 "XA" "" = some (1, 0, false) ∧ (echoed buffered).resources con0 (.x 1 0 "" false) = true ∧ (echoed steward).resources con0 (.bayOn 1#96 0#96) = true
    ∧ (tookLine headed).formOk 0 (.ringEnum con0) = true := by decide +kernel

theorem witness_VerbsTakeEffect_prove : (tookLine steward).formOk 0 (.prove con0 (proofGroups 7#256 5#64)) = true
    ∧ (echoed steward).proves 0 (proofGroups 7#256 5#64) = some 1 ∧ (echoed steward).placeFree 0 1 = true := by
  have h := proves_of (s := tookLine steward) (k := 0) (t := 1) (c := 5#64) (key := 7#256) (by decide +kernel) (by decide +kernel)
  have u : (tookLine steward).isUp .seedbank = true := by decide +kernel
  exact ⟨by simp [State.formOk, h, u], proves_of (by decide +kernel) (by decide +kernel), by decide +kernel⟩

/-! ### Witnesses of the furrow, the seedbank, the calendar and the ledger -/

def rec0 : Rec := ⟨1, 0, 0, 0, 0, 0, false, false, false, .accepted, 0, 0, 0, 0, []⟩
def jrn (f : Journal → Journal) : State := { latchUp with jrn := f latchUp.jrn }
def fur (f : Furrow → Furrow) : State := { latchUp with fur := f latchUp.fur }
def sdb (f : Seedbank → Seedbank) : State := { latchUp with sdb := f latchUp.sdb }
def job0 : SdbJob := { setting := .term false, reply := none, handle := none }

theorem witness_Storing : (jrn fun j => { j with queue := [rec0] }).jrn.queue = rec0 :: [] ∧ latchUp.jrn.writing = none
    ∧ latchUp.fur.op = none ∧ latchUp.isUp .furrow = true ∧ latchUp.sys.inReset = false ∧ latchUp.sys.vstbyLow = false
    ∧ (jrn fun j => { j with writing := some (2559, 1, rec0) }).jrn.writing = some (2559, 1, rec0)
    ∧ (fur fun f => { f with op := some .read }).fur.op = some .read ∧ (fur fun f => { f with op := some .write, line := 4095 }).fur.op = some .write
    ∧ latchUp.sdb.op = none ∧ latchUp.sdb.jobBusy = false ∧ latchUp.sdb.jobs = [] ∧ (sdb fun x => { x with op := some .write }).sdb.op = some .write
    ∧ (sdb fun x => { x with jobBusy := true, op := some .write, jobs := [job0] }).sdb.jobs = job0 :: []
    ∧ (fur fun f => { f with pendingLines := [(2944, [], 0)] }).fur.pendingLines = (2944, [], 0) :: [] ∧ headerLine 2944 = true
    ∧ latchUp.jrn.queue = [] ∧ latchUp.furBusy = false ∧ (fur fun f => { f with op := some .read }).furBusy = true := by
  decide +kernel

/-- An X verb of T1 that its plot has, and the item of `n` words with which the plot completes it, DONE or FAILED, or asks for a
wake. -/
def xOpen (typ n : Nat) : State :=
  let h := handle (.x 1 0 "" false)
  (withHandle field { h with delivered := true, ten := 1 }).modSow fun w =>
    { w with store := [{ words := [header (n - 1) 0x62 1 typ, 1#32, 0#32].take n, q := 55, age := 0 }] }
def wakeAsk : State := field.modSow fun w => { w with store := [{ words := [header 1 0x62 1 0x202, 0#32], q := 55, age := 0 }] }
/-- A completion held on the head for the ring session of keeper 2. -/
def heldBack (f : Ring → Ring) : State :=
  { withHandle (ringed true f) { handle .rest with compl := some ⟨1, 0, 0, 0, [], 0#96, "", false⟩ } with
    hnd := { (withHandle (ringed true f) { handle .rest with compl := some ⟨1, 0, 0, 0, [], 0#96, "", false⟩ }).hnd with
      heldOut := [(0, 1, 2, 0, "")] } }

/-- The same, of a ring session that has ended. -/
def endedSes : State := withHandle (heldBack id) { handle .rest with origin := .ring 2 0, ended := true }

theorem witness_HandleEvents : ((heldBack id).openAt 0 1).isSome = true ∧ (((heldBack id).openAt 0 1).bind fun h => h.compl).isSome = true
    ∧ (heldBack id).ringCarries.1 = true ∧ (((heldBack id).openAt 0 1).bind Handle.opener) = some 0
    ∧ ((endedSes.openAt 0 1).map Handle.opener) = some none ∧ (heldBack fun r => { r with upDead := true }).ringCarries.1 = false
    ∧ (heldBack fun r => { r with st := .broken }).ringCarries.1 = false ∧ (heldBack id).sys.inReset = false
    ∧ (heldBack fun r => { r with number := none }).ring.number = none
    ∧ [0x200, 0x201].all (fun n => ((xOpen n 3).plotItem fun n => n = 0x200 || n = 0x201).any fun it =>
        it.words.length = 3 && it.plotTen.isSome && it.typ = n
          && ((xOpen n 3).xHandle (fieldAt (it.word 0).toNat 16 4) (it.word 1)).any fun h => (h.kk, h.seq) = (0, 1)) = true
    ∧ (xOpen 0x200 3).recordsDue 0 1 = false
    ∧ ({ xOpen 0x200 3 with jrn := { field.jrn with queue := [⟨1, 0, 0, 0, 0, 0, false, false, false, .committed, 0, 0, 0, 0, []⟩] } } : State).recordsDue
      0 1 = true
    ∧ ((xOpen 0x200 2).plotItem fun n => n = 0x200 || n = 0x201).any (fun it => it.words.length = 2) = true
    ∧ ((wakeAsk.plotItem fun n => n = 0x202).map fun it => (it.words.length, it.plotTen.isSome)) = some (2, true) := by decide +kernel

theorem witness_HandleEvents_wakes : (loading.plotAt 1).wakeAt = none
    ∧ (({ latchUp with plots := vmod latchUp.plots 15 fun p => { p with wakeAt := some 0 } } : State).plotAt 15).wakeAt = some 0
    ∧ latchUp.sys.wakePend = [] ∧ latchUp.sys.kst = .latch
    ∧ (Machine.WakeCause.plot (15 : Ten).val) ∈ ({ latchUp with sys := { latchUp.sys with wakePend := [.panel, .plot 15] } } : State).sys.wakePend
    ∧ restsOn.sys.kst = .resting ∧ (sdb fun x => { x with applyNow := true, planNow := true }).sdb.applyNow = true
    ∧ latchUp.sdb.applyNow = false ∧ field.sys.fieldUp = true := by decide +kernel

def cal (f : Calendar → Calendar) : State := { latchUp with cal := f latchUp.cal }
def claimed : State := (cal fun c => { c with pend := some 5, tickQ := 58 }).modSow fun w => { w with claims := [(58, .tick)] }
def ended (k : Option Nat) : State := { field with led := { field.led with ends := [(1023, field.led.run)], served := k } }

/-- The item of tick `k`, the present one, waits in queue `q`. -/
def ticked (q k : Nat) : State :=
  { field with cal := { field.cal with tick := k }, sow := { field.sow with store := [{ words := tickWords k, q := q, age := 0 }] } }

theorem witness_CalendarAndLedger : latchUp.sys.inReset = false ∧ (cal fun c => { c with utcLoad := some 9 }).cal.utcLoad = some 9
    ∧ latchUp.cal.utcLoad = none ∧ 0 < (cal fun c => { c with utcDue := 1 }).cal.utcDue
    ∧ claimed.cal.pend = some 5 ∧ claimed.tickClaim = some 58 ∧ claimed.hasRoom 58 = true ∧ claimed.waiter 58 = some .tick
    ∧ (cal fun c => { c with saveDue := true }).cal.saveDue = true ∧ (cal fun c => { c with saveDue := true }).lineFree = true
    ∧ (ticked 2 1024).ledgerRuns = true ∧ ((ticked 2 1024).lcTicks.takeTick 2 (ticked 2 1024).lcTicks.led.served).map Prod.fst = some 1024
    ∧ ((ticked 58 1024).lcTicks.takeTick 2 (ticked 58 1024).lcTicks.led.served).map Prod.fst = some 1024
    ∧ ((ticked 58 1024).tickItem 58).isSome = true ∧ (ticked 58 1024).led.served = none
    ∧ (∀ s ∈ [ended (some 1023), ended (some 1022)], s.led.ends = (1023, field.led.run) :: []
      ∧ s.serveTicks.led.ends = (1023, field.led.run) :: [])
    ∧ (ended (some 1023)).serveTicks.handedOver 1023 = true ∧ (ended (some 1022)).serveTicks.handedOver 1023 = false := by
  decide +kernel

/-- The ledger is loaded; tick 1024, the next to be served, has noted one second of a bay of T1. -/
def metered : State :=
  let m : Vector Acc 16 := vset (Vector.replicate 16 {}) 1 { baysec := 15625 }
  { ticked 2 1024 with led := { field.led with loaded := true, marks := [(1024, m)] } }

theorem witness_CalendarAndLedger_sums : metered.led.loaded = true ∧ metered.ledgerRuns = true
    ∧ (∀ p : Ten, (metered.led.value p.val).capacity ≤ accTop ∧ ∀ i : Fin 4, (metered.led.value p.val).at i.val ≤ accTop)
    ∧ ((metered.lcTicks.takeTick 2 metered.lcTicks.led.served).map fun x => x.1) = some 1024
    ∧ metered.led.served = none ∧ (metered.led.marks.filter fun x => x.1 = 1024) = metered.led.marks ∧ metered.led.marks.length = 1
    ∧ (sdb fun x => { x with applyDue := true }).sdb.applyDue = true
    ∧ (({ field with bays := { field.bays with bay := vmod field.bays.bay 95 fun b => { b with st := .on } } } : State).bayAt 95).powered = true := by
  decide +kernel

/-- The calendar stands at tick 57,600, and the bay, the session and the keypad began at tick 0. -/
def late : State :=
  { field with cal := { field.cal with tick := 57600 }
               bays := { field.bays with bay := vset field.bays.bay 95 { locate := some 0 } }
               keys := { field.keys with ksTicks := 64 }
               fans := { field.fans with readyTick := some 57472, fan := vset field.fans.fan 7 { duty := 30, pulses := 9, low := 128 } } }

theorem witness_Lapses : late.sys.inReset = false ∧ (late.sesAt 0).openTick + 3840 ≤ late.cal.tick ∧ (late.bayAt 95).locate = some 0
    ∧ 0 + 57600 ≤ late.cal.tick ∧ late.face.keyTick + 3840 ≤ late.cal.tick ∧ late.switchValid = false ∧ late.keys.ksFault = false
    ∧ 64 ≤ late.keys.ksTicks ∧ late.sys.fieldUp = true ∧ late.fansTimed = true ∧ (late.fanAt 7).seen = false
    ∧ (late.fanAt 7).stall = false ∧ (late.fanAt 7).slow = true ∧ 128 ≤ (late.fanAt 7).low ∧ (0, Due.opened) ∉ late.sys.due
    ∧ (3, Due.opened) ∈ ({ late with sys := { late.sys with due := [(3, .opened)] } } : State).sys.due ∧ late.fans.secondDue = false
    ∧ ({ late with fans := { late.fans with secondDue := true } } : State).fans.secondDue = true := by decide +kernel

/-! ### Witnesses of bays, guard and planner -/

/-- A handle of the given form runs, and its item for bay 0 waits in Q1. -/
def working (f : Form) : State :=
  (withHandle field { handle f with running := true }).modSow fun w =>
    { w with store := [{ words := [header 1 1 0 0x100, handleWord 0 1], q := 1, age := 0 }] }

theorem witness_BayStates : field.sys.inReset = false ∧ (bay0 fun b => { b with st := .presentOff }).startLegal 0 = true
    ∧ (bay0 fun b => { b with st := .presentOff }).guardHolding = false
    ∧ ({ bay0 (fun b => { b with st := .presentOff }) with env := { field.env with hold := true } } : State).guardHolding = true
    ∧ (bay0 fun b => { b with st := .on }).startLegal 0 = false ∧ ((bay0 fun b => { b with st := .stopping }).bayAt 0).st = .stopping
    ∧ (bay0 fun b => { b with st := .starting }).clamped 0 = false ∧ ((bay0 id).bayAt 0).st = .empty
    ∧ ((bay0 fun b => { b with st := .starting, main := { good := true, blankRun := true }, aux := { good := true } }).bayAt 0).main.blankRun = true
    ∧ ((bay0 fun b => { b with st := .starting }).bayAt 0).main.frozen = false ∧ ((bay0 fun b => { b with st := .starting }).bayAt 0).main.good = false
    ∧ [(.bayOn 1#96 0#96, .on), (.bayOff 1#96, .off), (.forget 1#96 0#96, .forget)].all (fun p : Form × WorkKind =>
      (((working p.1).serveBayKeys 0).nextWork 0).any fun w => w.kind = p.2 && ((working p.1).serveBayKeys 0).sow.dispatch) = true := by decide +kernel

/-- LC has a lock-out item to serve; the lock latch of bay 95 is set. -/
def lockItem : State := field.modSow fun w => { w with store := [{ words := [header 1 0 0 0xFF13, 0#32], q := 56, age := 0 }] }
def latched : State := { field with sys := { field.sys with lockLatch := 1#96 <<< 95 } }

theorem witness_LocksAndProofs : field.sys.inReset = false ∧ field.sys.fieldUp = true ∧ ((bay0 fun b => { b with st := .presentOff }).bayAt 0).st = .presentOff
    ∧ ((bay0 fun b => { b with main := { frozen := true } }).bayAt 0).main.frozen = true ∧ (field.bayAt 0).st ≠ .locked
    ∧ ((bay0 fun b => { b with main := { frozen := true, proving := true, checked := true } }).bayAt 0).main.proving = true
    ∧ ((bay0 fun b => { b with main := { frozen := true, proving := true, checked := true } }).bayAt 0).main.checked = true
    ∧ (field.bayAt 0).main.wanted = false ∧ (field.bayAt 0).aux.wanted = false ∧ lockItem.lineFree = true ∧ lockItem.fur.pendingLines = []
    ∧ ((lockItem.sow.store.find? fun it => it.q = lockItem.hng.f2lQ && it.isLockOut).map fun it => fieldAt (it.word 1).toNat 0 7) = some 0
    ∧ field.locked 95 = false ∧ latched.locked 95 = true
    ∧ (({ latched with bays := { field.bays with bay := vset field.bays.bay 95 { st := .locked } } } : State).bayAt 95).st = .locked
    ∧ latchUp.sys.fieldUp = false := by decide +kernel

/-- A proof of AUX that main's proof keeps waiting, one that begins, and 16 slots of sense codes. -/
theorem witness_LocksAndProofs_waits : ((bay0 fun b => { b with main := { frozen := true }, aux := { wanted := true } }).bayAt 0).demanded .aux = true
    ∧ ((bay0 fun b => { b with main := { frozen := true }, aux := { wanted := true } }).bayAt 0).main.frozen = true
    ∧ ((bay0 fun b => { b with main := { frozen := true }, aux := { wanted := true } }).bayAt 0).aux.frozen = false
    ∧ ((bay0 fun b => { b with main := { wanted := true }, aux := { wanted := true } }).bayAt 0).demanded .main = true
    ∧ ((bay0 fun b => { b with main := { wanted := true }, aux := { wanted := true } }).bayAt 0).aux.frozen = false
    ∧ (field.bayAt 0).demanded .main = false ∧ ((bay0 fun b => { b with st := .held }).bayAt 0).st = .held ∧ field.bays.sumSlots ≠ 16
    ∧ ({ field with bays := { field.bays with sumSlots := 16, sumM := vset field.bays.sumM 95 (-7) } } : State).bays.sumSlots = 16 := by decide +kernel

def env (f : Env → Env) : State := { bay0 (fun b => { b with st := .presentOff }) with env := f field.env, led := { field.led with served := some 1 } }

/-- A start of bay 0 is placed at tick 9; the planner has served that tick, or a keeper thread has its item in service. -/
def planned : State := env fun e => { e with placed := [(0, 9)], served := some 9 }
def plannedLate : State :=
  ({ env fun e => { e with placed := [(0, 9)], served := some 8 } with cal := (ticked 58 9).cal } : State).modTh 3 fun h =>
    { h with item := some { words := tickWords 9, q := 3, age := 0 } }

/-- A planner's item at or after the tick of a placed start has been served, and the start may be written. -/
def mayPlan (s : State) (t : Nat) : Bool :=
  let w := s.lcTicks.planTicks fun x => !x.planReached t
  (s.lcTicks.env.placed.find? fun p => p.1 = 0) = some (0, t) && w.planReached t && w.plannerUp && w.startLegal 0

theorem witness_GuardAndPlanner : field.sys.inReset = false ∧ field.sys.fieldUp = true ∧ field.env.hold = false
    ∧ (env fun e => { e with slotNo := 8, nowOver := true, msOver := 19 }).env.holdDue = true
    ∧ (env fun e => { e with guard := 0, overA := true }).env.holdDue = true ∧ (env id).env.holdDue = false
    ∧ (env fun e => { e with hold := true }).env.hold = true
    ∧ (env fun e => { e with hold := true, slotNo := 8, nowClear := true, msClear := 249 }).env.clearDue = true
    ∧ (env fun e => { e with hold := true }).env.overM = false ∧ (env fun e => { e with heldQ := [95] }).env.heldQ = (95 : BayNo).val :: []
    ∧ (env fun e => { e with heldQ := [95] }).paceMet = true ∧ (env fun e => { e with order := [0], shedRun := 2 }).env.order = 0 :: []
    ∧ mayPlan planned 9 = true ∧ mayPlan plannedLate 9 = true
    ∧ (env fun e => { e with replanDue := true }).env.replanDue = true ∧ (env fun e => { e with replanDue := true }).plannerUp = true
    ∧ (env fun e => { e with replanDue := true, waiting := [0, 95], placed := [(0, 9)] }).env.waiting = 0 :: [95]
    ∧ (({ bay0 (fun b => { b with st := .on, measure := some 0 }) with cal := { field.cal with tick := 1024 } } : State).bayAt 0).measure = some 0
    ∧ 0 ≤ (3 * (100 : Int) + pointMean 160 1 0 + 2) / 4 ∧ (3 * (100 : Int) + pointMean 160 1 0 + 2) / 4 < 65536 := by
  decide +kernel

/-- Bay 0's start, of no draw, fits at the first tick after now: no bay draws, no reserve is kept, and MAIN is enough. -/
theorem witness_GuardAndPlanner_fits : (env fun e => { e with replanDue := true, waiting := [0] }).fits [] 0 [] [] 1 = true := by
  decide +kernel

/-! ### Witnesses of the scanner, the panel and JTAG -/

def scans (r : Option ScanRun) : State := { field with keys := { field.keys with run := r } }
def frame0 : ScanRun := { contacts := Vector.replicate 64 0#32, step := 0, events := [], stalled := false, finished := false }
def keyItem (t : Nat) : State := field.modSow fun w => { w with store := [{ words := [header 0 0 0 t], q := 57, age := 0 }] }

theorem witness_Scanning : (scans none).keys.run = none ∧ (scans (some { frame0 with stalled := true })).keys.run.isSome = true
    ∧ (scans (some { frame0 with stalled := true })).scanRoom = true ∧ (scans (some { frame0 with finished := true })).keys.run.isSome = true
    ∧ field.keys.swapPend = false ∧ ({ field with keys := { field.keys with swapPend := true } } : State).keys.swapPend = true
    ∧ (((keyItem 0xC17F).sow.store.find? fun it => it.q = 57 && 0xC000 ≤ it.typ && it.typ < 0xC400).map fun it => fieldAt it.typ 0 9) = some 383
    ∧ (((keyItem 0xC39F).sow.store.find? fun it => it.q = 57 && 0xC000 ≤ it.typ && it.typ < 0xC400).map takesFace) = some true
    ∧ (keyItem 0xC39F).isUp .keys = true
    ∧ (((keyItem 0xC180).sow.store.find? fun it => it.q = 57 && 0xC000 ≤ it.typ && it.typ < 0xC400).map fun it => fieldAt it.typ 0 9) = some 384
    ∧ field.keys.evq = 57 ∧ (keyItem 0xC17F).sys.kst = .field := by decide +kernel

/-- A program of one step, row 0's lower columns; position 0 has differed `n` times in a row, its contact is closed, and the scanner
is armed or not. -/
def oneStep (arm : Bool) (n : Nat) : State :=
  { field with keys := { field.keys with run := none, bank0 := vset field.keys.bank0 0 0x500#11, counts := [(0, n)], armed := arm, post := arm
                                         deb := Vector.replicate 16 0#32 } }
def closed0 : Vector (BitVec 32) 16 := vset (Vector.replicate 16 0#32) 0 1#32
/-- Q57 holds as many items as its limit lets it. -/
def fullKeys (s : State) : State := s.modQue 57 fun x => { x with limit := 0 }

theorem witness_Scanning_step : (vget (oneStep true 3).keys.program 0).getLsbD 10 = true ∧ (oneStep true 3).keys.swapPend = false
    ∧ ((oneStep true 3).keys.sampleRow 0 (vget closed0 0) (stepCols 0x500#11)).2 = [(0, true)]
    ∧ ((oneStep true 2).keys.sampleRow 0 (vget closed0 0) (stepCols 0x500#11)).2 = []
    ∧ (oneStep true 3).scanRoom = true ∧ (fullKeys (oneStep true 3)).scanRoom = false ∧ (oneStep false 3).keys.post = false
    ∧ (oneStep true 3).keys.count 0 = 3 ∧ ((oneStep true 3).keys.deb[0]).getLsbD 0 = false
    ∧ (scans (some { frame0 with stalled := true, finished := true, events := [(511, false)] })).scanRoom = true := by decide +kernel

def shown (d : Option Display) : State := { field with face := { field.face with keypad := d, started := true }, cal := { field.cal with tick := 320 } }
def turnedOn : State := { field with keys := { field.keys with pubDeb := vset field.keys.pubDeb 12 0x200000#32 } }

theorem witness_PanelAndFace : field.sys.inReset = false ∧ field.isUp .keys = true ∧ (field.bayAt 0).locate = none
    ∧ (late.bayAt 95).locate.isSome = true ∧ late.isUp .keys = true ∧ latchUp.sys.kst ≠ .field ∧ latchUp.isUp .keys = true ∧ field.sys.kst = .field
    ∧ entryOf [9, 5] = 95 ∧ entryOf [9, 6] = 96 ∧ entryOf [1, 5] = 15 ∧ entryOf [1, 6] = 16 ∧ (shown (some (.bay 95))).shownNow = .bay 95
    ∧ (shown (some (.tenancy 15))).shownNow = .tenancy 15 ∧ latchUp.sys.wakePend = [] ∧ field.turned = false ∧ turnedOn.turned = true
    ∧ turnedOn.canAccept 0 = true ∧ (shown (some .err)).face.errTick + 64 ≤ (shown (some .err)).cal.tick
    ∧ ({ field with face := { field.face with pend := true } } : State).face.pend = true ∧ (shown none).face.started = true
    ∧ (shown none).face.autoTick + 320 ≤ (shown none).cal.tick := by decide +kernel

/-- Thread 24 has been parked by BREAK. -/
def broken : State := field.modTh 24 fun h => { h with st := .faulted, trap := 15 }

/-- A scan for a debug access, with which the register is captured. -/
def scanning (i : Jtag) (a : Word) : State := { field with jtag := { field.jtag with ir := i.code, irOut := 1#6, dbgReset := false } }.scanDbg .data false a

theorem witness_JtagInstructions : State.reset.sys.fieldEn = false ∧ field.sys.fieldEn = true ∧ field.sys.inReset = false
    ∧ field.jtag.breakTid < 128 ∧ ((scanning .dbgRead 0#32).dbgPeek .data false 0).1 = some 0#32
    ∧ ((scanning .dbgRead 2#32).dbgPeek .data false 2).1 = none ∧ ((scanning .dbgWrite 0#32).dbgPoke .data false 0 1#32).isSome = true
    ∧ (scanning .dbgWrite 2#32).dbgPoke .data false 2 1#32 = none ∧ (broken.th 24).st = .faulted
    ∧ (broken.th 24).trap = 15 ∧ State.reset.jtag.dbgReset = false ∧ field.jtag.running = false
    ∧ 0x24#6 ∉ [Jtag.extest, .sample, .dbgStatus, .dbgRead, .dbgWrite, .dbgResume, .dbgReset, .bypass].map Jtag.code := by decide +kernel

end Sys2Proof.Tests
end

/-! SUPPORT. The statements of the scope: what each register port reads and writes, and that every command answers. A register
access is settled in two lemmas: what serves the access (`State.outPort_eq`, `State.inPort_eq`), then what the port does. -/

namespace Sys2Proof.Machine

/-! ### Words and bits -/

@[simp] theorem wordOf_toNat (w : Word) : wordOf w.toNat = w := by simp [wordOf]

@[simp] theorem bitAt_toNat {n : Nat} (w : BitVec n) (i : Nat) : bitAt w.toNat i = w.getLsbD i := by
  rw [BitVec.getLsbD, Nat.testBit_eq_decide_div_mod_eq, bitAt]

/-! ### Ports and the domain they lie in -/

theorem latchPort_system {p : Nat} (h : p < 0x40) : latchPort p = true := by simp [latchPort, h]

/-- A port of the latch domain is never dark. -/
theorem State.portDark_latchPort (s : State) (k : Nat) {p : Nat} (h : latchPort p = true) : s.portDark k p = false := by
  simp [State.portDark, fieldPort, h]

/-- No port is dark while the field is up. -/
theorem State.portDark_fieldUp {s : State} (h : s.sys.fieldUp = true) (k p : Nat) : s.portDark k p = false := by
  simp [State.portDark, h]

/-- LC's transfers leave the round robin (R54). -/
@[simp] theorem State.granted_lc (s : State) : s.granted 6 = s := rfl

/-- The round robin is all that a grant moves. -/
theorem State.granted_eq (s : State) (k : Nat) : s.granted k = { s with hng := (s.granted k).hng } := by
  unfold State.granted
  split <;> rfl

/-- The state in which core `k`'s access of port `p` is served: a transfer has been granted where the access is one (R50, R54). -/
def State.crossed (s : State) (k p : Nat) : State := if hingePort k p then s.granted k else s

/-- The hinge is all that serving an access may change before the port does. -/
theorem State.crossed_eq (s : State) (k p : Nat) : s.crossed k p = { s with hng := (s.crossed k p).hng } := by
  unfold State.crossed
  split
  · exact s.granted_eq k
  · rfl

@[simp] theorem State.crossed_sys (s : State) (k p : Nat) : (s.crossed k p).sys = s.sys := by rw [State.crossed_eq]
@[simp] theorem State.crossed_env (s : State) (k p : Nat) : (s.crossed k p).env = s.env := by rw [State.crossed_eq]
@[simp] theorem State.crossed_spi (s : State) (k p : Nat) : (s.crossed k p).spi = s.spi := by rw [State.crossed_eq]
@[simp] theorem State.crossed_mems (s : State) (k p : Nat) : (s.crossed k p).mems = s.mems := by rw [State.crossed_eq]

@[simp] theorem State.crossed_lc (s : State) (p : Nat) : s.crossed 6 p = s := by simp [State.crossed]

/-- A write of a port that is not dark is the port's write. -/
theorem State.outPort_eq {s : State} {k p : Nat} (h : s.portDark k p = false) (t : Nat) (w : Word) :
    s.outPort k t p w = (s.crossed k p).writePort k t p w := by simp [State.outPort, State.crossed, h]

/-- A read of a port that is not dark is the port's read. -/
theorem State.inPort_eq {s : State} {k p : Nat} (h : s.portDark k p = false) (t : Nat) :
    s.inPort k t p = (wordOf ((s.crossed k p).readPort k t p).1, ((s.crossed k p).readPort k t p).2) := by
  simp [State.inPort, State.crossed, h]

/-- A write by a side that reaches the port is the port's write, after the earlier port writes of its core. -/
theorem Reaches.wroteOf_eq {s : State} {who : Who} {p : Nat} {v : State → Nat} (h : Reaches s who p true) :
    s.wroteOf who p v = ((s.drained who).crossed (coreOfWho who) p).writePort (coreOfWho who)
      (s.accessor (coreOfWho who)) p (wordOf (v (s.drained who))) := by
  rw [h.wroteOf, State.outPort_eq h.2.1]

/-! ### The system block -/

theorem State.outPort_system {p : Nat} (hp : p < 0x40) (s : State) (k t : Nat) (w : Word) :
    s.outPort k t p w = (s.crossed k p).writeSystem k p w.toNat := by
  rw [State.outPort_eq (s.portDark_latchPort k (latchPort_system hp)), State.writePort, if_pos hp]

theorem State.inPort_system {p : Nat} (hp : p < 0x40) (s : State) (k t : Nat) :
    s.inPort k t p = (wordOf ((s.crossed k p).readSystem p).1, ((s.crossed k p).readSystem p).2) := by
  rw [State.inPort_eq (s.portDark_latchPort k (latchPort_system hp)), State.readPort, if_pos hp]

/-- SYS_STATUS reads as its table lists it. -/
theorem State.inPort_sysStatus (s : State) (k t : Nat) : (s.inPort k t 0).1 =
    BitVec.ofNat 32 (s.sys.kst.code + 4 * bitNat s.sys.fieldUp + 8 * bitNat s.sys.head
      + 16 * bitNat (s.sys.clamps ≠ 0#12)) := by
  rw [State.inPort_system (by decide)]
  simp [State.readSystem, State.sysStatus, wordOf]

/-- SYS_STATUS is RO. -/
theorem State.outPort_sysStatus (s : State) (k t : Nat) (w : Word) : s.outPort k t 0 w = s.crossed k 0 :=
  State.outPort_system (by decide) s k t w

/-- SYS_ALERT reads ASSERT in bit 0, PIN in bit 1, and 0 above. -/
theorem State.inPort_sysAlert (s : State) (k t : Nat) :
    (s.inPort k t 5).1.toNat < 4 ∧ (s.inPort k t 5).1.getLsbD 0 = s.sys.alert := by
  rw [State.inPort_system (by decide)]
  simp only [State.readSystem, State.readAlert, State.crossed_sys]
  cases hA : s.sys.alert with
  | true => simp [wordOf]
  | false =>
    simp only [Bool.false_eq_true, if_false]
    cases (Config.freeWord (s.crossed k 5).draw.1).getLsbD 0 <;> decide

/-- LC writes ASSERT of SYS_ALERT (R692). -/
theorem State.outPort_sysAlert_lc (s : State) (t : Nat) (w : Word) :
    s.outPort 6 t 5 w = s.modSys fun y => { y with alert := w.getLsbD 0 } := by
  rw [State.outPort_system (by decide)]
  simp [State.writeSystem]

/-- A field core's write of SYS_ALERT is ignored. -/
theorem State.outPort_sysAlert_fc (s : State) {k : Nat} (hk : k < 6) (t : Nat) (w : Word) :
    s.outPort k t 5 w = s.crossed k 5 := by
  rw [State.outPort_system (by decide)]
  simp [State.writeSystem, Nat.ne_of_lt hk]

/-- A system port that no table lists reads 0. -/
theorem State.inPort_system_unlisted {p : Nat} (hp : p < 0x40) (h : p ∉ [0, 1, 2, 3, 4, 5, 8, 9, 10]) (s : State) (k t : Nat) :
    (s.inPort k t p).1 = 0#32 := by
  rw [State.inPort_system hp]
  unfold State.readSystem
  split
  case h_10 => rfl
  all_goals simp at h

/-- A write of a system port that no table lists is ignored. -/
theorem State.outPort_system_unlisted {p : Nat} (hp : p < 0x40) (h : p ∉ [0, 1, 2, 3, 4, 5, 8, 9, 10]) (s : State) (k t : Nat)
    (w : Word) : s.outPort k t p w = s.crossed k p := by
  rw [State.outPort_system hp]
  unfold State.writeSystem
  split
  case h_5 => rfl
  all_goals simp at h

/-! ### HNG_HB -/

/-- EXPIRED of HNG_HB is W1C, for LC alone (R65). -/
theorem State.outPort_hngHb_lc {s : State} (hu : s.sys.fieldUp = true) (t : Nat) (w : Word) :
    s.outPort 6 t 0x104 w = s.modHng fun x => { x with expired := x.expired &&& ~~~ (w.setWidth 6) } := by
  rw [State.outPort_eq (State.portDark_fieldUp hu ..)]
  simp [State.writePort, hu, State.writeHinge, whoOf]

theorem State.outPort_hngHb_fc {s : State} (hu : s.sys.fieldUp = true) {k : Nat} (hk : k < 6) (t : Nat) (w : Word) :
    s.outPort k t 0x104 w = s.crossed k 0x104 := by
  rw [State.outPort_eq (State.portDark_fieldUp hu ..)]
  simp [State.writePort, hu, State.writeHinge, whoOf, hk]

/-! ### CON_RX -/

@[simp] theorem Console.flowChar_rx (x : Console) (b : Byte) : (x.flowChar b).rx = x.rx := by
  unfold Console.flowChar
  split
  · rfl
  · split <;> rfl

/-- The flow points leave the input store. -/
@[simp] theorem State.flowPoints_rx (s : State) : s.flowPoints.con.rx = s.con.rx := by
  unfold State.flowPoints
  dsimp only
  split
  · simp
  · split
    · simp
    · rfl

/-- Taking the oldest character leaves those behind it. -/
theorem State.readConRx_rx (s : State) : s.readConRx.con.rx = s.con.rx.drop 1 := by simp [State.readConRx]

theorem State.inPort_conRx (s : State) (t : Nat) :
    s.inPort 6 t 0x602 = (wordOf (s.readConsole 0x602).1, (s.readConsole 0x602).2) := by
  rw [State.inPort_eq (s.portDark_latchPort 6 (by decide)), State.crossed_lc]
  rfl

/-- CON_RX is RC: LC's read gives the oldest character with VALID, and takes it out of the store (R674). -/
theorem State.inPort_conRx_cons {s : State} {c : Byte} {l : List Byte} (h : s.con.rx = c :: l) (t : Nat) :
    (s.inPort 6 t 0x602).1 = BitVec.ofNat 32 (c.toNat + 256) ∧ (s.inPort 6 t 0x602).2.con.rx = l := by
  have hr : s.readConsole 0x602 = (c.toNat + 256, s.readConRx) := by simp [State.readConsole, h]
  rw [State.inPort_conRx, hr]
  exact ⟨rfl, by simp [State.readConRx_rx, h]⟩

/-- An empty store reads 0, without VALID. -/
theorem State.inPort_conRx_nil {s : State} (h : s.con.rx = []) (t : Nat) : s.inPort 6 t 0x602 = (0#32, s) := by
  have hr : s.readConsole 0x602 = (0, s) := by simp [State.readConsole, h]
  rw [State.inPort_conRx, hr]
  rfl

/-- A write of CON_RX is ignored. -/
theorem State.outPort_conRx (s : State) (t : Nat) (w : Word) : s.outPort 6 t 0x602 w = s := by
  rw [State.outPort_eq (s.portDark_latchPort 6 (by decide)), State.crossed_lc]
  rfl

/-! ### The envelope ports -/

/-- ENV_EVENTS is W1C (R455). -/
theorem State.outPort_envEvents {s : State} (hu : s.sys.fieldUp = true) (k t : Nat) (w : Word) :
    s.outPort k t 0x1704 w = (s.crossed k 0x1704).modEnv fun e =>
      { e with holdEv := e.holdEv && !w.getLsbD 0, shedEv := e.shedEv && !w.getLsbD 1, relEv := e.relEv && !w.getLsbD 2 } := by
  rw [State.outPort_eq (State.portDark_fieldUp hu ..)]
  simp [State.writePort, State.writeEnvPort]

/-- ENV_PEAK is RC (R455). -/
theorem State.inPort_envPeak {s : State} (hu : s.sys.fieldUp = true) (k t : Nat) :
    s.inPort k t 0x1705 = (BitVec.ofNat 32 (s.env.peakM + 65536 * s.env.peakA),
      (s.crossed k 0x1705).modEnv fun e => { e with peakM := 0, peakA := 0 }) := by
  rw [State.inPort_eq (State.portDark_fieldUp hu ..)]
  simp [State.readPort, State.readEnvPort, wordOf, Nat.mul_comm]

/-- A write of ENV_PEAK is ignored. -/
theorem State.outPort_envPeak {s : State} (hu : s.sys.fieldUp = true) (k t : Nat) (w : Word) :
    s.outPort k t 0x1705 w = s.crossed k 0x1705 := by
  rw [State.outPort_eq (State.portDark_fieldUp hu ..)]
  simp [State.writePort, State.writeEnvPort]

/-! ### The SPI port -/

/-- GO of a legal transfer, with the command that the port holds, makes the port busy with it (R676). -/
theorem Spi.write_go {x : Spi} (hj : x.job = none) (hc : x.cmd < 4) (hb : x.badGo = false) :
    x.write 0xB01 (wordOf (x.cmd + 256)).toNat = { x with job := some (x.addr, x.dest, x.len) } := by
  have hw : (wordOf (x.cmd + 256)).toNat = x.cmd + 256 := by simp [wordOf]; omega
  have hf : fieldAt (x.cmd + 256) 0 2 = x.cmd := by simp [fieldAt]; omega
  have hg : bitAt (x.cmd + 256) 8 = true := by simp [bitAt]; omega
  have hx : ({ x with cmd := x.cmd } : Spi).go = { x with job := some (x.addr, x.dest, x.len) } := by simp [Spi.go, hj, hb]
  simp only [Spi.write, hw, hf, hg, if_true, hx]

theorem State.writePort_spiCtl (s : State) (k t : Nat) (w : Word) :
    s.writePort k t 0xB01 w = s.modSpi fun x => x.write 0xB01 w.toNat := rfl

/-- A transfer of whole words to data SRAM is legal. -/
theorem Spi.badGo_dataSram {x : Spi} (h4 : 4 ≤ x.len) (hl : x.len ≤ 4096) (ha : x.len % 4 = 0) (hd : x.dest % 4 = 0)
    (hs : x.dest < 0x40000) : x.badGo = false := by
  simp [Spi.badGo, ha, hd, hs]; omega

/-- A word that the port stores goes to data SRAM or the Granary, not to plot RAM or the latch memory. -/
theorem State.writeData_spiPlace {b : Nat} {x : DataAt} (h : spiPlace b = some x) (s : State) (n v : Nat) :
    (s.writeData x n v).mems.plotRam = s.mems.plotRam ∧ (s.writeData x n v).mems.latch = s.mems.latch := by
  unfold spiPlace at h
  split at h
  · cases h; exact ⟨rfl, rfl⟩
  · split at h
    · cases h; exact ⟨rfl, rfl⟩
    · cases h

/-- No word of a transfer reaches plot RAM or the latch memory. -/
theorem State.spiMove_frame (n : Nat) (s : State) (d a b : Nat) :
    (s.spiMove d a b n).mems.plotRam = s.mems.plotRam ∧ (s.spiMove d a b n).mems.latch = s.mems.latch := by
  induction n generalizing s a b with
  | zero => exact ⟨rfl, rfl⟩
  | succ n ih =>
    unfold State.spiMove
    dsimp only
    split
    next x hx =>
      have hw (v : Nat) := State.writeData_spiPlace hx s 4 v
      exact ⟨(ih ..).1.trans (hw _).1, (ih ..).2.trans (hw _).2⟩
    next => exact ih ..

/-- The end of a transfer sets DONE (R676). -/
theorem State.spiEnds_of_busy {s : State} (h : s.spi.job.isSome = true) :
    s.spiEnds.spi.job = none ∧ s.spiEnds.spi.done = true ∧ s.spiEnds.mems.plotRam = s.mems.plotRam
      ∧ s.spiEnds.mems.latch = s.mems.latch := by
  obtain ⟨⟨a, b, n⟩, hj⟩ := Option.isSome_iff_exists.mp h
  simp only [State.spiEnds, hj]
  exact ⟨rfl, rfl, State.spiMove_frame (n / 4) s.draw.2 s.draw.1 a b⟩

/-! ### The commands -/

theorem exec_registerWrite {s : State} {who : Who} {p : BitVec 16} (h : Reaches s who p.toNat true) (v : Word) :
    exec (.registerWrite who p v) s = .next (((s.drained who).crossed (coreOfWho who) p.toNat).writePort (coreOfWho who)
      (s.accessor (coreOfWho who)) p.toNat v) := by
  change goOn (s.wrote who p.toNat v.toNat) = _
  rw [State.wrote, h.wroteOf_eq, wordOf_toNat]
  rfl

theorem exec_alertWrite {s : State} (h : Reaches s .lc 5 true) (b : Bool) :
    exec (.alertWrite b) s = .next ((s.drained .lc).modSys fun y => { y with alert := b }) := by
  change goOn (s.wrote .lc 5 (bitNat b)) = _
  have hb : (wordOf (bitNat b)).getLsbD 0 = b := by cases b <;> rfl
  rw [h.wrote]
  change goOn ((s.drained .lc).outPort 6 _ 5 _) = _
  rw [State.outPort_sysAlert_lc, hb]
  rfl

theorem exec_spiGo {s : State} {who : Who} (h : Reaches s who 0xB01 true) (hj : (s.drained who).spi.job = none)
    (hc : (s.drained who).spi.cmd < 4) (hb : (s.drained who).spi.badGo = false) :
    exec (.spiGo who) s = .next (((s.drained who).crossed (coreOfWho who) 0xB01).modSpi fun x =>
      { x with job := some (x.addr, x.dest, x.len) }) := by
  change goOn (s.wroteOf who 0xB01 fun d => d.spi.cmd + 256) = _
  rw [h.wroteOf_eq, State.writePort_spiCtl]
  simp [goOn, State.modSpi, Spi.write_go hj hc hb]

theorem exec_spiDone {s : State} (hr : s.sys.inReset = false) (hu : s.sys.fieldUp = true) :
    exec .spiDone s = .next s.spiEnds := by
  change onField s State.spiEnds = _
  simp [onField, goOn, hr, hu]

/-- The oldest write of a core's buffer takes effect as a write of its port by that core (R554). -/
theorem exec_portWriteDrain {s : State} {k : Fin 6} {p : BitVec 16} {v : Word} {l : List (BitVec 16 × Word)}
    (hr : s.sys.inReset = false) (hu : s.sys.fieldUp = true) (hb : (s.core k.val).wbuf = (p, v) :: l) :
    exec (.portWriteDrain k) s = .next ((s.modCore k.val fun c => { c with wbuf := l }).outPort k.val k.val p.toNat v) := by
  change onField s (fun s => s.drainOne k.val) = _
  simp [onField, goOn, hr, hu, State.drainOne, hb]

/-- Settles O36: the accesses are those of a side that reaches its port; the codes are the ports' own reads and writes. -/
theorem otherPorts : Obligations.OtherPorts := by
  refine ⟨fun s who p v b => ?accesses, fun s k t p w => ?codes⟩
  case accesses =>
    refine ⟨fun h => exec_registerWrite h v, fun h => exec_alertWrite h b, ?go, ?done, ?drain⟩
    case go =>
      intro h hj hc h4 hl ha hd hs
      exact ⟨_, exec_spiGo h hj hc (Spi.badGo_dataSram h4 hl ha hd hs), by simp [State.modSpi], by simp [State.modSpi]⟩
    case done => exact fun hr hu hj => ⟨_, exec_spiDone hr hu, State.spiEnds_of_busy hj⟩
    case drain => exact fun k l hr hu hb => exec_portWriteDrain hr hu hb
  case codes =>
    obtain ⟨halert, hassert⟩ := s.inPort_sysAlert k t
    refine ⟨s.inPort_sysStatus k t, s.outPort_sysStatus k t w, halert, hassert, s.outPort_sysAlert_lc t w,
      fun hk => s.outPort_sysAlert_fc hk t w,
      fun hu => ⟨State.outPort_hngHb_lc hu t w, fun hk => State.outPort_hngHb_fc hu hk t w⟩,
      fun c l h => State.inPort_conRx_cons h t, fun h => State.inPort_conRx_nil h t, s.outPort_conRx t w,
      fun hu => ⟨State.outPort_envEvents hu k t w, State.inPort_envPeak hu k t, State.outPort_envPeak hu k t w⟩,
      fun hp hn => ⟨State.inPort_system_unlisted hp hn s k t, State.outPort_system_unlisted hp hn s k t w⟩⟩

/-! ### Every command answers -/

theorem completes_goOn (s : State) : Completes (goOn s) := ⟨s, rfl⟩

/-- Settles O2: the meaning of each command is `goOn` of a state, which no arm of the dispatch withholds. -/
theorem everyCommandAnswers : Obligations.EveryCommandAnswers := by
  intro c s
  cases c
  all_goals exact completes_goOn _

end Sys2Proof.Machine

/-! SUPPORT. The statements of one clock and two states: what CMD STOP and CMD START do, the steps of a WAKE, the field
functions in their order, the fall of the field, the hinge, and a core fault. -/

namespace Sys2Proof.Machine

/-! ### Folds over states -/

/-- What every step of a fold leaves, the fold leaves. -/
theorem foldl_frame {α β γ : Type} (π : α → γ) {f : α → β → α} (h : ∀ a x, π (f a x) = π a) (l : List β) (a : α) :
    π (l.foldl f a) = π a := by
  induction l generalizing a with
  | nil => rfl
  | cons x l ih => exact (ih _).trans (h a x)

/-- What every step keeps and the step of `x` brings about holds after a fold over a list with `x` in it. -/
theorem foldl_reaches {α β : Type} {P : α → Prop} {f : α → β → α} {x : β} {l : List β} (h : x ∈ l) (hx : ∀ a, P (f a x))
    (hf : ∀ y ∈ l, ∀ a, P a → P (f a y)) (a : α) : P (l.foldl f a) := by
  obtain ⟨l₁, l₂, rfl⟩ := List.append_of_mem h
  rw [List.foldl_append, List.foldl_cons]
  exact List.foldlRecOn l₂ f (hx _) fun b hb y hy => hf y (by simp [hy]) b hb

/-! ### The trace -/

/-- An entry of the trace touches the trace memory, its time stamp and the count of missed entries, and draws a free value. -/
theorem State.trace_eq (s : State) (k event t q flow detail : Nat) :
    s.trace k event t q flow detail =
      { s with sys := { s.sys with draws := (s.trace k event t q flow detail).sys.draws }
               sow := { s.sow with
                 trace := (s.trace k event t q flow detail).sow.trace
                 trMissed := (s.trace k event t q flow detail).sow.trMissed
                 stampTime := (s.trace k event t q flow detail).sow.stampTime } } := by
  unfold State.trace
  dsimp only
  split
  · rfl
  · split
    · rfl
    · split
      · rfl
      · split <;> rfl

section
variable (s : State) (k event t q flow detail : Nat)

@[simp] theorem State.trace_th (x : Nat) : (s.trace k event t q flow detail).th x = s.th x := by rw [State.trace_eq]; rfl
@[simp] theorem State.trace_core (x : Nat) : (s.trace k event t q flow detail).core x = s.core x := by
  rw [State.trace_eq]; rfl
@[simp] theorem State.trace_claims : (s.trace k event t q flow detail).sow.claims = s.sow.claims := by rw [State.trace_eq]

end

/-! ### What the Sower's operations leave of cores, threads and claims -/

@[simp] theorem State.raised_core (s : State) (q k : Nat) : (s.raised q).core k = s.core k := by
  unfold State.raised
  split <;> rfl

@[simp] theorem State.visible_core (s : State) (q : Nat) (w : List Word) (k : Nat) : (s.visible q w).core k = s.core k :=
  State.raised_core ..

@[simp] theorem State.await_core (s : State) (q : Nat) (c : Claimant) (k : Nat) : (s.await q c).core k = s.core k := rfl

@[simp] theorem State.dropOpen_core (s : State) (t k : Nat) : (s.dropOpen t).core k = s.core k := rfl

@[simp] theorem State.dropHeld_core (s : State) (t k : Nat) : (s.dropHeld t).core k = s.core k := rfl

@[simp] theorem State.fence_core (s : State) (t k : Nat) (parked : Bool) (j : Nat) :
    (s.fence t k parked).core j = s.core j := by
  have hd : ∀ u : State, (if parked then u else u.dropHeld t).core j = u.core j := fun u => by split <;> rfl
  unfold State.fence
  dsimp only
  split
  · exact hd _
  · split
    · exact hd _
    · exact (State.trace_core ..).trans (hd _)

@[simp] theorem State.caught_core (s : State) (t k : Nat) : (s.caught t).core k = s.core k := by
  unfold State.caught
  dsimp only
  split
  · rfl
  · split <;> rfl

/-- Core `j` after an update of core `k`. -/
theorem State.core_modCore (s : State) (k j : Nat) (f : Core → Core) :
    (s.modCore k f).core j = if k = j ∧ k < 7 then f (s.core j) else s.core j := by
  by_cases h : k = j
  · subst h
    simp [State.core, State.modCore, vmod, vget_vset]
  · simp [h, State.core_modCore_ne]

/-- There is no core beyond the seventh: it runs nothing, and nothing stands by on it. -/
theorem State.core_of_ge (s : State) {k : Nat} (h : 7 ≤ k) : (s.core k).run = none ∧ (s.core k).standby = none := by
  have hd : s.core k = default := by simp [State.core, vget, h]
  rw [hd]
  exact ⟨rfl, rfl⟩

/-- A freed core runs no thread; the others run theirs. -/
theorem State.freeCore_run (s : State) (k j : Nat) :
    ((s.freeCore k).core j).run = if j = k then none else (s.core j).run := by
  have hc : ∀ b : Core → List Nat, ((s.modCore k fun c => { c with run := none, leftBy := b c }).core j).run
      = if j = k then none else (s.core j).run := by
    intro b
    rw [State.core_modCore]
    by_cases h : j = k
    · by_cases h7 : k < 7
      · simp [h, h7]
      · simp [h, h7, State.core_of_ge s (Nat.le_of_not_lt h7)]
    · simp [h, Ne.symm h]
  unfold State.freeCore
  split <;> exact hc _

@[simp] theorem State.freeCore_threads (s : State) (k : Nat) : (s.freeCore k).sow.threads = s.sow.threads := by
  unfold State.freeCore
  split <;> rfl

@[simp] theorem State.freeCore_claims (s : State) (k : Nat) : (s.freeCore k).sow.claims = s.sow.claims := by
  unfold State.freeCore
  split <;> rfl

/-- A core that runs no thread more keeps its standby slot. -/
@[simp] theorem State.freeCore_standby (s : State) (k j : Nat) : ((s.freeCore k).core j).standby = (s.core j).standby := by
  have hc : ∀ b : Core → List Nat, ((s.modCore k fun c => { c with run := none, leftBy := b c }).core j).standby = (s.core j).standby := by
    intro b
    rw [State.core_modCore]
    split <;> rfl
  unfold State.freeCore
  split <;> exact hc _

/-- A cancelled prefetch empties its standby slot and leaves the others. -/
theorem State.unprefetch_standby (s : State) (k at_ cause : Nat) (discard : Bool) (j : Nat) :
    ((s.unprefetch k at_ cause discard).core j).standby = if j = k then none else (s.core j).standby := by
  unfold State.unprefetch
  split
  case h_1 hn =>
    split
    case isTrue h => rw [h, hn]
    case isFalse => rfl
  case h_2 t ht =>
    have h7 : k < 7 := by
      by_contra hge
      simp [State.core_of_ge s (Nat.le_of_not_lt hge)] at ht
    have hslot : ∀ (u : State) (g : Core → Core), u.core j = s.core j → (∀ c, (g c).standby = none) →
        ((u.modCore k g).core j).standby = if j = k then none else (s.core j).standby := by
      intro u g hu hg
      rw [State.core_modCore, hu]
      by_cases h : j = k
      · rw [if_pos ⟨h.symm, h7⟩, if_pos h, hg]
      · rw [if_neg fun hk => h hk.1.symm, if_neg h]
    have hstore : ∀ (u : State) (f : List Item → List Item),
        (u.modSow fun w => { w with store := f w.store }).core j = u.core j := fun _ _ => rfl
    dsimp only
    split
    · rw [State.core_modTh]
      exact hslot _ _ (State.trace_core ..) fun _ => rfl
    · split
      · split
        · rw [State.core_modTh]
          exact hslot _ _ (State.trace_core ..) fun _ => rfl
        · rw [State.raised_core, hstore, State.core_modTh]
          exact hslot _ _ (State.trace_core ..) fun _ => rfl
      · rw [State.core_modTh]
        exact hslot _ _ (State.trace_core ..) fun _ => rfl

/-! ### A thread that stands by nowhere -/

/-- Thread `t` stands by on no core. -/
def State.NoStandby (s : State) (t : Nat) : Prop := ∀ k, (s.core k).standby ≠ some t

theorem State.NoStandby.of_core {s u : State} {t : Nat} (h : s.NoStandby t)
    (hu : ∀ k, (u.core k).standby = (s.core k).standby) : u.NoStandby t := fun k => by
  rw [hu]
  exact h k

theorem State.NoStandby.unprefetch {s : State} {t : Nat} (h : s.NoStandby t) (k at_ cause : Nat) (discard : Bool) :
    (s.unprefetch k at_ cause discard).NoStandby t := by
  intro j
  rw [State.unprefetch_standby]
  split
  · simp
  · exact h j

theorem State.NoStandby.stopCore {s : State} {t : Nat} (h : s.NoStandby t) (k : Nat) : (s.stopCore k).NoStandby t := by
  have hstop : ((s.unprefetch k k 3 false).modCore k fun c => { c with stopped := true, halting := false }).NoStandby t := by
    refine (h.unprefetch k k 3 false).of_core fun j => ?_
    rw [State.core_modCore]
    split <;> rfl
  unfold State.stopCore
  dsimp only
  split
  · exact hstop
  · exact hstop.of_core fun j => by simp

theorem State.NoStandby.faultItem {s : State} {t : Nat} (h : s.NoStandby t) (k q : Nat) (w : List Word) :
    (s.faultItem k q w).NoStandby t := by
  unfold State.faultItem
  split
  · exact h.of_core fun j => by simp
  · split
    · exact h.of_core fun j => rfl
    · exact (h.stopCore k).of_core fun j => rfl

theorem State.NoStandby.trap {s : State} {t : Nat} (h : s.NoStandby t) (x k code pc save : Nat) (d : Word) :
    (s.trap x k code pc save d).NoStandby t := by
  unfold State.trap
  dsimp only
  refine State.NoStandby.faultItem ?_ _ _ _
  split
  · exact h.of_core fun j => (State.freeCore_standby ..).trans (by simp)
  · exact h.of_core fun j => by simp

/-- Results that complete, a trap of one included, put no thread into a standby slot. -/
theorem State.NoStandby.landList {s : State} {t : Nat} (h : s.NoStandby t) (k x : Nat) (l : List Inter) :
    (s.landList k x l).1.NoStandby t := by
  induction l generalizing s with
  | nil => exact h
  | cons i l ih =>
    unfold State.landList
    dsimp only
    split
    · exact h.trap _ _ _ _ _ _
    · exact ih (h.of_core fun _ => rfl)

/-- A thread whose prefetches are cancelled on every core stands by on none. -/
theorem State.leaveSlots_noStandby (s : State) (t at_ : Nat) : (s.leaveSlots t at_).NoStandby t := by
  intro k
  have hstep : ∀ (u : State) (n : Nat), k = n ∨ (u.core k).standby ≠ some t →
      ((if (u.core n).standby = some t then u.unprefetch n at_ 3 false else u).core k).standby ≠ some t := by
    intro u n h
    split
    next hn =>
      rw [State.unprefetch_standby]
      split
      · simp
      · next hkn => exact h.resolve_left hkn
    next hn => exact h.elim (fun hk => hk ▸ hn) id
  by_cases h7 : k < 7
  · unfold State.leaveSlots
    exact foldl_reaches (P := fun u : State => (u.core k).standby ≠ some t) (List.mem_range.mpr h7)
      (fun u => hstep u k (.inl rfl)) (fun n _ u hu => hstep u n (.inr hu)) s
  · simp [State.core_of_ge _ (Nat.le_of_not_lt h7)]

/-- A thread that has left every core runs on none. -/
theorem State.leaveCores_run (s : State) (t k : Nat) : ((s.leaveCores t).core k).run ≠ some t := by
  have hstep : ∀ (u : State) (n : Nat), k = n ∨ (u.core k).run ≠ some t →
      ((if (u.core n).run = some t then u.freeCore n else u).core k).run ≠ some t := by
    intro u n h
    split
    next hn =>
      rw [State.freeCore_run]
      split
      · simp
      · next hkn => exact h.resolve_left hkn
    next hn => exact h.elim (fun hk => hk ▸ hn) id
  by_cases h7 : k < 7
  · unfold State.leaveCores
    exact foldl_reaches (P := fun u : State => (u.core k).run ≠ some t) (List.mem_range.mpr h7)
      (fun u => hstep u k (.inl rfl)) (fun n _ u hu => hstep u n (.inr hu)) s
  · simp [State.core_of_ge _ (Nat.le_of_not_lt h7)]

/-- The standby slots, the threads and the claims stand as a thread leaves the cores. -/
theorem State.leaveCores_frame (s : State) (t : Nat) : (∀ k, ((s.leaveCores t).core k).standby = (s.core k).standby)
    ∧ (s.leaveCores t).sow.threads = s.sow.threads ∧ (s.leaveCores t).sow.claims = s.sow.claims := by
  unfold State.leaveCores
  refine ⟨fun k => foldl_frame (fun u : State => (u.core k).standby) ?_ _ _,
    foldl_frame (fun u : State => u.sow.threads) ?_ _ _, foldl_frame (fun u : State => u.sow.claims) ?_ _ _⟩
  all_goals
    intro u n
    split <;> simp

/-! ### CMD STOP and CMD START -/

/-- Nothing of thread `t` is outstanding: no open item, no delayed result, no claim. -/
def State.Quit (s : State) (t : Nat) : Prop :=
  (s.th t).openItem = none ∧ (s.th t).wait = none ∧ (s.th t).delayed = [] ∧ ∀ q, (q, Claimant.thread t) ∉ s.sow.claims

/-- Thread `t` is STOPPED, without item or anything outstanding, and neither runs nor stands by on a core (R614). -/
def State.Off (s : State) (t : Nat) : Prop :=
  (s.th t).st = .stopped ∧ (s.th t).item = none ∧ s.Quit t ∧ (∀ k, (s.core k).run ≠ some t) ∧ s.NoStandby t

theorem State.dropOpen_quit (s : State) {t : Nat} (ht : t < 128) : ((s.modTh t Thread.settle).dropOpen t).Quit t := by
  refine ⟨?_, ?_, ?_, fun q => ?_⟩
  all_goals simp [State.dropOpen, State.th, State.modTh, State.modSow, ht, Thread.settle]

/-- The end of a thread's service leaves its context but for its item, the cores and the claims. -/
theorem State.dropItem_spec (s : State) {t : Nat} (ht : t < 128) :
    (s.dropItem t).th t = { s.th t with item := none, yieldAge := none, resumed := false }
      ∧ (∀ k, (s.dropItem t).core k = s.core k) ∧ (s.dropItem t).sow.claims = s.sow.claims := by
  have hth : ((s.modTh t fun h => { h with item := none, yieldAge := none, resumed := false }).dropHeld t).th t
      = { s.th t with item := none, yieldAge := none, resumed := false } := State.th_modTh_self s t _ ht
  unfold State.dropItem
  dsimp only
  split
  · exact ⟨hth, fun _ => rfl, rfl⟩
  · exact ⟨hth, fun _ => rfl, rfl⟩

/-- What a thread leaves that has left the cores, ends its service and becomes STOPPED. -/
theorem State.Quit.off {s : State} {t : Nat} (ht : t < 128) (hq : s.Quit t) (hn : s.NoStandby t) :
    (((s.leaveCores t).dropItem t).modTh t fun h => { h with st := .stopped, stopping := false }).Off t := by
  obtain ⟨hsb, hth, hcl⟩ := s.leaveCores_frame t
  obtain ⟨hith, hicore, hicl⟩ := (s.leaveCores t).dropItem_spec ht
  have hrun := s.leaveCores_run t
  obtain ⟨hopen, hwait, hdel, hclaims⟩ := hq
  have hlth : (s.leaveCores t).th t = s.th t := congrArg (vget · t) hth
  generalize (s.leaveCores t).dropItem t = w at hith hicore hicl
  rw [hlth] at hith
  simp only [State.Off, State.Quit, State.th_modTh_self _ _ _ ht, hith, State.core_modTh]
  refine ⟨trivial, trivial, ⟨hopen, hwait, hdel, fun q => ?_⟩, fun k => ?_, fun k => ?_⟩
  · change _ ∉ w.sow.claims
    rw [hicl, hcl]
    exact hclaims q
  · rw [hicore]
    exact hrun k
  · rw [State.core_modTh, hicore, hsb]
    exact hn k

/-- An entry of the trace leaves what is outstanding of a thread, and its standby slots. -/
theorem State.Quit.trace {s : State} {t : Nat} (hq : s.Quit t) (k event u q flow detail : Nat) :
    (s.trace k event u q flow detail).Quit t := by
  simpa [State.Quit] using hq

/-- CMD STOP at an instruction boundary (R614). -/
theorem State.stopNow_off (s : State) (at_ : Nat) {t : Nat} (ht : t < 128) : (s.stopNow t at_).Off t := by
  have hslots := s.leaveSlots_noStandby t at_
  unfold State.stopNow
  extract_lets a k b c h d
  have hb : b.NoStandby t := by
    unfold b
    split
    · exact hslots.landList _ _ _
    · exact hslots
  have hc : c.NoStandby t := hb.of_core fun k => by simp [c]
  have hq : c.Quit t := b.dropOpen_quit ht
  clear_value c
  have hd : d.Quit t ∧ d.NoStandby t := by
    unfold d
    split
    · exact ⟨hq.trace _ _ _ _ _ _, hc.of_core fun _ => by simp⟩
    · exact ⟨hq, hc⟩
  clear_value d
  exact hd.1.off ht hd.2

theorem exec_threadStop {s : State} {t : Tid} (h : s.reachT t.val = true) :
    exec (.threadStop t) s = .next (s.stopThread t.val 6) := by
  change goOn _ = _
  rw [if_pos h]
  rfl

theorem exec_threadStart {s : State} {t : Tid} (h : s.reachT t.val = true) :
    exec (.threadStart t) s = .next (s.startThread t.val) := by
  change goOn _ = _
  rw [if_pos h]
  rfl

/-- Settles O30: CMD STOP waits for a hinge access or takes effect at once; CMD START restarts what no BREAK has parked. -/
theorem stopAndStart : Obligations.StopAndStart := by
  intro s t hreach
  rw [exec_threadStop hreach, exec_threadStart hreach]
  refine ⟨fun hst hmid => ?waits, fun hst hmid => ?stops, fun hst => ?stopped, ?starts⟩
  case waits => rw [State.stopThread, if_neg hst, if_pos hmid]
  case stops =>
    obtain ⟨hs, hi, ⟨ho, hw, hd, hc⟩, hr, hsb⟩ := s.stopNow_off 6 t.isLt
    refine ⟨_, rfl, ?_⟩
    rw [State.stopThread, if_neg hst, if_neg (by simp [hmid])]
    exact ⟨hs, hi, ho, hw, hd, hc, fun k => ⟨hr k.val, hsb k.val⟩⟩
  case stopped => rw [State.stopThread, if_pos hst]
  case starts => simp [State.startThread]

/-! ### The steps of a WAKE -/

/-- Step 1 serves every cause that has asked (R35, R41). -/
theorem exec_wakeStart {s : State} {c : WakeCause} {l : List WakeCause} (hr : s.sys.inReset = false) (hk : s.sys.kst = .latch)
    (hh : s.sys.enHold = false) (hj : s.jtag.ins ≠ .extest) (hp : s.sys.wakePend = c :: l) :
    exec .wakeStart s = .next (((s.modSys fun y =>
      { y with fieldEn := true, kst := .waking, wakeCause := y.wakePend, wakePend := [], nextFieldCause := 1 }).accrue
        s.cal.tick c.ten 3 1).runDue) := by
  have hready : s.wakeReady = some c := by simp [State.wakeReady, hr, hk, hh, hj, hp]
  change execWakeStart s = _
  simp [execWakeStart, goOn, hready]

theorem exec_fieldEnHoldEnd {s : State} (h : s.sys.fieldEn = false) :
    exec .fieldEnHoldEnd s = .next (s.modSys fun y => { y with enHold := false }) := by
  change execFieldEnHoldEnd s = _
  simp [execFieldEnHoldEnd, goOn, h]

theorem exec_fieldPgRise {s : State} (hk : s.sys.kst = .waking) (he : s.sys.fieldEn = true) (hp : s.sys.pll = .off) :
    exec .fieldPgRise s = .next (s.modSys fun y => { y with fieldPg := true, pll := .locking }) := by
  change execFieldPgRise s = _
  simp [execFieldPgRise, goOn, hk, he, hp]

section
variable {s : State} (hk : s.sys.kst = .waking) (hp : s.sys.pll = .locking)
include hk hp

theorem exec_fieldPgDropInLock : exec .fieldPgDropInLock s = .next (s.modSys fun y => { y with fieldPg := false, pll := .off }) := by
  change execFieldPgDropInLock s = _
  simp [execFieldPgDropInLock, goOn, hk, hp]

theorem exec_pllLock : exec .pllLock s = .next (s.modSys fun y => { y with pll := .locked, fastClk := true }) := by
  change execPllLock s = _
  simp [execPllLock, goOn, hk, hp]

theorem exec_pllNoLock : exec .pllNoLock s = .next (s.wakeFails 2 0x86) := by
  change execPllNoLock s = _
  simp [execPllNoLock, goOn, hk, hp]

end

theorem exec_fieldPgTimeout {s : State} (hk : s.sys.kst = .waking) (he : s.sys.fieldEn = true) (hp : s.sys.pll ≠ .locked) :
    exec .fieldPgTimeout s = .next (s.wakeFails 1 0x85) := by
  change execFieldPgTimeout s = _
  simp [execFieldPgTimeout, goOn, hk, he, hp]

theorem exec_fieldResetRelease {s : State} (hk : s.sys.kst = .waking) (hp : s.sys.pll = .locked) (hu : s.sys.fieldUp = false) :
    exec .fieldResetRelease s = .next s.releaseField := by
  change execFieldResetRelease s = _
  simp [execFieldResetRelease, goOn, hk, hp, hu]

/-- With the field off, a transfer that stays held is one of LC, and it has met the field reset (log 100). -/
theorem Hinge.mem_freed_waiting {x : Hinge} {y : Transfer} (h : y ∈ x.freed.waiting) : y.core = 6 ∧ y.dark = true := by
  simp only [Hinge.freed, List.mem_map, List.mem_filter, decide_eq_true_eq] at h
  obtain ⟨z, ⟨-, hz⟩, rfl⟩ := h
  exact ⟨hz, rfl⟩

theorem State.fieldOff_core (s : State) (k : Fin 6) : (s.fieldOff.core k.val).run = none := by
  have h7 : k.val < 7 := by omega
  simp [State.fieldOff, State.fieldReset, State.baysDark, State.core, Sower.fieldReset, vget, h7]

/-- The Sower at field reset release: the six field cores run their kernels from address 0, and no other field thread runs. -/
theorem Sower.fieldReset_thread (w : Sower) {t : Nat} (ht : t < 120) :
    vget (w.fieldReset true).threads t = Thread.fieldCold true t := by
  have h128 : t < 128 := by omega
  simp [Sower.fieldReset, vget, h128, ht]

theorem Sower.fieldReset_core (w : Sower) {k : Nat} (hk : k < 6) : (vget (w.fieldReset true).cores k).run = some k := by
  have h7 : k < 7 := by omega
  simp [Sower.fieldReset, vget, h7, hk]

/-- Answers that wait for a lock record wait on (R68). -/
theorem State.releaseField_bays (s : State) :
    s.releaseField.bays.unlocking = s.bays.unlocking ∧ s.releaseField.bays.lockNotes = s.bays.lockNotes := by
  unfold State.releaseField
  simp

/-- Settles O39: each step is its command's own effect; what field reset leaves is read off `State.fieldOff` and `State.releaseField`. -/
theorem wakeSteps : Obligations.WakeSteps := by
  intro s
  refine ⟨exec_fieldEnHoldEnd, ?start, exec_fieldPgRise, ?lock, exec_fieldPgTimeout, fun a b => ⟨_, rfl⟩, ?off, ?release⟩
  case start =>
    intro c l hr hk hh hj hp
    exact ⟨_, exec_wakeStart hr hk hh hj hp, rfl, rfl, hp, rfl, rfl, rfl, rfl⟩
  case lock => exact fun hk hp => ⟨exec_fieldPgDropInLock hk hp, exec_pllLock hk hp, exec_pllNoLock hk hp⟩
  case off =>
    refine ⟨rfl, rfl, rfl, rfl, rfl, s.fieldOff_core, rfl, rfl, rfl, rfl, rfl, fun x hx => ?_⟩
    obtain ⟨hcore, hdark⟩ := Hinge.mem_freed_waiting (x := s.hng) hx
    exact ⟨hcore, by simp [Transfer.lost, hdark]⟩
  case release =>
    intro hk hp hu
    refine ⟨_, exec_fieldResetRelease hk hp hu, rfl, rfl, rfl, fun k => ?_, fun j hj => ?_,
      rfl, rfl, rfl, rfl, rfl, rfl, rfl, rfl, s.releaseField_bays⟩
    · have hth : s.releaseField.th k.val = Thread.fieldCold true k.val := Sower.fieldReset_thread s.sow (by omega)
      refine ⟨Sower.fieldReset_core s.sow k.isLt, ?_⟩
      rw [hth]
      simp [Thread.fieldCold]
    · have hth : s.releaseField.th j.val = Thread.fieldCold true j.val := Sower.fieldReset_thread s.sow j.isLt
      rw [hth]
      simp [Thread.fieldCold, Nat.not_lt.mpr hj]

/-! ### What notices, tags and the ledger leave -/

/-- A notice goes to the console's output and the ring's insertion queue, and touches nothing else. -/
theorem State.notice_eq (s : State) (t : String) :
    s.notice t = { s with con := (s.notice t).con, ring := (s.notice t).ring } := by
  have hhead : ∀ u : State, u.toHead t = { u with ring := (u.toHead t).ring } := by
    intro u
    unfold State.toHead
    split
    · split
      · dsimp only
        split <;> rfl
      · rfl
    · rfl
  have hpush : ∀ o, s.pushOut o = { s with con := (s.pushOut o).con } := by
    intro o
    unfold State.pushOut
    split <;> rfl
  unfold State.notice
  dsimp only
  rw [hhead]
  split
  · unfold State.pushLine
    rw [hpush]
  · rfl

section
variable (s : State) (t : String)

@[simp] theorem State.notice_sys : (s.notice t).sys = s.sys := by rw [State.notice_eq]
@[simp] theorem State.notice_up : (s.notice t).up = s.up := by rw [State.notice_eq]
@[simp] theorem State.notice_down : (s.notice t).down = s.down := by rw [State.notice_eq]
@[simp] theorem State.notice_mems : (s.notice t).mems = s.mems := by rw [State.notice_eq]
@[simp] theorem State.notice_plots : (s.notice t).plots = s.plots := by rw [State.notice_eq]

end

/-- Firmware's write of a tag touches the tags only. -/
theorem State.showTag_eq (s : State) (n : Nat) : s.showTag n = { s with tags := (s.showTag n).tags } := by
  unfold State.showTag
  split <;> rfl

section
variable (s : State) (n : Nat)

@[simp] theorem State.showTag_sys (s : State) (n : Nat) : (s.showTag n).sys = s.sys := by rw [State.showTag_eq]
@[simp] theorem State.showTag_up (s : State) (n : Nat) : (s.showTag n).up = s.up := by rw [State.showTag_eq]
@[simp] theorem State.showTag_env : (s.showTag n).env = s.env := by rw [State.showTag_eq]
@[simp] theorem State.showTag_bayAt (m : Nat) : (s.showTag n).bayAt m = s.bayAt m := by rw [State.showTag_eq]; rfl
@[simp] theorem State.showTag_en (s : State) (n : Nat) : (s.showTag n).tags.en = s.tags.en := by
  unfold State.showTag
  split <;> rfl

@[simp] theorem State.showTags_sys : s.showTags.sys = s.sys := by
  unfold State.showTags
  exact foldl_frame State.sys State.showTag_sys _ s
@[simp] theorem State.showTags_up : s.showTags.up = s.up := by
  unfold State.showTags
  exact foldl_frame State.up State.showTag_up _ s
@[simp] theorem State.showTags_en : s.showTags.tags.en = s.tags.en := by
  unfold State.showTags
  exact foldl_frame (fun u : State => u.tags.en) State.showTag_en _ s

end

/-! Lines of the furrow that firmware asks for, the ledger's checkpoints among them, touch no other memory. -/

section
variable (s : State)

@[simp] theorem State.furPut_mems (line : Nat) (b : List Byte) : (s.furPut line b).mems = s.mems := rfl

@[simp] theorem State.checkpoint_mems (tick : Nat) : (s.checkpoint tick).mems = s.mems := by
  unfold State.checkpoint
  rw [State.modLed_mems, State.furPut_mems]
  exact foldl_frame State.mems (fun u _ => u.furPut_mems _ _) _ s

@[simp] theorem State.endInterval_mems (s : State) : s.endInterval.mems = s.mems := by
  unfold State.endInterval
  split <;> simp

@[simp] theorem State.endEarly_mems : s.endEarly.mems = s.mems := by
  unfold State.endEarly State.endIntervals
  exact foldl_frame State.mems (fun u _ => u.endInterval_mems) _ _

@[simp] theorem State.gap_mems (cause accMask tenMask fromTick ticks prevSeq utc : Nat) :
    (s.gap cause accMask tenMask fromTick ticks prevSeq utc).mems = s.mems := by
  unfold State.gap
  split <;> simp

@[simp] theorem State.endHanded_mems : s.endHanded.mems = s.mems := by
  unfold State.endHanded
  exact foldl_frame State.mems (fun u _ => u.endInterval_mems) _ _

@[simp] theorem State.loseField_mems (cause : Nat) : (s.loseField cause).mems = s.mems := by
  unfold State.loseField
  dsimp only
  split
  · simp
  · split <;> simp

end

/-! ### REST stops the bays -/

/-- The state that STOP of a REST gives a bay: one that is on, or was on its way, stops (R45, R412). -/
def BState.stops : BState → BState
  | .starting => .stopping
  | .on => .stopping
  | .held => .stopping
  | .tripped => .stopping
  | st => st

/-- A bay that STOP does not change draws no current, nor waits to. -/
theorem BState.of_stops_eq {st : BState} (h : st.stops = st) : st ≠ .on ∧ st ≠ .starting ∧ st ≠ .held ∧ st ≠ .tripped := by
  cases st <;> simp [BState.stops] at h ⊢

theorem State.bayAt_of_ge (s : State) {n : Nat} (h : 96 ≤ n) : (s.bayAt n).st = .empty := by
  have hd : s.bayAt n = default := by simp [State.bayAt, vget, h]
  rw [hd]
  rfl

/-- A bay goes down alone; the state of no other bay changes. -/
theorem State.bayDown_st (s : State) {n : Nat} (hn : n < 96) (st : BState) (m : Nat) :
    ((s.bayDown n st).bayAt m).st = if m = n then st else (s.bayAt m).st := by
  unfold State.bayDown
  rw [State.showTag_bayAt]
  split
  next h => rw [h, State.bayAt_modBay_self _ _ _ hn]; rfl
  next h => rw [State.bayAt_modBay_ne _ _ _ _ (Ne.symm h)]; rfl

@[simp] theorem State.bayDown_sys (s : State) (n : Nat) (st : BState) : (s.bayDown n st).sys = s.sys :=
  State.showTag_sys ..

theorem State.bayDown_planner (s : State) (n : Nat) (st : BState) :
    (s.bayDown n st).env.waiting = s.env.waiting ∧ (s.bayDown n st).env.placed = s.env.placed := by
  unfold State.bayDown
  rw [State.showTag_env]
  exact ⟨rfl, rfl⟩

/-- A step of the fold with which a REST stops the bays: bay `n` stops, or STOP would not change it. -/
def StopsBay (f : State → Nat → State) : Prop :=
  ∀ u n, f u n = u ∧ (u.bayAt n).st.stops = (u.bayAt n).st ∨ n < 96 ∧ f u n = u.bayDown n .stopping

section
variable {f : State → Nat → State} (hf : StopsBay f)
include hf

theorem StopsBay.sys (u : State) (n : Nat) : (f u n).sys = u.sys := by
  obtain ⟨h, -⟩ | ⟨-, h⟩ := hf u n <;> simp [h]

theorem StopsBay.planner (u : State) (n : Nat) :
    (f u n).env.waiting = u.env.waiting ∧ (f u n).env.placed = u.env.placed := by
  obtain ⟨h, -⟩ | ⟨-, h⟩ := hf u n
  · simp [h]
  · rw [h]
    exact u.bayDown_planner n .stopping

/-- The step settles its own bay, and unsettles none. -/
theorem StopsBay.settles (u : State) (n m : Nat) (h : m = n ∨ (u.bayAt m).st.stops = (u.bayAt m).st) :
    ((f u n).bayAt m).st.stops = ((f u n).bayAt m).st := by
  obtain ⟨hfu, hn⟩ | ⟨hn, hfu⟩ := hf u n
  · rw [hfu]
    exact h.elim (fun e => e ▸ hn) id
  · rw [hfu, State.bayDown_st _ hn]
    split
    · rfl
    · next hmn => exact h.resolve_left hmn

end

/-- Once every bay has had its STOP, none is on, starting, held or tripped (R45). -/
theorem StopsBay.foldl {f : State → Nat → State} {u v : State} (hv : v = (List.range 96).foldl f u) (hf : StopsBay f) :
    v.sys = u.sys ∧ v.env.waiting = u.env.waiting ∧ v.env.placed = u.env.placed
      ∧ ∀ n < 96, (v.bayAt n).st.stops = (v.bayAt n).st := by
  subst hv
  exact
  ⟨foldl_frame State.sys hf.sys _ u, foldl_frame (fun u : State => u.env.waiting) (fun u n => (hf.planner u n).1) _ u,
    foldl_frame (fun u : State => u.env.placed) (fun u n => (hf.planner u n).2) _ u,
    fun m hm => foldl_reaches (P := fun v : State => (v.bayAt m).st.stops = (v.bayAt m).st) (List.mem_range.mpr hm)
      (fun u => hf.settles u m m (.inl rfl)) (fun n _ u h => hf.settles u n m (.inr h)) u⟩

theorem State.bayStop_of_stops {s : State} {n : Nat} (h : (s.bayAt n).st.stops ≠ (s.bayAt n).st) :
    n < 96 ∧ s.bayStop n = s.bayDown n .stopping := by
  refine ⟨?_, ?_⟩
  · by_contra hge
    exact h (by rw [s.bayAt_of_ge (Nat.le_of_not_lt hge)]; rfl)
  · unfold State.bayStop
    cases hst : (s.bayAt n).st <;> simp_all [BState.stops]

/-- Steps 1 and 2 of a REST (R45), before the bays' handles go on. -/
theorem State.restBegins_spec (s : State) (h : Handle) : ∃ u : State, s.restBegins h = u.settle ∧ u.sys.kst = .resting
    ∧ u.sys.restStep = 2 ∧ u.env.waiting = [] ∧ u.env.placed = [] ∧ ∀ n < 96, (u.bayAt n).st.stops = (u.bayAt n).st := by
  unfold State.restBegins
  extract_lets a b c d
  have hd : d.sys = c.sys ∧ d.env.waiting = c.env.waiting ∧ d.env.placed = c.env.placed
      ∧ ∀ n < 96, (d.bayAt n).st.stops = (d.bayAt n).st := by
    refine StopsBay.foldl (u := c) (v := d) rfl fun u n => ?_
    split
    case h_5 h1 h2 h3 h4 =>
      refine .inl ⟨rfl, ?_⟩
      unfold BState.stops
      split <;> simp_all
    all_goals
      next hst =>
        exact .inr (State.bayStop_of_stops (by simp [hst, BState.stops]))
  obtain ⟨hsys, hw, hp, hst⟩ := hd
  exact ⟨d, rfl, by simp [hsys, c, b], by simp [hsys, c, b], hw, hp, hst⟩

/-! ### The fall of the field -/

section
variable {s : State} (hr : s.sys.inReset = false)
include hr

theorem exec_fieldLost (he : s.sys.fieldEn = true) (hp : s.sys.pll = .locked) :
    exec .fieldLostPg s = .next (s.fieldLost 1 "PG") ∧ exec .fieldLostPll s = .next (s.fieldLost 2 "PLL") := by
  have hlive : s.fieldLive = true := by simp [State.fieldLive, he, hp, hr]
  change execFieldLostPg s = _ ∧ execFieldLostPll s = _
  simp [execFieldLostPg, execFieldLostPll, goOn, hlive]

variable (hu : s.sys.fieldUp = true)
include hu

theorem exec_restDispatch {h : Handle} (hh : s.restReady = some h) : exec .restDispatch s = .next (s.restBegins h) := by
  change execRestDispatch s = _
  simp [execRestDispatch, onField, goOn, hr, hu, hh]

theorem exec_restPlotsIdle (hw : s.restWaits = true) (hi : s.loadedPlots.all s.plotIdle = true) :
    exec .restPlotsIdle s = .next s.restEnds := by
  change execRestPlotsIdle s = _
  simp only [execRestPlotsIdle, onField, goOn, hr, hu, hw, hi]
  rfl

theorem exec_restPlotTimeout (hw : s.restWaits = true) :
    exec .restPlotTimeout s = .next (s.loadedPlots.foldl State.stopBusy s).restEnds := by
  change execRestPlotTimeout s = _
  simp only [execRestPlotTimeout, onField, goOn, hr, hu, hw]
  rfl

end

/-- A field loss turns the field off at once, and names itself in LAST_LOSS (R47 to R49). -/
theorem State.fieldLost_spec (s : State) (n : Nat) (w : String) :
    ∃ u : State, s.fieldLost n w = (u.hitAll s.sys.fieldUp .counted).runDue ∧ u.sys.kst = .latch ∧ u.sys.fieldUp = false
      ∧ u.sys.fieldEn = false ∧ u.sys.lastLoss = n ∧ u.mems.latch = s.mems.latch := by
  refine ⟨_, rfl, ?_⟩
  rw [State.notice_sys, State.notice_mems]
  refine ⟨rfl, rfl, rfl, rfl, ?_⟩
  rw [State.modSys_mems]
  have hoff : (s.loseField 2).fieldOff.mems.latch = (s.loseField 2).mems.latch := rfl
  rw [hoff, State.loseField_mems]

theorem State.plotAt_modPlot_self (s : State) {p : Nat} (f : Plot → Plot) (hp : p < 16) :
    (s.modPlot p f).plotAt p = f (s.plotAt p) := by simp [State.plotAt, State.modPlot, hp]

@[simp] theorem State.notice_plotAt (s : State) (t : String) (p : Nat) : (s.notice t).plotAt p = s.plotAt p := by
  simp [State.plotAt]

/-- A plot that is not idle when the limit of step 3 ends is stopped (R46). -/
theorem State.stopBusy_plot {s : State} {p : Nat} (hp : p < 16) (h : s.plotIdle p = false) :
    ((s.stopBusy p).plotAt p).st = .stopped := by
  rw [State.stopBusy, if_neg (by simp [h])]
  simp [State.plotAt_modPlot_self _ _ hp]

/-- Step 3 begins once no bay is STOPPING (R45). -/
theorem State.restPlots_spec {s : State} (hk : s.sys.kst = .resting) (h2 : s.sys.restStep = 2) :
    ((∀ n : Fin 96, (s.bayAt n.val).st ≠ .stopping) →
      s.restPlots = s.loadedPlots.foldl State.restItem { s with sys := { s.sys with restStep := 3 } })
    ∧ ∀ n : Fin 96, (s.bayAt n.val).st = .stopping → s.restPlots = s := by
  refine ⟨fun hn => ?_, fun n hn => ?_⟩
  · have hall : ((List.range 96).all fun n => decide ((s.bayAt n).st ≠ .stopping)) = true := by
      simpa using fun n hlt => hn ⟨n, hlt⟩
    rw [State.restPlots, if_pos (by simp only [hk, h2, hall]; rfl)]
    rfl
  · have hall : ((List.range 96).all fun n => decide ((s.bayAt n).st ≠ .stopping)) = false := by
      rw [List.all_eq_false]
      exact ⟨n.val, by simp, by simp [hn]⟩
    rw [State.restPlots, if_neg (by simp only [hall, Bool.and_false]; exact Bool.false_ne_true)]

/-- Steps 4 and 5: the checkpoint's header holds the commit back, and the durable record lets the field go (R45). -/
theorem State.restGoes_spec {s : State} (hk : s.sys.kst = .resting) :
    (s.sys.restStep = 4 → s.headerDue = true → s.restGoes = s)
      ∧ (∀ h, s.sys.restStep = 4 → s.headerDue = false → s.restHandle = some h →
        s.restCommits = (s.modSys fun y => { y with restStep := 5 }).reqCommit h.kk h.seq)
      ∧ (∀ h, s.sys.restStep = 5 → s.restHandle = some h → h.phase = .committed → ∃ u : State,
        s.restGoes = (u.fieldOff.retire h.kk h.seq (complDone [] false)).runDue) := by
  refine ⟨fun h4 hd => ?_, fun h h4 hd hh => ?_, fun h h5 hh hp => ⟨s.failXs, ?_⟩⟩
  · have hc : s.restCommits = s := by simp [State.restCommits, hd]
    simp [State.restGoes, hc, h4]
  · have hh' : (s.modSys fun y => { y with restStep := 5 }).restHandle = some h := hh
    simp [State.restCommits, hk, h4, hd, hh']
  · have hc : s.restCommits = s := by simp [State.restCommits, h5]
    simp [State.restGoes, hc, hk, h5, hh, hp, State.restOff]

/-- Settles O41: a loss turns the field off at once; a REST goes step by step, each held until what it waits for has come. -/
theorem fieldFalls : Obligations.FieldFalls := by
  intro s hr
  refine ⟨exec_fieldLost hr, s.fieldLost_spec, fun h hu hh => ?begins, State.restPlots_spec, fun hu hk h3 => ?plots,
    State.restGoes_spec, fun p hp => State.stopBusy_plot p.isLt hp, fun p hp => if_pos hp⟩
  case begins =>
    obtain ⟨u, hbegins, hk, h2, hw, hp, hst⟩ := s.restBegins_spec h
    exact ⟨u, by rw [exec_restDispatch hr hu hh, hbegins], hk, h2, hw, hp, fun n => BState.of_stops_eq (hst n.val n.isLt)⟩
  case plots =>
    have hw : s.restWaits = true := by simp [State.restWaits, hk, h3]
    exact ⟨exec_restPlotsIdle hr hu hw, exec_restPlotTimeout hr hu hw⟩

/-! ### Which functions are up as tick items are served -/

section
variable (s : State)

@[simp] theorem State.trace_up (s : State) (k event t q flow detail : Nat) : (s.trace k event t q flow detail).up = s.up := by
  rw [State.trace_eq]

@[simp] theorem State.raised_up (q : Nat) : (s.raised q).up = s.up := by
  unfold State.raised
  split <;> rfl

@[simp] theorem State.visible_up (q : Nat) (w : List Word) : (s.visible q w).up = s.up := State.raised_up ..

@[simp] theorem State.takeUpItem_up (s : State) (it : Item) : (s.takeUpItem it).up = s.up := by
  unfold State.takeUpItem
  rw [State.trace_up]
  split <;> rfl

@[simp] theorem State.serveItem_up (it : Item) : (s.serveItem it).up = s.up := by
  simp [State.serveItem, State.endItem]

@[simp] theorem State.hwPost_up (s : State) (q : Nat) (c : Claimant) (w : List Word) : (s.hwPost q c w).up = s.up := by
  unfold State.hwPost
  split
  · simp
  · rfl

@[simp] theorem State.lcPost_up (s : State) (q : Nat) (w : List Word) : (s.lcPost q w).up = s.up := by
  unfold State.lcPost
  split
  · rfl
  · simp

@[simp] theorem State.lcTick_up (s : State) : s.lcTick.up = s.up := by
  unfold State.lcTick
  split
  · rfl
  · split
    · simp
    · split
      · rfl
      · simp [State.endItem]

theorem State.takeTick_up {s : State} {q : Nat} {last : Option Nat} {p : Nat × State} (h : s.takeTick q last = some p) :
    p.2.up = s.up := by
  unfold State.takeTick at h
  split at h
  · cases h
    rfl
  · split at h
    · split at h
      · cases h
        simp
      · cases h
    · cases h

@[simp] theorem State.planTick_up (s : State) : s.planTick.up = s.up := by
  unfold State.planTick
  split
  next p hp => exact State.takeTick_up hp
  next => rfl

@[simp] theorem State.lcTicks_up (s : State) : s.lcTicks.up = s.up := by
  have hplan : (s.planTicks State.planQuiet).up = s.up := by
    unfold State.planTicks
    refine foldl_frame State.up (fun u _ => ?_) _ s
    split <;> simp
  unfold State.lcTicks
  exact (foldl_frame State.up (fun u _ => u.lcTick_up) _ _).trans hplan

end

/-! ### The field queues -/

theorem State.que_modQue (s : State) (q j : Nat) (f : Queue → Queue) :
    (s.modQue q f).que j = if q = j ∧ q < 64 then f (s.que j) else s.que j := by
  by_cases h : q = j
  · subst h
    simp [State.que, State.modQue, vmod, vget_vset]
  · simp [State.que, State.modQue, vget_vmod_ne, h]

theorem State.setQueue_que (s : State) (q limit urg j : Nat) : (s.setQueue q limit urg).que j =
    if q = j ∧ q < 64 then { s.que j with limit := limit, urg := urg, group := 0 } else s.que j := State.que_modQue ..

@[simp] theorem State.setQueue_up (s : State) (q limit urg : Nat) : (s.setQueue q limit urg).up = s.up := rfl

@[simp] theorem State.setFieldQueues_up (s : State) : s.setFieldQueues.up = s.up := by
  unfold State.setFieldQueues
  rw [foldl_frame State.up fun u _ => u.setQueue_up .., foldl_frame State.up fun u _ => u.setQueue_up ..]

/-- A queue of R641 has the limit and the urgency that its entries of the list give. -/
theorem State.setFieldQueues_listed (s : State) {q limit urg : Nat} (hq : q < 64) (hin : (q, limit, urg) ∈ fieldQueues)
    (hone : ∀ x ∈ fieldQueues, x.1 = q → x.2 = (limit, urg)) :
    (s.setFieldQueues.que q).limit = limit ∧ (s.setFieldQueues.que q).urg = urg := by
  unfold State.setFieldQueues
  refine foldl_reaches (P := fun v : State => (v.que q).limit = limit ∧ (v.que q).urg = urg) hin (fun u => ?_) (fun x hx u hu => ?_) _
  · rw [State.setQueue_que, if_pos ⟨rfl, hq⟩]
    exact ⟨rfl, rfl⟩
  · rw [State.setQueue_que]
    split
    next h =>
      rw [hone x hx h.1]
      exact ⟨rfl, rfl⟩
    next => exact hu

/-- A field queue that R641 does not list has limit 1. -/
theorem State.setFieldQueues_unlisted (s : State) {q : Nat} (hq : q < 56) (hout : ∀ x ∈ fieldQueues, x.1 ≠ q) :
    (s.setFieldQueues.que q).limit = 1 := by
  unfold State.setFieldQueues
  refine List.foldlRecOn (motive := fun v : State => (v.que q).limit = 1) fieldQueues _ ?_ fun u hu x hx => ?_
  · refine foldl_reaches (P := fun v : State => (v.que q).limit = 1) (List.mem_range.mpr hq) (fun u => ?_) (fun n _ u hu => ?_) s
    · rw [State.setQueue_que, if_pos ⟨rfl, by omega⟩]
    · rw [State.setQueue_que]
      split
      · rfl
      · exact hu
  · rw [State.setQueue_que, if_neg fun h => hout x hx h.1]
    exact hu

@[simp] theorem State.writeWeight_up (s : State) (g v : Nat) : (s.writeWeight g v).up = s.up := rfl
@[simp] theorem State.writeWeight_que (s : State) (g v q : Nat) : (s.writeWeight g v).que q = s.que q := rfl

/-- The groups and weights of the tenancies leave the functions that are up. -/
@[simp] theorem State.writeGroups_up (s : State) : s.writeGroups.up = s.up := by
  unfold State.writeGroups
  rw [foldl_frame State.up fun u _ => u.writeWeight_up .., foldl_frame State.up fun u _ => u.modQue_up ..]

/-- They leave the queues' limits and urgencies. -/
theorem State.writeGroups_que (s : State) (q : Nat) :
    (s.writeGroups.que q).limit = (s.que q).limit ∧ (s.writeGroups.que q).urg = (s.que q).urg := by
  have hgroup : ∀ (u : State) (t g : Nat), ((u.modQue t fun x => { x with group := g }).que q).limit = (u.que q).limit
      ∧ ((u.modQue t fun x => { x with group := g }).que q).urg = (u.que q).urg := by
    intro u t g
    rw [State.que_modQue]
    split <;> exact ⟨rfl, rfl⟩
  unfold State.writeGroups
  constructor
  · rw [foldl_frame (fun u : State => (u.que q).limit) fun u _ => by simp]
    exact foldl_frame (fun u : State => (u.que q).limit) (fun u t => (hgroup u _ _).1) _ s
  · rw [foldl_frame (fun u : State => (u.que q).urg) fun u _ => by simp]
    exact foldl_frame (fun u : State => (u.que q).urg) (fun u t => (hgroup u _ _).2) _ s

/-- The Sower dispatches from now on (R633). -/
def State.startDispatch (s : State) : State := s.modSow fun w => { w with dispatch := true }

@[simp] theorem State.startDispatch_up (s : State) : s.startDispatch.up = s.up := rfl
@[simp] theorem State.startDispatch_dispatch (s : State) : s.startDispatch.sow.dispatch = true := rfl
@[simp] theorem State.startDispatch_que (s : State) (q : Nat) : s.startDispatch.que q = s.que q := rfl

/-- The state in which SOWER announces (R633, R641, R352). -/
def State.sowerSet (s : State) : State := s.lcTicks.setFieldQueues.writeGroups.startDispatch

theorem State.sowerSet_listed (s : State) {q limit urg : Nat} (hq : q < 64) (hin : (q, limit, urg) ∈ fieldQueues)
    (hone : ∀ x ∈ fieldQueues, x.1 = q → x.2 = (limit, urg)) :
    (s.sowerSet.que q).limit = limit ∧ (s.sowerSet.que q).urg = urg := by
  rw [State.sowerSet, State.startDispatch_que, (State.writeGroups_que _ q).1, (State.writeGroups_que _ q).2]
  exact s.lcTicks.setFieldQueues_listed hq hin hone

theorem State.sowerSet_unlisted (s : State) {q : Nat} (hq : q < 56) (hout : ∀ x ∈ fieldQueues, x.1 ≠ q) :
    (s.sowerSet.que q).limit = 1 := by
  rw [State.sowerSet, State.startDispatch_que, (State.writeGroups_que _ q).1]
  exact s.lcTicks.setFieldQueues_unlisted hq hout

/-! ### The Granary's mode -/

@[simp] theorem Granary.setMin_sized (g : Granary) (r p v : Nat) : (g.setMin r p v).sized = g.sized := by
  unfold Granary.setMin
  dsimp only
  split
  · rfl
  · split <;> rfl

@[simp] theorem Granary.setQuota_sized (g : Granary) (r p v : Nat) : (g.setQuota r p v).sized = g.sized := rfl

@[simp] theorem Granary.setMinima_sized (g : Granary) : g.setMinima.sized = g.sized := by
  unfold Granary.setMinima
  refine foldl_frame Granary.sized (fun g x => ?_) _ g
  split
  · exact foldl_frame Granary.sized (fun g y => g.setMin_sized ..) _ g
  · exact g.setMin_sized ..

@[simp] theorem State.setQuotas_sized (s : State) (g : Granary) : (s.setQuotas g).sized = g.sized := by
  unfold State.setQuotas
  refine foldl_frame Granary.sized (fun g t => ?_) _ g
  dsimp only
  split
  · exact foldl_frame Granary.sized (fun g p => g.setQuota_sized ..) _ g
  · exact g.setQuota_sized ..

theorem Granary.setMode_sized {g : Granary} (h : g.allFree = true) (b : Bool) : (g.setMode b).sized = b := by
  simp [Granary.setMode, h]

/-! ### Functions that go down -/

@[simp] theorem State.isDown_up (s : State) (f : Fn) (t : String) : (s.isDown f t).up = s.up := by simp [State.isDown]
@[simp] theorem State.isDown_down (s : State) (f : Fn) (t : String) : (s.isDown f t).down = s.down ++ [f] := by
  simp [State.isDown]

@[simp] theorem State.isDown_plotAt (s : State) (f : Fn) (t : String) (p : Nat) : (s.isDown f t).plotAt p = s.plotAt p := by
  simp [State.isDown, State.plotAt]

@[simp] theorem State.needField_up (s : State) : s.needField.up = s.up := by
  unfold State.needField
  exact foldl_frame State.up (fun u f => u.isDown_up ..) _ s

/-- What is down stays down, and every field function behind FIELD goes down with it (R75). -/
theorem State.needField_down (s : State) (f : Fn) (h : f ∈ s.down ∨ f ∈ fieldOrder.drop 1) : f ∈ s.needField.down := by
  unfold State.needField
  have hkeep : ∀ (u : State) (g : Fn), f ∈ u.down → f ∈ (u.isDown g (g.name ++ " NEEDS FIELD")).down := fun u g hu => by
    simp [hu]
  obtain hs | hf := h
  · exact List.foldlRecOn (motive := fun u : State => f ∈ u.down) _ _ hs fun u hu g _ => hkeep u g hu
  · exact foldl_reaches (P := fun u : State => f ∈ u.down) (List.mem_append_left _ hf) (fun u => by simp)
      (fun g _ u hu => hkeep u g hu) s

/-! ### The field functions in their order -/

/-- `f` has neither announced nor gone down, and every function of `before` has done one or the other (R76). -/
def State.FieldTurn (s : State) (before : List Fn) (f : Fn) : Prop :=
  s.isUp f = false ∧ f ∉ s.down ∧ (∀ g ∈ before, s.isUp g = true ∨ g ∈ s.down) ∧ s.copyDue f = false

/-- The clamp of row `r` releases, and nothing else changes (R41). -/
def State.releaseRow (s : State) (r : Nat) : State := s.modSys fun y => { y with clamps := putBit y.clamps r false }

theorem State.releaseRow_eq (s : State) (r : Nat) :
    s.releaseRow r = s.modSys fun y => { y with clamps := (s.releaseRow r).sys.clamps } := rfl

section
variable {s : State} {before : List Fn} {f : Fn} (hu : s.sys.fieldUp = true)
include hu

theorem State.fieldTurn_of (hf : s.isUp f = false) (hd : f ∉ s.down)
    (hb : ∀ g ∈ fieldOrder.takeWhile (fun g => g ≠ f), s.isUp g = true ∨ g ∈ s.down) : s.fieldTurn f = true := by
  simp only [State.fieldTurn, State.turnOf, hu, hf, Bool.and_eq_true, List.all_eq_true, Bool.or_eq_true, List.contains_iff_mem]
  exact ⟨trivial, ⟨rfl, by simpa using hd⟩, hb⟩

theorem State.FieldTurn.fieldTurn (h : s.FieldTurn before f) (he : fieldOrder.takeWhile (fun g => g ≠ f) = before) :
    s.fieldTurn f = true := by
  obtain ⟨hf, hd, hb, -⟩ := h
  exact State.fieldTurn_of hu hf hd (he ▸ hb)

theorem exec_readySower (h : s.FieldTurn [.field] .sower) :
    exec .readySower s = .next (s.sowerSet.announceField .sower) := by
  have hturn := h.fieldTurn hu (by decide)
  change execReadySower s = _
  simp [execReadySower, goOn, hturn, State.sowerSet, State.startDispatch]

theorem exec_readyGranary (h : s.FieldTurn [.field, .sower] .granary) :
    exec .readyGranary s = .next
      ((s.modGran fun g => (s.setQuotas (g.setMode s.sdb.granSized)).setMinima).announceField .granary) := by
  have hturn := h.fieldTurn hu (by decide)
  change execReadyGranary s = _
  simp [execReadyGranary, goOn, hturn, State.modGran]

/-- The functions before row `n` of the bays. -/
def beforeRow (n : Nat) : List Fn := [Fn.field, .sower, .granary] ++ (List.range n).map Fn.baysRow

theorem exec_readyBaysRow {r : Fin 12} (h : s.FieldTurn (beforeRow r.val) (.baysRow r.val)) (hp : s.rowProved r.val = true) :
    exec (.readyBaysRow r) s = .next ((s.announceField (.baysRow r.val)).releaseRow r.val).runDue := by
  have horder : ∀ r : Fin 12, fieldOrder.takeWhile (fun g => g ≠ .baysRow r.val) = beforeRow r.val := by decide
  have hturn := h.fieldTurn hu (horder r)
  obtain ⟨-, -, -, hcopy⟩ := h
  change execReadyBaysRow r s = _
  simp [execReadyBaysRow, goOn, hturn, hp, hcopy, State.releaseRow]

theorem exec_readyEnvelope (h : s.FieldTurn (beforeRow 12) .envelope) :
    exec .readyEnvelope s = .next (s.guardWords.announceField .envelope) := by
  have hturn := h.fieldTurn hu (by decide)
  obtain ⟨-, -, -, hcopy⟩ := h
  change execReadyEnvelope s = _
  simp [execReadyEnvelope, goOn, hturn, hcopy]

theorem exec_readyLedger (h : s.FieldTurn (beforeRow 12 ++ [.envelope]) .ledger) :
    exec .readyLedger s = .next (s.announceField .ledger) := by
  have hturn := h.fieldTurn hu (by decide)
  obtain ⟨-, -, -, hcopy⟩ := h
  change execReadyLedger s = _
  simp [execReadyLedger, goOn, hturn, hcopy]

theorem exec_readyTenancy (h : s.FieldTurn (beforeRow 12 ++ [.envelope, .ledger]) .tenancy) :
    exec .readyTenancy s = .next ((s.writeBayGrants.announceField .tenancy).wakesDone.runDue) := by
  have hturn := h.fieldTurn hu (by decide)
  obtain ⟨-, -, -, hcopy⟩ := h
  change execReadyTenancy s = _
  simp [execReadyTenancy, goOn, hturn, hcopy]

/-- FIELD is first: its turn comes as soon as the field is up. -/
theorem State.fieldTurn_field (hf : s.isUp .field = false) (hd : Fn.field ∉ s.down) : s.fieldTurn .field = true :=
  State.fieldTurn_of hu hf hd fun g hg => absurd hg (by rw [show fieldOrder.takeWhile (fun g => g ≠ .field) = [] by decide]; simp)

theorem exec_readyField (hf : s.isUp .field = false) (hd : Fn.field ∉ s.down) (hk : s.sys.kst = .waking) :
    exec (.readyField true) s = .next (if s.replayField.copyDue .field then s.replayField else s.replayField.fieldReady)
      ∧ exec (.readyField false) s = .next ((s.isDown .field "FIELD ROM-CHECK").needField.wakeFails 3 0x87) := by
  have hturn := State.fieldTurn_field hu hf hd
  change execReadyField true s = _ ∧ execReadyField false s = _
  simp [execReadyField, goOn, hturn, hk]

end

/-- FIELD's announcement: before it the state is FIELD and the tags are on (R41, R83). -/
theorem State.fieldReady_spec (s : State) : ∃ u : State,
    s.fieldReady = ((u.announceField .field).modFans fun x => x.timed s.cal.tick).readBoard.runDue
      ∧ u.sys.kst = .field ∧ u.tags.en = true ∧ u.up = s.up := by
  refine ⟨_, rfl, ?_, ?_, ?_⟩ <;> simp

/-- A cleared clamp is released, the others stay. -/
theorem getLsbD_putBit_false {n : Nat} (m : BitVec n) {i j : Nat} (hj : j < n) :
    (putBit m i false).getLsbD j = (m.getLsbD j && j != i) := by
  simp only [putBit, Bool.false_eq_true, if_false, BitVec.getLsbD_and, BitVec.getLsbD_not, BitVec.getLsbD_ofNat, hj,
    decide_true, Bool.true_and, Nat.testBit_two_pow]
  simp [bne, BEq.beq, eq_comm]

theorem State.releaseRow_clamps (s : State) (r : Nat) {j : Nat} (hj : j < 12) :
    (s.releaseRow r).sys.clamps.getLsbD j = (s.sys.clamps.getLsbD j && j != r) := getLsbD_putBit_false _ hj

theorem exec_readyPlot {s : State} {p : Ten} (ht : s.plotTurn p.val = true) (hc : s.copyDue (.plot p.val) = false) :
    let a := ((s.plotAt p.val).addr).getD 0
    let i := s.findImage p.val a
    (i.1 = 0 → exec (.readyPlot p) s =
      .next ((((s.startPlot p.val a i.2.1 i.2.2).announceField (.plot p.val)).tellWoken p.val).runDue))
    ∧ (i.1 ≠ 0 → exec (.readyPlot p) s =
      .next (((s.modPlot p.val fun x => { x with st := .down (imageReason i.1) }).isDown (.plot p.val)
        ("PLOT " ++ decText p.val ++ " " ++ imageReason i.1)).runDue)) := by
  intro a i
  change (i.1 = 0 → execReadyPlot p s = _) ∧ (i.1 ≠ 0 → execReadyPlot p s = _)
  unfold execReadyPlot
  constructor
  all_goals
    intro h
    simp only [ht, hc, Bool.not_true, Bool.or_self, Bool.false_eq_true, if_false]
    simp [goOn, a, i, h]

/-- Settles O40: each function's turn comes by the order of R76, and its announcement brings what its command computes. -/
theorem fieldSequence : Obligations.FieldSequence := by
  intro s r p hu turn rows
  refine ⟨fun v f => rfl, ?field, ?sower, ?granary, ?row, exec_readyEnvelope hu, exec_readyLedger hu, exec_readyTenancy hu, ?plot⟩
  case field =>
    intro hf hd hk
    obtain ⟨hgood, hbad⟩ := exec_readyField hu hf hd hk
    refine ⟨fun hc => ?_, fun hc => ?_, _, hbad, ?_, ?_, ?_, ?_⟩
    · obtain ⟨u, hu', hfacts⟩ := s.replayField.fieldReady_spec
      exact ⟨u, by rw [hgood, if_neg (by simp [hc]), hu'], hfacts⟩
    · rw [hgood, if_pos hc]
    · simp
    · exact State.needField_down _ _ (.inl (by simp))
    · exact State.needField_down _ _ (.inr (by decide))
    · exact State.needField_down _ _ (.inr (by decide))
  case sower =>
    intro h
    exact ⟨_, exec_readySower hu h, by simp [State.sowerSet], by simp [State.sowerSet],
      (s.sowerSet_listed (limit := 256) (urg := 1) (by decide) (by decide) (by decide)).1,
      (s.sowerSet_listed (limit := 64) (urg := 3) (by decide) (by decide) (by decide)).2,
      (s.sowerSet_listed (limit := 64) (urg := 1) (by decide) (by decide) (by decide)).1,
      s.sowerSet_unlisted (by decide) (by decide)⟩
  case granary =>
    intro h hfree
    exact ⟨_, exec_readyGranary hu h, by simp, by simp [Granary.setMode_sized hfree], by simp⟩
  case row =>
    intro h hp
    refine ⟨_, exec_readyBaysRow hu h hp, State.releaseRow_eq _ _, fun j => ?_⟩
    rw [State.releaseRow_clamps _ _ j.isLt]
    simp [bne, BEq.beq, Fin.ext_iff]
  case plot =>
    intro ht hc a i
    obtain ⟨hgood, hbad⟩ := exec_readyPlot ht hc
    refine ⟨hgood, fun h => ⟨_, hbad h, ?_, ?_, ?_⟩⟩
    · simp
    · simp
    · rw [State.isDown_plotAt, State.plotAt_modPlot_self _ _ p.isLt]

/-! ### The hinge's ports -/

@[simp] theorem whoOf_coreOfWho (who : Who) : whoOf (coreOfWho who) = who := by
  cases who with
  | lc => rfl
  | fc k => simp [whoOf, coreOfWho]

theorem hingePort_hinge {p : Nat} (h : 0x100 ≤ p ∧ p < 0x200) (k : Nat) : hingePort k p = true := by
  simp [hingePort, h]

/-- A port of the hinge is written in field state as its table says. -/
theorem State.writePort_hinge {s : State} {p : Nat} (h : 0x100 ≤ p ∧ p < 0x200) (hu : s.sys.fieldUp = true) (k t : Nat) (w : Word) :
    s.writePort k t p w = s.writeHinge (whoOf k) p w := by
  have hb : p / 256 = 1 := by omega
  rw [State.writePort, if_neg (by omega), if_neg (by omega), if_neg (by omega), hb]
  exact if_pos hu

@[simp] theorem State.granted_sys (s : State) (k : Nat) : (s.granted k).sys = s.sys := by rw [State.granted_eq]
@[simp] theorem State.granted_sow (s : State) (k : Nat) : (s.granted k).sow = s.sow := by rw [State.granted_eq]
@[simp] theorem State.granted_mems (s : State) (k : Nat) : (s.granted k).mems = s.mems := by rw [State.granted_eq]
@[simp] theorem State.granted_hasRoom (s : State) (k q : Nat) : (s.granted k).hasRoom q = s.hasRoom q := by
  rw [State.granted_eq]
  rfl
@[simp] theorem State.granted_waiter (s : State) (k q : Nat) : (s.granted k).waiter q = s.waiter q := by
  rw [State.granted_eq]
  rfl
@[simp] theorem State.granted_box (s : State) (k : Nat) (b : Box) : (s.granted k).hng.box b = s.hng.box b := by
  unfold State.granted
  split
  · cases b <;> rfl
  · rfl
@[simp] theorem State.granted_noteQ (s : State) (k : Nat) (b : Box) : (s.granted k).hng.noteQ b = s.hng.noteQ b := by
  unfold State.granted
  split
  · cases b <;> rfl
  · rfl

/-- A write of a hinge port by a side that reaches it, in field state: the round robin moves, and the port is written. -/
theorem Reaches.wrote_hinge {s : State} {who : Who} {p : Nat} (h : Reaches s who p true) (hp : 0x100 ≤ p ∧ p < 0x200)
    (hu : (s.drained who).sys.fieldUp = true) (v : Nat) :
    s.wrote who p v = ((s.drained who).granted (coreOfWho who)).writeHinge who p (wordOf v) := by
  rw [State.wrote, h.wroteOf_eq, State.crossed, if_pos (hingePort_hinge hp _), State.writePort_hinge hp (by simpa using hu),
    whoOf_coreOfWho]

/-! ### Mailboxes -/

@[simp] theorem Hinge.box_modBox (x : Hinge) (b : Box) (f : Mailbox → Mailbox) : (x.modBox b f).box b = f (x.box b) := by
  cases b <;> rfl
@[simp] theorem Hinge.noteQ_modBox (x : Hinge) (b c : Box) (f : Mailbox → Mailbox) : (x.modBox b f).noteQ c = x.noteQ c := by
  cases b <;> cases c <;> rfl
@[simp] theorem State.modHng_hasRoom (s : State) (f : Hinge → Hinge) (q : Nat) : (s.modHng f).hasRoom q = s.hasRoom q := rfl
@[simp] theorem State.modHng_waiter (s : State) (f : Hinge → Hinge) (q : Nat) : (s.modHng f).waiter q = s.waiter q := rfl

@[simp] theorem State.raised_hng (s : State) (q : Nat) : (s.raised q).hng = s.hng := by
  unfold State.raised
  split <;> rfl
@[simp] theorem State.raised_mems (s : State) (q : Nat) : (s.raised q).mems = s.mems := by
  unfold State.raised
  split <;> rfl
@[simp] theorem State.raised_store (s : State) (q : Nat) : (s.raised q).sow.store = s.sow.store := by
  unfold State.raised
  split <;> rfl
@[simp] theorem State.raised_claims (s : State) (q : Nat) : (s.raised q).sow.claims = s.sow.claims := by
  unfold State.raised
  split <;> rfl

@[simp] theorem State.visible_hng (s : State) (q : Nat) (w : List Word) : (s.visible q w).hng = s.hng := State.raised_hng ..
@[simp] theorem State.visible_mems (s : State) (q : Nat) (w : List Word) : (s.visible q w).mems = s.mems := State.raised_mems ..
@[simp] theorem State.visible_claims (s : State) (q : Nat) (w : List Word) : (s.visible q w).sow.claims = s.sow.claims :=
  State.raised_claims ..

/-- A posted item stands in its queue (R618). -/
theorem State.mem_visible_store (s : State) (q : Nat) (w : List Word) : ∃ it ∈ (s.visible q w).sow.store, it.words = w ∧ it.q = q := by
  refine ⟨{ words := w, q := q, age := s.sow.nextAge }, ?_, rfl, rfl⟩
  unfold State.visible
  rw [State.raised_store]
  simp

/-- A notification leaves the mailbox's words, state and count, and every memory. -/
theorem State.notify_frame (s : State) (b : Box) : ((s.notify b).hng.box b).words = (s.hng.box b).words
    ∧ ((s.notify b).hng.box b).st = (s.hng.box b).st ∧ ((s.notify b).hng.box b).count = (s.hng.box b).count
    ∧ (s.notify b).mems = s.mems := by
  unfold State.notify
  dsimp only
  split
  · simp
  · simp [State.await]

/-- It is posted where it has its place and none waits before it, and waits with NPEND where there is no place (R60). -/
theorem State.notify_room (s : State) (b : Box) :
    (s.hasRoom (s.hng.noteQ b) = true → s.waiter (s.hng.noteQ b) = none →
      ∃ it ∈ (s.notify b).sow.store, it.words = noteWords b ∧ it.q = s.hng.noteQ b)
    ∧ (s.hasRoom (s.hng.noteQ b) = false → ((s.notify b).hng.box b).npend = true ∧ (s.notify b).sow.store = s.sow.store) := by
  refine ⟨fun hr hw => ?_, fun hr => ?_⟩
  · simp only [State.notify, hr, hw, Option.isNone_none, Bool.and_self, if_true]
    exact s.mem_visible_store _ _
  · simp only [State.notify, hr, Bool.false_and]
    simp [State.await]

/-! The three actions of a control port (R59 to R62). -/

section
variable (s : State) (who : Who) (b : Box)

theorem State.boxCtl_claim : s.boxCtl who b 1 = s.boxClaim who b := by
  cases h : s.canClaim who b <;> simp [State.boxCtl, State.boxClaim, bitAt, h]

theorem State.boxCtl_post {n : Nat} (hn : n < 32) : s.boxCtl who b (2 + 16 * n) = s.boxPost who b n := by
  have h0 : bitAt (2 + 16 * n) 0 = false := by simp [bitAt]; omega
  have h1 : bitAt (2 + 16 * n) 1 = true := by simp [bitAt]; omega
  have h2 : bitAt (2 + 16 * n) 2 = false := by simp [bitAt]; omega
  have hf : fieldAt (2 + 16 * n) 4 5 = n := by simp [fieldAt]; omega
  have h8 : (2 + 16 * n) % 8 ≠ 0 := by omega
  cases h : s.canPost who b n <;> simp [State.boxCtl, State.boxPost, h0, h1, h2, hf, h8, h]

theorem State.boxCtl_release : s.boxCtl who b 4 = s.boxRelease who b := by
  cases h : s.canRelease who b <;> simp [State.boxCtl, State.boxRelease, bitAt, h]

/-- The control port of a mailbox takes an action, its word port a word, HNG_FORCE of LC a force. -/
theorem State.writeHinge_ctl (w : Word) : s.writeHinge who (boxCtlPort b) w = s.boxCtl who b w.toNat := by
  cases b <;> rfl

theorem State.writeHinge_word (i : Fin 16) (w : Word) : s.writeHinge who (boxWordPort b + i.val) w = s.boxWrite who b i.val w := by
  have hi := i.isLt
  cases b
  · have hp : boxWordPort .l2f = 0x110 := rfl
    unfold State.writeHinge
    rw [hp]
    iterate 6 rw [if_neg (by omega)]
    rw [if_pos (by omega), Nat.add_sub_cancel_left]
  · have hp : boxWordPort .f2l = 0x120 := rfl
    unfold State.writeHinge
    rw [hp]
    iterate 7 rw [if_neg (by omega)]
    rw [if_pos (by omega), Nat.add_sub_cancel_left]

theorem State.writeHinge_force : s.writeHinge .lc 0x106 (wordOf (if b = .l2f then 1 else 2)) = s.boxForce b := by
  cases b <;> rfl

end

theorem boxCtlPort_hinge (b : Box) : 0x100 ≤ boxCtlPort b ∧ boxCtlPort b < 0x200 := by cases b <;> decide

theorem boxWordPort_hinge (b : Box) (i : Fin 16) : 0x100 ≤ boxWordPort b + i.val ∧ boxWordPort b + i.val < 0x200 := by
  have hi := i.isLt
  cases b <;> simp only [boxWordPort] <;> simp <;> omega

/-- The state in which a side's write of a hinge port takes effect: its core's earlier port writes have been made, and the
round robin has moved (R54, R554). -/
def State.atHinge (s : State) (who : Who) : State := (s.drained who).granted (coreOfWho who)

section
variable {s : State} {who : Who} {b : Box} (hu : (s.drained who).sys.fieldUp = true)
include hu

theorem exec_mailboxClaim (h : Reaches s who (boxCtlPort b) true) :
    exec (.mailboxClaim who b) s = .next ((s.atHinge who).boxClaim who b) := by
  change goOn _ = _
  rw [h.wrote_hinge (boxCtlPort_hinge b) hu, State.writeHinge_ctl]
  exact congrArg _ (State.boxCtl_claim ..)

theorem exec_mailboxPost (h : Reaches s who (boxCtlPort b) true) (n : BitVec 5) :
    exec (.mailboxPost who b n) s = .next ((s.atHinge who).boxPost who b n.toNat) := by
  have hn := n.isLt
  have hw : (wordOf (2 + 16 * n.toNat)).toNat = 2 + 16 * n.toNat := by simp [wordOf]; omega
  change goOn _ = _
  rw [h.wrote_hinge (boxCtlPort_hinge b) hu, State.writeHinge_ctl, hw]
  exact congrArg _ (State.boxCtl_post _ _ _ hn)

theorem exec_mailboxRelease (h : Reaches s who (boxCtlPort b) true) :
    exec (.mailboxRelease who b) s = .next ((s.atHinge who).boxRelease who b) := by
  change goOn _ = _
  rw [h.wrote_hinge (boxCtlPort_hinge b) hu, State.writeHinge_ctl]
  exact congrArg _ (State.boxCtl_release ..)

theorem exec_mailboxWordWrite {i : Fin 16} (h : Reaches s who (boxWordPort b + i.val) true) (w : Word) :
    exec (.mailboxWordWrite who b i w) s = .next ((s.atHinge who).boxWrite who b i.val w) := by
  change goOn _ = _
  rw [h.wrote_hinge (boxWordPort_hinge b i) hu, State.writeHinge_word, wordOf_toNat]
  rfl

end

/-- A field core's write of HNG_HEART restarts its counter (R64). -/
theorem exec_heartbeatTouch {s : State} {k : Fin 6} (hu : (s.drained (.fc k)).sys.fieldUp = true) (h : Reaches s (.fc k) 0x103 true) :
    exec (.heartbeatTouch k) s = .next ((s.atHinge (.fc k)).touch k.val) := by
  change goOn _ = _
  rw [h.wrote_hinge (by decide) hu]
  rfl

/-- LC forces a mailbox FREE (R63). -/
theorem exec_mailboxForceFree {s : State} {b : Box} (hu : (s.drained .lc).sys.fieldUp = true) (h : Reaches s .lc 0x106 true) :
    exec (.mailboxForceFree b) s = .next ((s.drained .lc).boxForce b) := by
  change goOn _ = _
  rw [h.wrote_hinge (by decide) hu]
  exact congrArg _ (State.writeHinge_force _ b)

/-! What each action does where it is allowed, and that it counts in IGNORED where it is not. -/

section
variable {s : State} {who : Who} {b : Box}

theorem State.boxClaim_free (h : (s.hng.box b).st = .free) (ho : b.ownedBy who = true) :
    ((s.boxClaim who b).hng.box b).st = .claimed ∧ ((s.boxClaim who b).hng.box b).owner = who.code
      ∧ ((s.boxClaim who b).hng.box b).words = (s.hng.box b).words ∧ (s.boxClaim who b).sow = s.sow
      ∧ (s.boxClaim who b).mems = s.mems := by
  simp [State.boxClaim, State.canClaim, h, ho]

theorem State.boxClaim_refused (h : (s.hng.box b).st ≠ .free ∨ b.ownedBy who = false) : s.boxClaim who b = s.hngIgnored := by
  obtain h | h := h <;> simp [State.boxClaim, State.canClaim, h]

/-- The side has claimed the mailbox (R59). -/
def State.Mine (s : State) (who : Who) (b : Box) : Prop := (s.hng.box b).st = .claimed ∧ (s.hng.box b).owner = who.code

theorem State.ownsClaimed_iff : s.ownsClaimed who b = true ↔ s.Mine who b := by simp [State.ownsClaimed, State.Mine]

theorem State.boxWrite_mine (h : s.Mine who b) (i : Fin 16) (w : Word) :
    (s.boxWrite who b i.val w).sow = s.sow ∧ (s.boxWrite who b i.val w).mems = s.mems
      ∧ ∀ j : Fin 16, ((s.boxWrite who b i.val w).hng.box b).words[j] = if j = i then w else (s.hng.box b).words[j] := by
  rw [State.boxWrite, if_pos (State.ownsClaimed_iff.mpr h)]
  refine ⟨rfl, rfl, fun j => ?_⟩
  simp only [State.modHng_hng, Hinge.box_modBox, vset, Fin.getElem_fin, Vector.getElem_setIfInBounds, Fin.ext_iff, eq_comm]

theorem State.boxWrite_refused (h : ¬ s.Mine who b) (i : Nat) (w : Word) : s.boxWrite who b i w = s.hngIgnored := by
  rw [State.boxWrite, if_neg (mt State.ownsClaimed_iff.mp h)]

/-- A mailbox posted by its claimer keeps its words, and its notification goes to its queue or waits (R60). -/
theorem State.boxPost_mine (h : s.Mine who b) {n : Nat} (h1 : 1 ≤ n) (h16 : n ≤ 16) :
    let t := s.boxPost who b n
    let q := s.hng.noteQ b
    (t.hng.box b).st = .posted ∧ (t.hng.box b).count = n ∧ (t.hng.box b).words = (s.hng.box b).words ∧ t.mems = s.mems
      ∧ (s.hasRoom q = true → s.waiter q = none → ∃ it ∈ t.sow.store, it.words = noteWords b ∧ it.q = q)
      ∧ (s.hasRoom q = false → (t.hng.box b).npend = true ∧ t.sow.store = s.sow.store) := by
  intro t q
  have ht : t = (s.modHng fun x => x.modBox b fun m => { m with st := .posted, count := n }).notify b := by
    simp [t, State.boxPost, State.canPost, State.ownsClaimed_iff.mpr h, h1, h16]
  generalize hp : (s.modHng fun x => x.modBox b fun m => { m with st := .posted, count := n }) = p at ht
  obtain ⟨hwords, hst, hcount, hmems⟩ := p.notify_frame b
  obtain ⟨hplace, hnone⟩ := p.notify_room b
  rw [ht, hwords, hst, hcount, hmems]
  subst hp
  simp only [State.modHng_hng, Hinge.noteQ_modBox, State.modHng_hasRoom, State.modHng_waiter] at hplace hnone
  exact ⟨by simp, by simp, by simp, rfl, hplace, hnone⟩

theorem State.boxPost_refused {n : Nat} (h : ¬ s.Mine who b ∨ n = 0 ∨ 16 < n) : s.boxPost who b n = s.hngIgnored := by
  have hc : s.canPost who b n = false := by
    obtain h | h := h
    · simp [State.canPost, Bool.eq_false_iff.mpr (mt State.ownsClaimed_iff.mp h)]
    · have hn : (decide (1 ≤ n) && decide (n ≤ 16)) = false := by
        simp only [Bool.and_eq_false_iff, decide_eq_false_iff_not]
        omega
      rw [State.canPost, Bool.and_assoc, hn, Bool.and_false]
  simp [State.boxPost, hc]

theorem State.canRelease_iff :
    s.canRelease who b = true ↔ s.Mine who b ∨ ((s.hng.box b).st = .posted ∧ b.ownedBy who = false) := by
  simp [State.canRelease, State.ownsClaimed_iff]

theorem State.boxRelease_allowed (h : s.Mine who b ∨ ((s.hng.box b).st = .posted ∧ b.ownedBy who = false)) :
    ((s.boxRelease who b).hng.box b).st = .free ∧ ((s.boxRelease who b).hng.box b).count = 0
      ∧ ((s.boxRelease who b).hng.box b).words = (s.hng.box b).words ∧ (s.boxRelease who b).sow = s.sow := by
  rw [State.boxRelease, if_pos (State.canRelease_iff.mpr h)]
  simp

theorem State.boxRelease_refused (h : ¬ s.Mine who b) (hp : ¬ ((s.hng.box b).st = .posted ∧ b.ownedBy who = false)) :
    s.boxRelease who b = s.hngIgnored := by
  rw [State.boxRelease, if_neg (mt State.canRelease_iff.mp (by tauto))]

end

/-- A forced mailbox is FREE with its words, and its notification waits no longer (R63). -/
theorem State.boxForce_spec (s : State) (b : Box) : ((s.boxForce b).hng.box b).st = .free
    ∧ ((s.boxForce b).hng.box b).npend = false ∧ ((s.boxForce b).hng.box b).words = (s.hng.box b).words
    ∧ (s.boxForce b).sow.store = s.sow.store ∧ ∀ x, (x, noteClaim b) ∉ (s.boxForce b).sow.claims := by
  simp [State.boxForce, Mailbox.freed]

/-- A notification that waits first finds its place: NPEND stays while another of the mailbox waits (R60, R634, log 82). -/
theorem exec_hingeNotifyPost {s : State} {b : Box} {q : Nat} (hr : s.sys.inReset = false) (hu : s.sys.fieldUp = true)
    (hn : s.noteWaits b = some q) (hroom : s.hasRoom q = true) (hw : s.waiter q = some (noteClaim b)) :
    ∃ t, exec (.hingeNotifyPost b) s = .next t ∧ (t.hng.box b).npend = (t.noteWaits b).isSome
      ∧ (t.hng.box b).words = (s.hng.box b).words ∧ ∃ it ∈ t.sow.store, it.words = noteWords b ∧ it.q = q := by
  let v := (s.served q).visible q (noteWords b)
  have hexec : exec (.hingeNotifyPost b) s =
      .next (v.modHng fun x => x.modBox b fun m => { m with npend := (v.noteWaits b).isSome }) := by
    change execHingeNotifyPost b s = _
    simp [execHingeNotifyPost, onField, goOn, hr, hu, hn, hroom, hw, v]
  refine ⟨_, hexec, ?_, ?_, (s.served q).mem_visible_store q _⟩
  · simp [State.noteWaits]
  · simp [v, State.served]

/-! ### The round robin -/

/-- The place of core `n` in the round that follows a grant of core `last` (R54). -/
def robinRank (last n : Nat) : Nat := (n + 5 - last % 6) % 6

/-- The round takes the requests by their places in it. -/
theorem robin_eq (last : Nat) (l : List Transfer) (h : ∀ x ∈ l, x.core < 6) :
    robin last l = (List.range 6).flatMap fun i => l.filter fun x => robinRank last x.core = i := by
  unfold robin
  refine List.flatMap_congr fun i hi => List.filter_congr fun x hx => ?_
  have hc := h x hx
  have hi6 := List.mem_range.mp hi
  have hplace : x.core = (last + 1 + i) % 6 ↔ robinRank last x.core = i := by
    unfold robinRank
    omega
  simp [hplace]

/-- Of two requests the one with the earlier place in the round goes first. -/
theorem robin_two (last : Nat) {x y : Transfer} (hx : x.core < 6) (hy : y.core < 6)
    (hlt : robinRank last x.core < robinRank last y.core) : robin last [x, y] = [x, y] ∧ robin last [y, x] = [x, y] := by
  have hy6 : robinRank last y.core < 6 := Nat.mod_lt _ (by decide)
  rw [robin_eq last [x, y] (by simp [hx, hy]), robin_eq last [y, x] (by simp [hx, hy])]
  simp only [List.filter_cons, List.filter_nil]
  generalize robinRank last x.core = a at hlt
  generalize robinRank last y.core = b at hlt hy6
  interval_cases b <;> interval_cases a <;> exact ⟨rfl, rfl⟩

@[simp] theorem robin_nil (last : Nat) : robin last [] = [] := rfl

/-! ### One cycle of the arbiter -/

/-- No transfer is held, and none waits its turn. -/
def State.Lone (s : State) : Prop := s.hng.waiting = [] ∧ s.hng.asking = []

/-- The tie of LC's request `a` and a field core's `b`, which leaves `l` waiting their turn: the side that TIE_NEXT names wins,
the other is held, and TIE_NEXT goes to the other side (R55). -/
def State.tied (s : State) (a b : Transfer) (l : List Transfer) : State := s.modHng fun y =>
  { y with tieField := !y.tieField, ties := (y.ties + 1) % 65536, asking := l, waiting := [if s.hng.tieField then a else b] }

/-- Where none waited its turn, a tie leaves that as it is. -/
theorem State.tied_nil {s : State} (h : s.hng.asking = []) (a b : Transfer) : s.tied a b [] = s.modHng fun y =>
    { y with tieField := !y.tieField, ties := (y.ties + 1) % 65536, waiting := [if s.hng.tieField then a else b] } := by
  simp [State.tied, State.modHng, h]

section
variable {s : State}

theorem State.heldGrants_of_none (h : s.hng.waiting = []) : s.heldGrants = s := by simp [State.heldGrants, h]

theorem State.heldGrants_of_one {x : Transfer} (h : s.hng.waiting = [x]) :
    s.heldGrants = (s.modHng fun y => { y with waiting := [] }).lateGrant x := by
  simp [State.heldGrants, State.heldGrant, h]

theorem State.heldGrant_waiting {x : Transfer} {l : List Transfer} (h : s.hng.waiting = x :: l) :
    s.heldGrant = (s.modHng fun y => { y with waiting := l }).lateGrant x := by simp [State.heldGrant, h]

theorem State.heldGrant_asking {x : Transfer} {l : List Transfer} (hw : s.hng.waiting = []) (h : s.hng.asking = x :: l) :
    s.heldGrant = (s.modHng fun y => { y with asking := l }).lateGrant x := by simp [State.heldGrant, hw, h]

/-- The next state of the hinge's lists where they already are so. -/
theorem State.modHng_asking_self {l : List Transfer} (h : s.hng.asking = l) : (s.modHng fun y => { y with asking := l }) = s := by
  simp [State.modHng, ← h]

section
variable (h : s.Lone)
include h

theorem State.Lone.atCycle_lc (a : Transfer) : s.atCycle (some a) [] = s.hingeGrant a := by
  obtain ⟨hw, ha⟩ := h
  simp [State.atCycle, State.heldGrants_of_none hw, ha, State.arbitrate]

theorem State.Lone.atCycle_fc {b : Transfer} (hb : b.core < 6) : s.atCycle none [b] = s.hingeGrant b := by
  obtain ⟨hw, ha⟩ := h
  simp [State.atCycle, State.heldGrants_of_none hw, ha, State.arbitrate, robin_one _ b hb, State.modHng_asking_self ha]

theorem State.Lone.atCycle_tie (a : Transfer) {b : Transfer} (hb : b.core < 6) :
    s.atCycle (some a) [b] = (s.tied a b []).hingeGrant (if s.hng.tieField then b else a) := by
  obtain ⟨hw, ha⟩ := h
  simp [State.atCycle, State.heldGrants_of_none hw, ha, State.arbitrate, robin_one _ b hb, State.tied, State.modHng]

theorem State.Lone.atCycle_two {b c : Transfer} (hb : b.core < 6) (hc : c.core < 6)
    (hlt : robinRank s.hng.lastFc b.core < robinRank s.hng.lastFc c.core) :
    s.atCycle none [b, c] = (s.modHng fun y => { y with asking := [c] }).hingeGrant b
      ∧ s.atCycle none [c, b] = (s.modHng fun y => { y with asking := [c] }).hingeGrant b := by
  obtain ⟨hw, ha⟩ := h
  obtain ⟨hbc, hcb⟩ := robin_two s.hng.lastFc hb hc hlt
  simp [State.atCycle, State.heldGrants_of_none hw, ha, State.arbitrate, hbc, hcb]

end

/-- A held transfer goes before a later request of LC (R56). -/
theorem State.atCycle_held {x : Transfer} (h : s.hng.waiting = [x]) (a : Transfer) :
    let v := (s.modHng fun y => { y with waiting := [] }).lateGrant x
    s.atCycle (some a) [] = v.arbitrate (some a) v.hng.asking := by
  simp [State.atCycle, State.heldGrants_of_one h]

/-- One that waits its turn meets a request of LC in a tie (R55). -/
theorem State.atCycle_asking {x : Transfer} {l : List Transfer} (hw : s.hng.waiting = []) (h : s.hng.asking = x :: l) (a : Transfer) :
    s.atCycle (some a) [] = if s.hng.tieField then (s.tied a x l).lateGrant x else (s.tied a x l).hingeGrant a := by
  cases hf : s.hng.tieField <;>
    simp [State.atCycle, State.heldGrants_of_none hw, h, State.arbitrate, State.tied, State.modHng, hf]

end

/-! ### Requests -/

theorem State.drainCores_comm (s : State) (k j : Nat) : s.drainCores [j, k] = s.drainCores [k, j] := by
  simp [State.drainCores, or_comm]

@[simp] theorem State.drainCores_nil (s : State) : s.drainCores [] = s := by simp [State.drainCores]

theorem exec_hingeTransferRequest {s : State} (hr : s.sys.inReset = false) (lat : Option Access) (fld : List (Fin 6 × Access)) :
    exec (.hingeTransferRequest lat fld) s = .next
      ((s.drainCores ((fld.filter fun p => s.requests (.fc p.1) p.2).map fun p => p.1.val)).atCycle
        ((lat.filter fun a => s.requests .lc a).map (s.asked 6))
        ((fld.filter fun p => s.requests (.fc p.1) p.2).map fun p => s.asked p.1.val p.2)) := by
  change execHingeTransferRequest lat fld s = _
  simp [execHingeTransferRequest, onLatch, goOn, hr]

section
variable {s : State} (hr : s.sys.inReset = false) {a b c : Access} {k j : Fin 6}
include hr

theorem exec_request_lc (ha : s.requests .lc a = true) :
    exec (.hingeTransferRequest (some a) []) s = .next (s.atCycle (some (s.asked 6 a)) []) := by
  simp [exec_hingeTransferRequest hr, Option.filter, ha]

theorem exec_request_fc (hb : s.requests (.fc k) b = true) :
    exec (.hingeTransferRequest none [(k, b)]) s = .next ((s.drainCores [k.val]).atCycle none [s.asked k.val b]) := by
  simp [exec_hingeTransferRequest hr, hb]

theorem exec_request_tie (ha : s.requests .lc a = true) (hb : s.requests (.fc k) b = true) :
    exec (.hingeTransferRequest (some a) [(k, b)]) s =
      .next ((s.drainCores [k.val]).atCycle (some (s.asked 6 a)) [s.asked k.val b]) := by
  simp [exec_hingeTransferRequest hr, Option.filter, ha, hb]

theorem exec_request_two (hb : s.requests (.fc k) b = true) (hc : s.requests (.fc j) c = true) :
    exec (.hingeTransferRequest none [(k, b), (j, c)]) s =
      .next ((s.drainCores [k.val, j.val]).atCycle none [s.asked k.val b, s.asked j.val c]) := by
  simp [exec_hingeTransferRequest hr, hb, hc]

end

theorem exec_hingeHeldGrant {s : State} (hr : s.sys.inReset = false) : exec .hingeHeldGrant s = .next s.heldGrant := by
  change execHingeHeldGrant s = _
  simp [execHingeHeldGrant, onLatch, goOn, hr]

/-- A grant that stops nothing is that of any other transfer (R57). -/
theorem State.lateGrant_eq {s : State} {x : Transfer} (hh : ((s.hingeGrant x).core x.core).halting = false)
    (hs : ((s.hingeGrant x).th x.tid).stopping = false) : s.lateGrant x = s.hingeGrant x := by
  simp [State.lateGrant, State.boundary, hh, hs]

/-- A core that stalls at an access issues nothing (R57). -/
theorem oluique_stalled {s : State} {n : CoreId} (h : s.stalled n.val = true) (undef : Nat → Option Word) (body : State → Nat → Did) :
    oluique s n undef body = .next s := by
  have hi : s.issuer n.val = none := if_pos h
  simp [oluique, goOn, State.issue, hi]

/-- An access that is refused changes nothing (R66, log 67). -/
theorem exec_heartbeatTouch_refused {s : State} {k : Fin 6} (h : s.mayAccess k.val 0x103 true = false) :
    exec (.heartbeatTouch k) s = .next s := by
  change goOn (s.wrote (.fc k) 0x103 1) = _
  have hk : coreOfWho (.fc k) = k.val := rfl
  simp [State.wrote, State.wroteOf, goOn, hk, h]

/-- A heartbeat touch moves the round robin and restarts the core's counter (R54, R64). -/
theorem State.atHinge_touch (s : State) (k : Fin 6) : (s.atHinge (.fc k)).touch k.val =
    { s.drained (.fc k) with
      hng := { (s.drained (.fc k)).hng with lastFc := k.val, beat := vset (s.drained (.fc k)).hng.beat k.val 0 } } := by
  have hg : s.atHinge (.fc k) = (s.drained (.fc k)).modHng fun x => { x with lastFc := k.val } := if_pos k.isLt
  rw [hg]
  rfl

/-- What the four plain transfers of O42 do: outside an instruction nothing follows them. -/
theorem State.hingeGrant_plain (s : State) (c t p rd : Nat) (w : Word) :
    s.hingeGrant ⟨c, t, .write p w, false, false⟩ = s.outPort c t p w
      ∧ s.hingeGrant ⟨c, t, .read p 0, false, false⟩ = (s.inPort c t p).2
      ∧ (fieldPort p = true → s.hingeGrant ⟨c, t, .write p w, false, true⟩ = s
        ∧ s.hingeGrant ⟨c, t, .read p rd, false, true⟩ = s.toReg c t rd 0#32) := by
  refine ⟨?_, ?_, fun hp => ⟨?_, ?_⟩⟩ <;> simp_all [State.hingeGrant, State.completes, Transfer.lost, State.toReg, Move.port]

/-- Settles O42: the mailboxes' actions, the arbiter's cycles, and what a transfer that waited does, each by its own lemma. -/
theorem hinge : Obligations.Hinge := by
  refine ⟨fun s who b n i w => ?boxes, fun s b hr hu => ⟨fun he hreach => ?force, fun q => exec_hingeNotifyPost hr hu⟩,
    fun s k j a b c x l hr => ?transfers⟩
  case boxes =>
    intro d hu hctl hword m q g ignored mine
    have hbox : (s.atHinge who).hng.box b = m := State.granted_box ..
    have hmine : (s.atHinge who).Mine who b ↔ mine := by simp [State.Mine, mine, hbox]
    have hsow : (s.atHinge who).sow = d.sow := State.granted_sow ..
    have hmems : (s.atHinge who).mems = d.mems := State.granted_mems ..
    have hq : (s.atHinge who).hng.noteQ b = q := State.granted_noteQ ..
    have hroom : (s.atHinge who).hasRoom q = d.hasRoom q := State.granted_hasRoom ..
    have hwaiter : (s.atHinge who).waiter q = d.waiter q := State.granted_waiter ..
    have hignored : (s.atHinge who).hngIgnored = ignored := rfl
    rw [exec_mailboxClaim hu hctl, exec_mailboxPost hu hctl, exec_mailboxRelease hu hctl, exec_mailboxWordWrite hu hword]
    refine ⟨fun hf ho => ⟨_, rfl, ?claim⟩, fun h => ?claimNot, fun h => ⟨_, rfl, ?write⟩, fun h => ⟨?writeNot, ?postNotMine⟩,
      fun h h1 h16 => ⟨_, rfl, ?post⟩, fun h hn => ?postNot, fun h => ⟨_, rfl, ?release⟩, fun h hp => ?releaseNot⟩
    case claim =>
      have h := State.boxClaim_free (hbox ▸ hf) ho
      rwa [hbox, hsow, hmems] at h
    case claimNot => rw [State.boxClaim_refused (hbox ▸ h), hignored]
    case write =>
      have hw := State.boxWrite_mine (hmine.mpr h) i w
      rwa [hbox, hsow, hmems] at hw
    case writeNot => rw [State.boxWrite_refused (mt hmine.mp h), hignored]
    case postNotMine => rw [State.boxPost_refused (.inl (mt hmine.mp h)), hignored]
    case post =>
      have hp := State.boxPost_mine (hmine.mpr h) h1 h16
      simp only at hp
      rwa [hbox, hsow, hmems, hq, hroom, hwaiter] at hp
    case postNot => rw [State.boxPost_refused (.inr hn), hignored]
    case release =>
      have hre := State.boxRelease_allowed (h.imp hmine.mpr fun hp => hbox ▸ hp)
      rwa [hbox, hsow] at hre
    case releaseNot => rw [State.boxRelease_refused (mt hmine.mp h) (hbox ▸ hp), hignored]
  case force =>
    obtain ⟨hst, hnp, hwords, hstore, hclaims⟩ := (s.drained .lc).boxForce_spec b
    exact ⟨_, exec_mailboxForceFree he hreach, hst, hnp, hwords, hstore, hclaims⟩
  case transfers =>
    intro lone lc fk fj d e rank
    have hk : fk.core < 6 := k.isLt
    have hj : fj.core < 6 := j.isLt
    refine ⟨fun hl ha => ?lc, fun hl hb => ?fc, fun hl ha hb => ?tie, fun hl hb hc hlt => ?two, fun hw ha => ?held,
      fun hw has ha => ?asking, fun hw => ?grantHeld, fun hw ha => ?grantAsking, fun hh hs => State.lateGrant_eq hh hs,
      fun p w rd => State.hingeGrant_plain .., fun n rd ra rb hs => ?stalled, ?touch, exec_heartbeatTouch_refused⟩
    case lc => rw [exec_request_lc hr ha, State.Lone.atCycle_lc hl]
    case fc => rw [exec_request_fc hr hb, State.Lone.atCycle_fc hl hk]
    case tie =>
      rw [exec_request_tie hr ha hb, State.Lone.atCycle_tie hl _ hk, State.tied_nil hl.2]
    case two =>
      obtain ⟨hbc, hcb⟩ := State.Lone.atCycle_two hl hk hj hlt
      rw [exec_request_two hr hb hc, exec_request_two hr hc hb, s.drainCores_comm k.val j.val]
      exact ⟨congrArg _ hbc, congrArg _ hcb⟩
    case held => rw [exec_request_lc hr ha, State.atCycle_held hw]
    case asking =>
      rw [exec_request_lc hr ha, State.atCycle_asking hw has]
      rfl
    case grantHeld => rw [exec_hingeHeldGrant hr, State.heldGrant_waiting hw]
    case grantAsking => rw [exec_hingeHeldGrant hr, State.heldGrant_asking hw ha]
    case stalled => exact ⟨oluique_stalled hs _ _, oluique_stalled hs _ _, oluique_stalled hs _ _⟩
    case touch =>
      intro v hreach hu
      rw [exec_heartbeatTouch hu hreach, State.atHinge_touch]

/-! ### A core fault whose thread stands by on its own core -/

/-- An interlocked result that raises every float flag. -/
def raisesAll : Inter := { unit := .seize, rd := 0, lo := 0#32, hi := none, dc := none, dinv := false, flags := 31#5, pc := 0 }

/-- The field has just been released; core 0 runs thread 0, which stands in the standby slot of core 0 too, and whose
outstanding result will trap. The statement speaks of every state, this one too. -/
def runnerStandsBy : State :=
  (State.reset.releaseField.modCore 0 fun c => { c with standby := some 0 }).modTh 0 fun h =>
    { h with ts := BitVec.allOnes 20, inter := [raisesAll] }

theorem runnerStandsBy_expires : runnerStandsBy.sys.inReset = false ∧ runnerStandsBy.sys.fieldUp = true
    ∧ (runnerStandsBy.core 0).run = some 0 ∧ (runnerStandsBy.core 0).stopped = false ∧ runnerStandsBy.stalled 0 = false := by
  decide +kernel

/-- The trap faults the thread; then the stop of the core cancels its standby pair, which makes it READY. -/
theorem runnerStandsBy_expire_st : ((runnerStandsBy.expire 0).th 0).st = .ready := by decide +kernel

theorem exec_heartbeatExpiry_eq {s : State} {k : Fin 6} (hr : s.sys.inReset = false) (hu : s.sys.fieldUp = true)
    (hrun : (s.core k.val).run.isSome = true) (hst : (s.core k.val).stopped = false) (hs : s.stalled k.val = false) :
    exec (.heartbeatExpiry k) s = .next (s.expire k.val) := by
  change execHeartbeatExpiry k s = _
  have hn : (s.core k.val).run.isNone = false := by simpa using hrun
  simp [execHeartbeatExpiry, onField, goOn, hr, hu, hn, hst, hs]

/-- What O43 says of the thread of a core whose heartbeat expires outside an access. -/
theorem faulted_of_recovering (h : Obligations.Recovering) {s : State} {k : Fin 6} {x : Nat}
    (hr : s.sys.inReset = false) (hu : s.sys.fieldUp = true) (hrun : (s.core k.val).run = some x)
    (hst : (s.core k.val).stopped = false) (hs : s.stalled k.val = false) (hx : x < 120) :
    ((s.expire k.val).th x).st = .faulted := by
  have hsome : (s.core k.val).run.isSome = true := by rw [hrun]; rfl
  obtain ⟨-, hexpiry, -⟩ := h s k hr
  obtain ⟨t, ht, -, -, -, -, -, -, hfaulted⟩ := hexpiry hu hsome hst hs
  rw [exec_heartbeatExpiry_eq hr hu hsome hst hs] at ht
  cases ht
  exact (hfaulted x hrun hx).1

/-- Refutes O43: where the thread that a core runs stands in that core's standby slot as well, and an outstanding result of it
traps at the heartbeat's expiry, the cancelled standby pair leaves the thread READY and not FAULTED. -/
theorem not_recovering : ¬ Obligations.Recovering := by
  intro h
  obtain ⟨hr, hu, hrun, hst, hs⟩ := runnerStandsBy_expires
  have hfaulted := faulted_of_recovering h (k := 0) hr hu hrun hst hs (by decide)
  exact absurd (runnerStandsBy_expire_st.symm.trans hfaulted) (by decide)

end Sys2Proof.Machine

/-! SUPPORT. The statements of coming up in parts: the state at reset, what a cold start leaves, and the latch functions in
their order. A function's notice touches the output and the list of the functions that are up (`State.announce_eq`), so what
an announcement brings with it is what stood before it. -/

namespace Sys2Proof.Machine

/-! ### The state at reset -/

theorem State.reset_th {t : Nat} (ht : t < 128) : State.reset.th t = Thread.cold t := by
  change vget (Vector.ofFn fun i : Fin 128 => Thread.cold i.val) t = _
  simp [vget, ht]

/-- No session is open at reset; session 0 has its echo only (R93). -/
theorem State.reset_sesAt (k : Nat) : (State.reset.sesAt k).isOpen = false := by
  change (vget (vset (Vector.replicate 16 ({} : Session)) 0 { echo := true }) k).isOpen = false
  rw [vget_vset]
  split
  · rfl
  · by_cases hk : k < 16
    · simp [vget, hk]
    · simp only [vget, hk, not_false_eq_true, Vector.getElem?_eq_none, Nat.le_of_not_lt, Option.getD_none]
      rfl

/-- Every memory is empty at reset: each byte has its default value. -/
theorem State.reset_memOk : State.reset.memOk := ⟨rfl, rfl, rfl, rfl, rfl, rfl, rfl, rfl⟩

/-- Settles O5: each field has its reset value; the threads are those of `Thread.cold`. -/
theorem resetState : Obligations.ResetState := by
  refine ⟨State.reset_memOk, rfl, rfl, rfl, rfl, rfl, ?lc, rfl, ?others, rfl, fun k => State.reset_sesAt k.val⟩
  case lc =>
    rw [State.reset_th (by decide)]
    rfl
  case others =>
    intro t ht
    rw [State.reset_th t.isLt]
    simp [Thread.cold, ht]

/-! ### What a cold start cuts short -/

section
variable (s : State)

/-- A furrow line that is cut short leaves the other memories, and whether reset is held. -/
theorem State.cutLine_frame (clean : Bool) (line : Nat) (b : List Byte) :
    (s.cutLine clean line b).mems = s.mems ∧ (s.cutLine clean line b).sys.inReset = s.sys.inReset := by
  unfold State.cutLine
  dsimp only
  split <;> exact ⟨rfl, rfl⟩

/-- So does the furrow write that a cold start meets, whichever it is. -/
theorem State.cutFurrow_frame (clean : Bool) :
    (s.cutFurrow clean).mems = s.mems ∧ (s.cutFurrow clean).sys.inReset = s.sys.inReset := by
  unfold State.cutFurrow
  split
  · exact s.cutLine_frame ..
  · exact s.cutLine_frame ..
  · dsimp only
    split
    · exact ⟨rfl, rfl⟩
    · split
      · exact s.draw.2.cutLine_frame ..
      · exact ⟨rfl, rfl⟩
  · exact ⟨rfl, rfl⟩

/-- The seedbank write that a cold start meets leaves the furrow as well. -/
theorem State.cutSeedbank_frame :
    s.cutSeedbank.mems = s.mems ∧ s.cutSeedbank.sys.inReset = s.sys.inReset ∧ s.cutSeedbank.fur = s.fur := by
  unfold State.cutSeedbank
  split <;> exact ⟨rfl, rfl, rfl⟩

/-- With no write in progress and none that waits, a cold start leaves the furrow. -/
theorem State.cutFurrow_idle {s : State} (clean : Bool) (hw : s.jrn.writing = none) (ho : s.fur.op ≠ some .write)
    (hp : s.fur.pendingLines = []) : s.cutFurrow clean = s := by
  unfold State.cutFurrow
  split <;> simp_all

/-! ### What a cold start leaves -/

/-- The state that a cold start resets: what it cuts short is settled, where reset was not held already. -/
def State.coldCut (s : State) (clean : Bool) : State :=
  let u := s.modHnd fun x => { x with marks := s.coldMarks }
  if s.sys.inReset then u else (u.cutFurrow clean).cutSeedbank

theorem State.coldStart_eq (code : Nat) (clean low : Bool) :
    s.coldStart code clean low =
      (s.coldCut clean).coldReset
        (if (s.coldCut clean).sys.inReset && code ≠ 1 then (s.coldCut clean).sys.coldCause else code) low (code ≠ 1) := rfl

theorem State.coldCut_frame (clean : Bool) :
    (s.coldCut clean).mems = s.mems ∧ (s.coldCut clean).sys.inReset = s.sys.inReset := by
  unfold State.coldCut
  extract_lets u
  split
  · exact ⟨rfl, rfl⟩
  · obtain ⟨hm, hr, -⟩ := (u.cutFurrow clean).cutSeedbank_frame
    obtain ⟨hm', hr'⟩ := u.cutFurrow_frame clean
    exact ⟨hm.trans hm', hr.trans hr'⟩

theorem State.coldCut_fur {s : State} (clean : Bool) (hw : s.jrn.writing = none) (ho : s.fur.op ≠ some .write)
    (hp : s.fur.pendingLines = []) : (s.coldCut clean).fur = s.fur := by
  unfold State.coldCut
  extract_lets u
  split
  · rfl
  · obtain ⟨-, -, hfur⟩ := (u.cutFurrow clean).cutSeedbank_frame
    rw [hfur, State.cutFurrow_idle (s := u) clean hw ho hp]
    rfl

/-- State `t` holds reset, as a cold start with cause `code` from `s` leaves it (R67, R69, R71, R90, R92). -/
def State.ColdFrom (s t : State) (code : Nat) : Prop :=
  t.sys.inReset = true ∧ t.up = [] ∧ t.hnd.opens = [] ∧ t.sys.clamps = 0xFFF#12 ∧ t.sys.kst = .latch ∧ t.mems.data = []
    ∧ t.mems.plotRam = [] ∧ t.mems.latch = [] ∧ t.mems.flash = s.mems.flash ∧ (s.sys.inReset = false → t.sys.coldCause = code)
    ∧ (s.jrn.writing = none → s.fur.op ≠ some .write → s.fur.pendingLines = [] → t.fur.mem = s.fur.mem)

section
variable (code : Nat) (clean low jtag : Bool)

theorem State.coldReset_flash : (s.coldReset code low jtag).mems.flash = s.mems.flash := rfl
theorem State.coldReset_furMem : (s.coldReset code low jtag).fur.mem = s.fur.mem := rfl
theorem State.coldReset_coldCause : (s.coldReset code low jtag).sys.coldCause = code := rfl

/-- A cold start's reset takes the flash and the furrow's memory over, and gives the rest its reset value. -/
theorem State.coldStart_coldFrom : s.ColdFrom (s.coldStart code clean low) code := by
  obtain ⟨hmems, hin⟩ := s.coldCut_frame clean
  rw [State.coldStart_eq]
  refine ⟨rfl, rfl, rfl, rfl, rfl, rfl, rfl, rfl, ?flash, fun hr => ?cause, fun hw ho hp => ?furrow⟩
  case flash => rw [State.coldReset_flash, hmems]
  case cause =>
    rw [State.coldReset_coldCause, hin, hr]
    rfl
  case furrow => rw [State.coldReset_furMem, State.coldCut_fur clean hw ho hp]

end
end

theorem exec_resetRelease {s : State} (hr : s.sys.inReset = true) (head cts : Bool) :
    exec (.resetRelease head cts) s = .next (if s.jtag.dbgReset then s else
      { s with sys := { s.sys with inReset := false, vstbyLow := false, head := head }
               con := { s.con with cts := cts }
               ring := { s.ring with number := if head then some 0 else none } }) := by
  change execResetRelease head cts s = _
  unfold execResetRelease goOn
  rw [hr, Bool.not_true, Bool.false_or]
  rfl

/-- Settles O37: each source is a cold start with its code, and the release samples the inputs unless DBG_RESET holds it. -/
theorem coldStarts : Obligations.ColdStarts := by
  intro s b head cts
  refine ⟨⟨_, rfl, s.coldStart_coldFrom 1 true false⟩, ⟨_, rfl, s.coldStart_coldFrom 2 b true⟩,
    ⟨_, rfl, s.coldStart_coldFrom 3 true false⟩, ⟨_, rfl, s.coldStart_coldFrom 4 true false⟩,
    ⟨_, _, rfl, s.draw.2.coldStart_coldFrom _ true false⟩, fun hr hd => ?released, fun hr hd => ?held⟩
  case released => rw [exec_resetRelease hr, hd, if_neg Bool.false_ne_true]
  case held => rw [exec_resetRelease hr, if_pos hd]

/-! ### What an announcement leaves -/

/-- Of the ring a notice touches the insertion queue, where it goes to the head, or the count of those that found no room. -/
theorem State.notice_ring (s : State) (t : String) :
    (s.notice t).ring = { s.ring with insq := (s.notice t).ring.insq, notices := (s.notice t).ring.notices } := by
  have hhead : ∀ u : State, (u.toHead t).ring = { u.ring with insq := (u.toHead t).ring.insq, notices := (u.toHead t).ring.notices } := by
    intro u
    unfold State.toHead
    split
    · split
      · dsimp only
        split <;> rfl
      · rfl
    · rfl
  have hpush : (s.pushLine t).ring = s.ring := by
    unfold State.pushLine State.pushOut
    split <;> rfl
  unfold State.notice
  dsimp only
  rw [hhead]
  split
  · rw [hpush]
  · rfl

/-- A function's announcement is its notice, and the function is up. -/
theorem State.announce_eq (s : State) (f : Fn) (t : String) :
    s.announce f t = { s with up := s.up ++ [f], con := (s.announce f t).con
                              ring := { s.ring with insq := (s.announce f t).ring.insq
                                                    notices := (s.announce f t).ring.notices } } := by
  unfold State.announce
  dsimp only
  rw [← State.notice_ring, State.notice_up]
  conv => lhs; rw [State.notice_eq]

section
variable (s : State) (f : Fn) (t : String)

@[simp] theorem State.announce_up : (s.announce f t).up = s.up ++ [f] := by rw [State.announce_eq]
@[simp] theorem State.announce_mems : (s.announce f t).mems = s.mems := by rw [State.announce_eq]
@[simp] theorem State.announce_fur : (s.announce f t).fur = s.fur := by rw [State.announce_eq]
@[simp] theorem State.announce_jrn : (s.announce f t).jrn = s.jrn := by rw [State.announce_eq]
@[simp] theorem State.announce_sdb : (s.announce f t).sdb = s.sdb := by rw [State.announce_eq]
@[simp] theorem State.announce_cal : (s.announce f t).cal = s.cal := by rw [State.announce_eq]
@[simp] theorem State.announce_keys : (s.announce f t).keys = s.keys := by rw [State.announce_eq]
@[simp] theorem State.announce_sesAt (k : Nat) : (s.announce f t).sesAt k = s.sesAt k := by rw [State.announce_eq]; rfl
@[simp] theorem State.announce_que (q : Nat) : (s.announce f t).que q = s.que q := by rw [State.announce_eq]; rfl
@[simp] theorem State.announce_number : (s.announce f t).ring.number = s.ring.number := by rw [State.announce_eq]
@[simp] theorem State.announce_ringSt : (s.announce f t).ring.st = s.ring.st := by rw [State.announce_eq]
@[simp] theorem State.announce_own : (s.announce f t).ring.own = s.ring.own := by rw [State.announce_eq]
@[simp] theorem State.notice_number : (s.notice t).ring.number = s.ring.number := by rw [State.notice_ring]

end

/-! ### The turn of a latch function -/

/-- `f` has neither announced nor gone down, and every function of `before` has done one or the other (R76). -/
def State.Turn (s : State) (before : List Fn) (f : Fn) : Prop :=
  s.isUp f = false ∧ f ∉ s.down ∧ ∀ g ∈ before, s.isUp g = true ∨ g ∈ s.down

/-- Out of reset, the turn of a latch function is that after all before it in the order of R76. -/
theorem State.latchTurn_iff {s : State} (hr : s.sys.inReset = false) {before : List Fn} {f : Fn}
    (hb : latchOrder.takeWhile (fun g => g ≠ f) = before) : s.latchTurn f = true ↔ s.Turn before f := by
  simp only [State.latchTurn, State.turnOf, State.Turn, hr, hb, Bool.not_false, Bool.true_and, Bool.and_eq_true, Bool.not_eq_true',
    List.all_eq_true, Bool.or_eq_true, List.contains_iff_mem, ← Bool.not_eq_true, and_assoc]

/-- A command of the latch sequence acts in its turn, and leaves the state out of it (log 11). -/
theorem goOn_turn (b : Bool) (s u : State) : goOn (if !b then s else u) = .next (if b then u else s) := by
  cases b <;> rfl

/-! ### What each announcement brings -/

section
variable (s : State)

@[simp] theorem State.setQueue_mems (q limit urg : Nat) : (s.setQueue q limit urg).mems = s.mems := rfl

/-- The latch queues have the limits and urgencies of R641. -/
def State.setLatchQueues (s : State) : State := latchQueues.foldl (fun s x => s.setQueue x.1 x.2.1 x.2.2) s

@[simp] theorem State.setLatchQueues_up : s.setLatchQueues.up = s.up := by
  unfold State.setLatchQueues
  exact foldl_frame State.up (fun u x => u.setQueue_up ..) _ s

@[simp] theorem State.setLatchQueues_mems : s.setLatchQueues.mems = s.mems := by
  unfold State.setLatchQueues
  exact foldl_frame State.mems (fun u x => u.setQueue_mems ..) _ s

/-- Each latch queue has the limit and the urgency of its line of R641. -/
theorem State.setLatchQueues_que {q limit urg : Nat} (h : (q, limit, urg) ∈ latchQueues) :
    (s.setLatchQueues.que q).limit = limit ∧ (s.setLatchQueues.que q).urg = urg := by
  have hone : ∀ x ∈ latchQueues, ∀ y ∈ latchQueues, x.1 = y.1 ∧ x.1 < 64 → x.2 = y.2 := by decide
  have hlt : ∀ x ∈ latchQueues, x.1 < 64 := by decide
  unfold State.setLatchQueues
  refine foldl_reaches (P := fun v : State => (v.que q).limit = limit ∧ (v.que q).urg = urg) h (fun u => ?_) (fun x hx u hu => ?_) _
  · rw [State.setQueue_que, if_pos ⟨rfl, hlt _ h⟩]
    exact ⟨rfl, rfl⟩
  · rw [State.setQueue_que]
    split
    next hq =>
      rw [hone x hx _ h hq]
      exact ⟨rfl, rfl⟩
    next => exact hu

/-- The state in which LINE announces: the latch queues, the tick items' queue, session 0 (R76, R107, R641). -/
def State.lineSet (s : State) : State :=
  (s.setLatchQueues.modCal fun c => { c with tickQ := 58, post := true }).modSes 0 fun _ => { isOpen := true, echo := true }

/-- LINE: the notice, and the head's first pass (R76, R315). -/
def State.lineUp (s : State) : State := (s.lineSet.announce .line "LINE 115200").startPass

theorem exec_readyLine : exec .readyLine s = .next (if s.latchTurn .line then s.lineUp else s) := goOn_turn ..

@[simp] theorem State.que_modSes (k : Nat) (f : Session → Session) (q : Nat) : (s.modSes k f).que q = s.que q := rfl
@[simp] theorem State.que_modCal (f : Calendar → Calendar) (q : Nat) : (s.modCal f).que q = s.que q := rfl
@[simp] theorem State.sesAt_modSes_self {k : Nat} (f : Session → Session) (hk : k < 16) : (s.modSes k f).sesAt k = f (s.sesAt k) := by
  simp [State.sesAt, State.modSes, hk]

@[simp] theorem State.lineSet_up : s.lineSet.up = s.up := by simp [State.lineSet]
@[simp] theorem State.lineSet_mems : s.lineSet.mems = s.mems := by simp [State.lineSet]
@[simp] theorem State.lineSet_sesAt : s.lineSet.sesAt 0 = { isOpen := true, echo := true } := by simp [State.lineSet]
@[simp] theorem State.lineSet_que (q : Nat) : s.lineSet.que q = s.setLatchQueues.que q := by simp [State.lineSet]
@[simp] theorem State.lineSet_tickQ : s.lineSet.cal.tickQ = 58 := by simp [State.lineSet]
@[simp] theorem State.lineSet_post : s.lineSet.cal.post = true := by simp [State.lineSet]

theorem State.startPass_eq : s.startPass = { s with ring := s.startPass.ring } := by
  unfold State.startPass
  split <;> rfl

@[simp] theorem State.startPass_up : s.startPass.up = s.up := by rw [State.startPass_eq]
@[simp] theorem State.startPass_mems : s.startPass.mems = s.mems := by rw [State.startPass_eq]
@[simp] theorem State.startPass_cal : s.startPass.cal = s.cal := by rw [State.startPass_eq]
@[simp] theorem State.startPass_sesAt (k : Nat) : s.startPass.sesAt k = s.sesAt k := by rw [State.startPass_eq]; rfl
@[simp] theorem State.startPass_que (q : Nat) : s.startPass.que q = s.que q := by rw [State.startPass_eq]; rfl

theorem State.lineUp_spec : s.lineUp.up = s.up ++ [Fn.line] ∧ (s.lineUp.sesAt 0).isOpen = true ∧ (s.lineUp.sesAt 0).echo = true
    ∧ s.lineUp.cal.tickQ = 58 ∧ s.lineUp.cal.post = true ∧ ((s.lineUp.que 57).limit = 64 ∧ (s.lineUp.que 57).urg = 1)
    ∧ ((s.lineUp.que 63).limit = 8 ∧ (s.lineUp.que 63).urg = 3) ∧ s.lineUp.mems = s.mems := by
  have h57 := s.setLatchQueues_que (q := 57) (limit := 64) (urg := 1) (by decide)
  have h63 := s.setLatchQueues_que (q := 63) (limit := 8) (urg := 3) (by decide)
  simp [State.lineUp, h57, h63]

/-- FACE: the notice, and the face leaves its start view (R83). -/
def State.faceUp (s : State) : State := ((s.announce .face "FACE").modFace fun f => { f with started := true }).render

theorem exec_readyFace : exec .readyFace s = .next (if s.latchTurn .face then s.faceUp else s) := goOn_turn ..

@[simp] theorem State.render_up : s.render.up = s.up := rfl
@[simp] theorem State.render_mems : s.render.mems = s.mems := rfl
@[simp] theorem State.render_started : s.render.face.started = s.face.started := rfl

theorem State.faceUp_spec : s.faceUp.up = s.up ++ [Fn.face] ∧ s.faceUp.face.started = true ∧ s.faceUp.mems = s.mems := by
  simp [State.faceUp]

/-- SEEDBANK: the settings in force, the notice, and the termination as stored (R290, R357). -/
def State.seedbankUp (s : State) : State :=
  (s.loadSeedbank.announce .seedbank s.loadSeedbank.seedbankDetail).modRing fun r => { r with term := s.loadSeedbank.sdb.term }

theorem exec_readySeedbank : exec .readySeedbank s = .next (if s.latchTurn .seedbank then s.seedbankUp else s) := goOn_turn ..

@[simp] theorem State.loadSeedbank_up : s.loadSeedbank.up = s.up := by simp [State.loadSeedbank]
@[simp] theorem State.loadSeedbank_sdbMem : s.loadSeedbank.sdb.mem = s.sdb.mem := by simp [State.loadSeedbank]

theorem State.seedbankUp_spec : s.seedbankUp.up = s.up ++ [Fn.seedbank] ∧ s.seedbankUp.ring.term = s.seedbankUp.sdb.term
    ∧ s.seedbankUp.sdb.mem = s.sdb.mem := by
  simp [State.seedbankUp]

/-- FURROW: the journal's records are read and ranked, and the notice counts the bad ones (R271, R272). -/
def State.furrowUp (s : State) : State :=
  let u := s.loadJournal.rankOpens
  u.announce .furrow (if u.jrn.bad = 0 then "FURROW" else "FURROW BAD " ++ decText u.jrn.bad)

theorem exec_readyFurrow : exec .readyFurrow s = .next (if s.latchTurn .furrow then s.furrowUp else s) := goOn_turn ..

theorem State.ranked_frame (kk seq : Nat) (f : Form) :
    (s.ranked kk seq f).up = s.up ∧ (s.ranked kk seq f).jrn = s.jrn ∧ (s.ranked kk seq f).fur = s.fur := by
  unfold State.ranked
  split <;> exact ⟨rfl, rfl, rfl⟩

theorem State.rankOpens_frame : s.rankOpens.up = s.up ∧ s.rankOpens.jrn = s.jrn ∧ s.rankOpens.fur = s.fur := by
  unfold State.rankOpens
  exact ⟨foldl_frame State.up (fun u h => (u.ranked_frame ..).1) _ s, foldl_frame State.jrn (fun u h => (u.ranked_frame ..).2.1) _ s,
    foldl_frame State.fur (fun u h => (u.ranked_frame ..).2.2) _ s⟩

theorem State.loadJournal_frame : s.loadJournal.up = s.up ∧ s.loadJournal.fur = s.fur := by simp [State.loadJournal]

theorem State.loadJournal_bad : s.loadJournal.jrn.bad = badOf s.journalSlots := by
  unfold State.loadJournal
  dsimp only [State.modHnd_jrn, State.modJrn_jrn]
  split <;> dsimp only

theorem State.furrowUp_spec : s.furrowUp.up = s.up ++ [Fn.furrow] ∧ s.furrowUp.jrn.bad = badOf s.journalSlots
    ∧ s.furrowUp.fur.mem = s.fur.mem := by
  obtain ⟨hup, hjrn, hfur⟩ := s.loadJournal.rankOpens_frame
  obtain ⟨hup', hfur'⟩ := s.loadJournal_frame
  unfold State.furrowUp
  refine ⟨?up, ?jrn, ?fur⟩
  case up => rw [State.announce_up, hup, hup']
  case jrn => rw [State.announce_jrn, hjrn, State.loadJournal_bad]
  case fur => rw [State.announce_fur, hfur, hfur']

/-- The state in which CALENDAR announces: the count goes on from where it resumes, with the ticks since reset release (R77, R363). -/
def State.calendarSet (s : State) : State :=
  (s.rebase (s.resumeTick + s.cal.sinceReset - s.cal.tick)).modCal fun c =>
    { c with tick := s.resumeTick + s.cal.sinceReset, newestB := s.newestCal.map Prod.fst
             saveSeq := (s.newestCal.map Prod.snd).getD 0 }

/-- CALENDAR: the count as it goes on, and the notice. -/
def State.calendarUp (s : State) : State := s.calendarSet.announce .calendar "CALENDAR UTC-UNSET"

theorem exec_readyCalendar : exec .readyCalendar s = .next (if s.latchTurn .calendar then s.calendarUp else s) := goOn_turn ..

@[simp] theorem State.calendarSet_up : s.calendarSet.up = s.up := rfl
@[simp] theorem State.calendarSet_fur : s.calendarSet.fur = s.fur := rfl
@[simp] theorem State.calendarSet_tick : s.calendarSet.cal.tick = s.resumeTick + s.cal.sinceReset := rfl

theorem State.calendarUp_spec : s.calendarUp.up = s.up ++ [Fn.calendar] ∧ s.calendarUp.cal.tick = s.resumeTick + s.cal.sinceReset
    ∧ s.calendarUp.fur.mem = s.fur.mem := by
  simp [State.calendarUp]

end

/-! RING waits for its result: the head's first pass or the break of its ring, a member's number, OVERFLOW, or its time limit. -/

section
variable {s : State}

theorem exec_readyRing_outOfTurn (h : ¬ s.latchTurn .ring = true) :
    exec .readyRing s = .next s ∧ exec .ringAloneTimeout s = .next s := by
  change execReadyRing s = _ ∧ execRingAloneTimeout s = _
  simp [execReadyRing, execRingAloneTimeout, goOn, h]

/-- RING has announced in state `t`, and the number that the keeper holds stands. -/
def State.RingTold (s t : State) : Prop := t.up = s.up ++ [Fn.ring] ∧ t.ring.number = s.ring.number

theorem State.announce_ringTold (s : State) (t : String) : s.RingTold (s.announce .ring t) := by simp [State.RingTold]

theorem State.RingTold.notice {s u : State} (h : s.RingTold u) (t : String) : s.RingTold (u.notice t) := by
  simpa [State.RingTold] using h

theorem exec_readyRing_head (h : s.latchTurn .ring = true) (hh : s.sys.head = true)
    (hst : s.ring.st = .ok ∨ s.ring.st = .overflow ∨ s.ring.st = .broken) :
    ∃ t, exec .readyRing s = .next t ∧ s.RingTold t := by
  change ∃ t, execReadyRing s = _ ∧ _
  unfold execReadyRing goOn
  rw [h, hh]
  obtain hok | hover | hbroken := hst
  · rw [hok]
    exact ⟨_, rfl, s.announce_ringTold _⟩
  · rw [hover]
    exact ⟨_, rfl, (s.announce_ringTold _).notice _⟩
  · rw [hbroken]
    exact ⟨_, rfl, (s.announce_ringTold _).notice _⟩

theorem exec_readyRing_member (h : s.latchTurn .ring = true) (hh : s.sys.head = false)
    (hn : s.ring.number.isSome = true ∨ s.ring.st = .overflow) : ∃ t, exec .readyRing s = .next t ∧ s.RingTold t := by
  change ∃ t, execReadyRing s = _ ∧ _
  unfold execReadyRing goOn
  rw [h, hh]
  cases hnum : s.ring.number with
  | some n => exact ⟨_, rfl, s.announce_ringTold _⟩
  | none =>
    have hover : s.ring.st = .overflow := by simpa [hnum] using hn
    rw [hover]
    exact ⟨_, rfl, s.announce_ringTold _⟩

/-- A member that no pass has numbered in time is alone, and asks to join (R78, R321). -/
theorem exec_ringAloneTimeout (h : s.latchTurn .ring = true) (hh : s.sys.head = false) (hst : s.ring.st = .pending) :
    ∃ t, exec .ringAloneTimeout s = .next t ∧ t.up = s.up ++ [Fn.ring] ∧ t.ring.st = .alone
      ∧ t.ring.own = s.ring.own ++ [Frame.join] := by
  refine ⟨((s.modRing fun r => { r with st := .alone, joining := true }).announce .ring "RING ALONE").sendOwn .join, ?_, ?_⟩
  · change execRingAloneTimeout s = _
    simp [execRingAloneTimeout, goOn, h, hh, hst]
  · simp [State.sendOwn]

end

section
variable (s : State)

theorem exec_readyReplay : exec .readyReplay s = .next (if s.latchTurn .replay then
      let w := s.restoreLocks.loadLedger
      let v := ({ w with up := w.up ++ [Fn.replay] } : State).coldReplay
      ({ v with up := v.up.filter fun f => f ≠ Fn.replay } : State).announce .replay ("REPLAY " ++ decText v.replayWaiting)
    else s) := goOn_turn ..

/-- A live handle found open waits for the next WAKE where its form needs the field (R88). -/
theorem State.markOpens_waiting {h : Handle} (hm : h ∈ s.markOpens.hnd.opens) (hl : h.isLive = true) :
    h.waiting = h.form.needsField := by
  obtain ⟨g, -, rfl⟩ := List.mem_map.mp hm
  by_cases hg : g.isLive = true
  · rw [if_pos hg]
  · rw [if_neg hg] at hl
    exact absurd hl hg

/-- KEYS: the notice, and the tags as LC shows them from then on (R87, R480). -/
def State.keysUp (s : State) : State := (s.announce .keys "KEYS").showTags

/-- LC waits for the scanner: it writes POST (R87, R470). -/
def State.keysPost (s : State) : State := s.modKeys fun x => { x with post := true }

theorem exec_readyKeys :
    exec .readyKeys s = .next (if s.latchTurn .keys then if s.keys.armed then s.keysUp else s.keysPost else s) := goOn_turn ..

theorem State.showTags_frame : s.showTags.keys = s.keys ∧ s.showTags.mems = s.mems := by
  unfold State.showTags
  exact ⟨foldl_frame State.keys (fun u n => by rw [State.showTag_eq]) _ s,
    foldl_frame State.mems (fun u n => by rw [State.showTag_eq]) _ s⟩

theorem State.keysUp_spec : s.keysUp.up = s.up ++ [Fn.keys] ∧ s.keysUp.keys = s.keys ∧ s.keysUp.mems = s.mems := by
  obtain ⟨hkeys, hmems⟩ := (s.announce .keys "KEYS").showTags_frame
  simp [State.keysUp, hkeys, hmems]

end

/-- Settles O38: each function's turn comes by the order of R76; its announcement brings what its command has computed. -/
theorem latchSequence : Obligations.LatchSequence := by
  intro s hr turn toRing
  have line : s.latchTurn .line = true ↔ turn [] .line := State.latchTurn_iff hr (by decide)
  have face : s.latchTurn .face = true ↔ turn [.line] .face := State.latchTurn_iff hr (by decide)
  have seedbank : s.latchTurn .seedbank = true ↔ turn [.line, .face] .seedbank := State.latchTurn_iff hr (by decide)
  have furrow : s.latchTurn .furrow = true ↔ turn [.line, .face, .seedbank] .furrow := State.latchTurn_iff hr (by decide)
  have calendar : s.latchTurn .calendar = true ↔ turn [.line, .face, .seedbank, .furrow] .calendar :=
    State.latchTurn_iff hr (by decide)
  have ring : s.latchTurn .ring = true ↔ turn toRing .ring := State.latchTurn_iff hr (by decide)
  have replay : s.latchTurn .replay = true ↔ turn (toRing ++ [.ring]) .replay := State.latchTurn_iff hr (by decide)
  have keys : s.latchTurn .keys = true ↔ turn (toRing ++ [.ring, .replay]) .keys := State.latchTurn_iff hr (by decide)
  rw [exec_readyLine, exec_readyFace, exec_readySeedbank, exec_readyFurrow, exec_readyCalendar, exec_readyReplay, exec_readyKeys,
    ← line, ← face, ← seedbank, ← furrow, ← calendar, ← ring, ← replay, ← keys]
  refine ⟨fun h => ⟨_, congrArg _ (if_pos h), s.lineUp_spec⟩, fun h => ⟨_, congrArg _ (if_pos h), s.faceUp_spec⟩,
    fun h => ⟨_, congrArg _ (if_pos h), s.seedbankUp_spec⟩, fun h => ⟨_, congrArg _ (if_pos h), s.furrowUp_spec⟩,
    fun h => ⟨_, congrArg _ (if_pos h), s.calendarUp_spec⟩,
    fun h => ⟨exec_readyRing_head h, exec_readyRing_member h, exec_ringAloneTimeout h⟩,
    fun h => ⟨congrArg _ (if_pos h), fun g hg => State.markOpens_waiting _ hg⟩,
    fun h => ⟨fun ha => ⟨_, congrArg _ ((if_pos h).trans (if_pos ha)), s.keysUp_spec⟩, fun ha => ?post⟩,
    fun h => congrArg _ (if_neg h), fun h => congrArg _ (if_neg h), fun h => congrArg _ (if_neg h), fun h => congrArg _ (if_neg h),
    fun h => congrArg _ (if_neg h), exec_readyRing_outOfTurn, fun h => congrArg _ (if_neg h), fun h => congrArg _ (if_neg h)⟩
  case post =>
    rw [if_pos h, ha, if_neg Bool.false_ne_true]
    rfl

end Sys2Proof.Machine

/-! SUPPORT. The statements of the Huath line: the console's characters and lines, and what the verbs report, open, store and leave. A
verb's statement is settled by what its line does (`LineRuns.exec_eq`) and by what an answer leaves (`State.TellsTo`). -/

namespace Sys2Proof.Machine

/-! ### What the console's reading leaves -/

/-- What the reading of characters leaves of the console: its rate, XON/XOFF, a received XOFF, and, with XON/XOFF off, the flow character
that waits. -/
def Console.settings (c : Console) : Nat × Bool × Bool × Option Byte := (c.baud, c.xon, c.stopped, if c.xon then none else c.flowDue)

/-- `t` is `s` but for the console, whose settings stand. -/
def State.ReadsTo (s t : State) : Prop := t = { s with con := t.con } ∧ t.con.settings = s.con.settings

section
variable {s t : State}

theorem State.ReadsTo.refl (s : State) : s.ReadsTo s := ⟨rfl, rfl⟩

theorem State.ReadsTo.trans {u : State} (h : s.ReadsTo t) (g : t.ReadsTo u) : s.ReadsTo u :=
  ⟨by rw [g.1, h.1], g.2.trans h.2⟩

theorem State.ReadsTo.modCon (h : s.ReadsTo t) {f : Console → Console}
    (hf : ∀ c, (f c).settings = c.settings := by exact fun _ => rfl) : s.ReadsTo (t.modCon f) := h.trans ⟨rfl, hf _⟩

theorem State.ReadsTo.echo (h : s.ReadsTo t) (x : String) : s.ReadsTo (t.echo x) := by
  unfold State.echo
  split
  · exact h.modCon
  · exact h

theorem State.ReadsTo.endLine (h : s.ReadsTo t) : s.ReadsTo t.endLine := by
  unfold State.endLine
  exact (h.echo _).modCon fun c => by split <;> rfl

theorem State.ReadsTo.editChar (h : s.ReadsTo t) (b : Byte) : s.ReadsTo (t.editChar b) := by
  have h : s.ReadsTo (t.modCon fun c => { c with lastCr := b.toNat = 13 }) := h.modCon
  unfold State.editChar
  dsimp only
  split
  · split
    · exact h
    · exact (h.echo _).modCon
  split
  · split
    · exact h
    · exact h.modCon.echo _
  split
  · exact h.modCon.echo _
  split
  · exact h.endLine
  split
  · split
    · exact h
    · exact h.endLine
  · exact h

theorem Console.flowChar_settings (c : Console) (b : Byte) : (c.flowChar b).settings = c.settings := by
  unfold Console.flowChar
  cases hx : c.xon with
  | false => rfl
  | true => cases c.cts <;> simp [Console.settings, hx]

theorem State.ReadsTo.flowPoints (h : s.ReadsTo t) : s.ReadsTo t.flowPoints := by
  unfold State.flowPoints
  dsimp only
  split
  · exact h.modCon fun c => Console.flowChar_settings ..
  split
  · exact h.modCon fun c => Console.flowChar_settings ..
  · exact h

theorem State.ReadsTo.pump (h : s.ReadsTo t) (n : Nat) : s.ReadsTo (t.pump n) := by
  induction n generalizing t with
  | zero => exact h
  | succ n ih =>
    unfold State.pump
    split
    · exact h
    split
    · exact ih h.modCon
    split
    · exact h
    · exact ih (State.ReadsTo.editChar h.modCon _).flowPoints

end

theorem State.readsTo_readOn (s : State) : s.ReadsTo s.readOn := (State.ReadsTo.refl s).pump _

theorem State.readsTo_afterLine (s : State) (k : Nat) : s.ReadsTo (s.afterLine k) := by
  unfold State.afterLine
  split
  · exact (State.ReadsTo.refl s).pump _
  · exact State.ReadsTo.refl s

/-! ### What an answer leaves -/

/-- `t` is `s` but for the console, whose settings stand, and the ring. -/
def State.TellsTo (s t : State) : Prop := t = { s with con := t.con, ring := t.ring } ∧ t.con.settings = s.con.settings

section
variable {s t : State}

theorem State.TellsTo.refl (s : State) : s.TellsTo s := ⟨rfl, rfl⟩

theorem State.TellsTo.trans {u : State} (h : s.TellsTo t) (g : t.TellsTo u) : s.TellsTo u :=
  ⟨by rw [g.1, h.1], g.2.trans h.2⟩

theorem State.ReadsTo.tells (h : s.ReadsTo t) : s.TellsTo t := ⟨by rw [h.1], h.2⟩

theorem State.TellsTo.sys (h : s.TellsTo t) : t.sys = s.sys := by rw [h.1]
theorem State.TellsTo.ses (h : s.TellsTo t) : t.ses = s.ses := by rw [h.1]
theorem State.TellsTo.sesAt (h : s.TellsTo t) (k : Nat) : t.sesAt k = s.sesAt k := by rw [h.1]; rfl
theorem State.TellsTo.hnd (h : s.TellsTo t) : t.hnd = s.hnd := by rw [h.1]
theorem State.TellsTo.sdb (h : s.TellsTo t) : t.sdb = s.sdb := by rw [h.1]
theorem State.TellsTo.cal (h : s.TellsTo t) : t.cal = s.cal := by rw [h.1]
theorem State.TellsTo.bays (h : s.TellsTo t) : t.bays = s.bays := by rw [h.1]
theorem State.TellsTo.bayAt (h : s.TellsTo t) (n : Nat) : t.bayAt n = s.bayAt n := by rw [h.1]; rfl
theorem State.TellsTo.fanAt (h : s.TellsTo t) (n : Nat) : t.fanAt n = s.fanAt n := by rw [h.1]; rfl
theorem State.TellsTo.sow (h : s.TellsTo t) : t.sow = s.sow := by rw [h.1]
theorem State.TellsTo.que (h : s.TellsTo t) (n : Nat) : t.que n = s.que n := by rw [h.1]; rfl

end

theorem State.tellsTo_pushOut (s : State) (o : Out) : s.TellsTo (s.pushOut o) := by
  unfold State.pushOut
  split <;> exact ⟨rfl, rfl⟩

theorem State.tellsTo_pushHeld (s : State) (o : Out) (done : Option (Nat × Nat)) : s.TellsTo (s.pushHeld o done) := by
  unfold State.pushHeld
  split
  · exact s.tellsTo_pushOut o
  · exact ⟨rfl, rfl⟩

theorem State.tellsTo_emit (s : State) (k : Nat) (t : String) : s.TellsTo (s.emit k t) := by
  unfold State.emit State.emitFor
  split
  · exact s.tellsTo_pushHeld ..
  · exact ⟨rfl, rfl⟩

theorem State.tellsTo_reply (s : State) (q : Src) (t : String) : s.TellsTo (s.reply q t) := s.tellsTo_emit ..

theorem State.tellsTo_replyRate (s : State) (q : Src) (t : String) : s.TellsTo (s.replyRate q t) := by
  unfold State.replyRate
  split
  · exact s.tellsTo_pushHeld ..
  · exact s.tellsTo_reply ..

theorem State.tellsTo_ringEcho (s : State) (k : Nat) (l : Option String) : s.TellsTo (s.ringEcho k l) := by
  unfold State.ringEcho
  split
  · split
    · exact s.tellsTo_emit ..
    · exact .refl s
  · exact .refl s

theorem State.tellsTo_afterLine (s : State) (k : Nat) : s.TellsTo (s.afterLine k) := (s.readsTo_afterLine k).tells

/-! ### What a verb's line does -/

section
variable {s u v : State} {q : Src}

/-- A line that runs, of a command whose meaning is a verb: the verb acts where the checks of R126 hold, and the line counts as ignored
where one fails (R127). -/
theorem LineRuns.verb_eq {c : Instr} (h : LineRuns s q c u v) (body : State → State) : verb s q c body =
    .next ((if u.formOk q.ses.val c then body v else u.ignore q.ses.val).afterLine q.ses.val) := by
  split
  next ho => exact LineOk.verb ⟨h, ho⟩
  next ho => exact h.refused (by simpa using ho)

/-- The same of the command. Used as `(h.exec_eq rfl :)`, so that `body` is what the command's own meaning says, before the statement to be
proved is looked at. -/
theorem LineRuns.exec_eq {c : Instr} (h : LineRuns s q c u v) {body : State → State} (hc : exec c s = Machine.verb s q c body) :
    exec c s = .next ((if u.formOk q.ses.val c then body v else u.ignore q.ses.val).afterLine q.ses.val) := hc.trans (h.verb_eq body)

theorem LineOk.exec_eq {c : Instr} (h : LineOk s q c u v) {body : State → State} (hc : exec c s = Machine.verb s q c body) :
    exec c s = .next ((body v).afterLine q.ses.val) := hc.trans h.verb

/-- What a PROVE line whose checks hold does: its session proves the tenancy, or is answered BUSY (R188, R335). -/
def State.takeProof (s : State) (q : Src) (groups : List (BitVec 16)) : State :=
  match s.proves q.ses.val groups with
  | some t =>
    if s.placeFree q.ses.val t then (s.modSes q.ses.val fun x => { x with proved := some t }).reply q ("PROVED T" ++ decText t)
    else s.busy q
  | none => s

/-- PROVE consumes its challenge, whatever the outcome (R188). -/
theorem LineRuns.exec_prove {groups : List (BitVec 16)} (h : LineRuns s q (.prove q groups) u v) :
    exec (.prove q groups) s = .next (((if u.formOk q.ses.val (.prove q groups) then v.takeProof q groups
      else u.ignore q.ses.val).afterLine q.ses.val).modSes q.ses.val fun x => { x with challenge := none }) := by
  have hrun := Host.Outcome.next.inj (h.verb_eq fun s => s.takeProof q groups)
  obtain ⟨hsends, hlong, -, -⟩ := h
  have hexec : exec (.prove q groups) s = goOn (if s.sends q (.prove q groups) && !s.longFirst q.ses.val then
      (s.runLine q (.prove q groups) (fun s => s.formOk q.ses.val (.prove q groups)) fun s => s.takeProof q groups).modSes
        q.ses.val fun x => { x with challenge := none }
    else s.runLine q (.prove q groups) (fun s => s.formOk q.ses.val (.prove q groups)) fun s => s.takeProof q groups) := rfl
  rw [hexec, if_pos (by simp [hsends, hlong]), hrun]
  rfl

end

/-- Settles O47: the meaning of each of these commands is a verb that sends lines to its session. -/
theorem verbReports : Obligations.VerbReports := by
  intro s u v q n r bays t x
  dsimp only
  and_intros
  all_goals exact fun h => (h.exec_eq rfl :)

/-- Settles O49: the meaning of each of these commands but PROVE is a verb, whose checks and effect `LineRuns.exec_eq` gives; PROVE
consumes its challenge besides. -/
theorem verbActs : Obligations.VerbActs := by
  intro s u v q b m n pm pa bays fans p w cores t groups r i core
  dsimp only
  refine ⟨?_, ?_, ?_, ?_, ?_, ?_, ?_, ?_, ?_, ?_, ?_, ?_, ?_, ?_, ?_, ?_, ?_, ?_, ?_, ?_, ?_, ?_, ?_, ?_, ?_, ?_, ?prove, ?handle⟩
  case prove =>
    refine fun h => ⟨fun t hup hu hv => ?proves, fun hno => ?fails⟩
    case proves =>
      rw [h.exec_prove, if_pos (by simp [State.formOk, hup, hu]), State.takeProof, hv]
    case fails =>
      rw [h.exec_prove, if_neg (by rcases hno with hno | hno <;> simp [State.formOk, hno])]
  case handle =>
    intro h hup
    have hok : LineOk s q (.handle q r) u v := ⟨h, hup⟩
    refine ⟨fun hopen hkept => ?unknown, fun x hopen => ?isOpen, fun x hopen hkept => ?closed⟩
    case unknown => exact (hok.exec_eq rfl).trans (by simp only [hopen, hkept, if_true])
    case isOpen => exact (hok.exec_eq rfl).trans (by simp only [hopen, if_true])
    case closed => exact (hok.exec_eq rfl).trans (by simp only [hopen, hkept, if_true])
  all_goals exact fun h => (h.exec_eq rfl :)

/-! ### Acceptance of a handle -/

/-- What stands of a handle from its acceptance until its ACCEPTED record is durable. -/
def Handle.issued (h : Handle) : Form × String × String × Nat × Nat × Bool × Phase :=
  (h.form, h.name, h.tag, h.ten, h.kk, h.accepted, h.phase)

/-- What stands of the open handles. -/
def State.issued (s : State) : List (Form × String × String × Nat × Nat × Bool × Phase) := s.hnd.opens.map Handle.issued

section
variable (s : State)

theorem State.modOpen_issued (kk seq : Nat) {f : Handle → Handle} (hf : ∀ h, (f h).issued = h.issued) :
    (s.modOpen kk seq f).issued = s.issued := by
  simp only [State.issued, State.modOpen, State.modHnd, List.map_map]
  refine List.map_congr_left fun h _ => ?_
  simp only [Function.comp_apply]
  split
  · exact hf h
  · rfl

theorem State.ownEnter_hnd (t : Nat) (a : Word) : (s.ownEnter t a).hnd = s.hnd := by
  unfold State.ownEnter
  dsimp only
  split <;> rfl

theorem State.holdBuffer_issued (kk seq : Nat) (a : Word) : (s.holdBuffer kk seq a).issued = s.issued := by
  have hbuf (u : State) : (u.modOpen kk seq fun h => { h with buf := some a }).issued = u.issued :=
    u.modOpen_issued kk seq fun _ => rfl
  rw [State.holdBuffer, hbuf, State.issued, State.ownEnter_hnd, State.issued]

theorem State.claim_issued (kk seq : Nat) (f : Form) : (s.claim kk seq f).issued = s.issued := by
  have hclaim : (s.modOpen kk seq fun h => { h with claim := f.items }).issued = s.issued := s.modOpen_issued kk seq fun _ => rfl
  unfold State.claim
  split
  · rfl
  · dsimp only
    split
    · split
      · exact hclaim
      · exact (State.holdBuffer_issued ..).trans hclaim
    · exact hclaim

theorem State.ranked_issued (kk seq : Nat) (f : Form) : (s.ranked kk seq f).issued = s.issued := by
  unfold State.ranked
  split
  · exact State.modOpen_issued _ kk seq fun _ => rfl
  · rfl

theorem State.request_issued (kk seq : Nat) (p : RecPhase) : (s.request kk seq p).issued = s.issued := by
  unfold State.request
  split <;> rfl

/-- Acceptance puts one handle behind the open ones, with the line's tag and the keeper's number (R221, R224). -/
theorem State.accept_issued (ten : Nat) (q : Src) (name : String) (form : Form) :
    (s.accept ten q name form).issued = s.issued ++ [(form, name, q.tag, ten, s.keeperNo, false, .accepted)] := by
  have hnew (h : Handle) (n : Nat) : (s.modHnd fun x => { x with opens := x.opens ++ [h], nextSeq := n }).issued
      = s.issued ++ [h.issued] := by simp [State.issued, State.modHnd]
  have hasked (u : State) (kk n : Nat) (f : Form) : (((u.claim kk n f).ranked kk n f).request kk n .accepted).issued
      = u.issued := by rw [State.request_issued, State.ranked_issued, State.claim_issued]
  have hcommits (u : State) (kk n : Nat) : (u.modOpen kk n fun h => { h with committing := true }).issued = u.issued :=
    u.modOpen_issued kk n fun _ => rfl
  unfold State.accept
  dsimp only
  split
  · rw [State.request_issued, hcommits, hasked, hnew]; rfl
  · rw [hasked, hnew]; rfl

end

section
variable {s : State} {q : Src} {name : String} {form : Form}

/-- A form whose resources are there is accepted (R129, R224). -/
theorem State.open_issued (hr : s.resources q form = true) : (s.open_ q name form).issued
    = s.issued ++ [(form, name, q.tag, s.recorded q.ses.val, s.keeperNo, false, .accepted)] := by
  rw [State.open_, if_pos hr, State.accept_issued]

/-- The handle that stands for an entry of the open ones. -/
theorem State.exists_of_issued {t : State} {x : Form × String × String × Nat × Nat × Bool × Phase} (h : x ∈ t.issued) :
    ∃ h ∈ t.hnd.opens, h.issued = x := List.mem_map.mp h

/-- What opening does: one handle more, not yet accepted, with the form, the name, the line's tag, the session's tenancy and the keeper's
number (R221, R225). -/
theorem State.open_spec (hr : s.resources q form = true) :
    (s.open_ q name form).hnd.opens.length = s.hnd.opens.length + 1
    ∧ ∃ h ∈ (s.open_ q name form).hnd.opens, h.form = form ∧ h.name = name ∧ h.tag = q.tag ∧ h.ten = s.recorded q.ses.val
      ∧ h.kk = s.keeperNo ∧ h.accepted = false ∧ h.phase = .accepted := by
  have hi := State.open_issued (name := name) hr
  refine ⟨by simpa [State.issued] using congrArg List.length hi, ?_⟩
  obtain ⟨h, hh, he⟩ := State.exists_of_issued (by rw [hi]; exact List.mem_append_right _ (List.mem_singleton_self _))
  simp only [Handle.issued, Prod.mk.injEq] at he
  exact ⟨h, hh, he⟩

end

/-! ### Settings to be stored -/

/-- A job is asked for: its setting, the line that waits for its answer, and no handle. -/
def Setting.Asked (x : Setting) (r : Nat × String × String) (l : List SdbJob) : Prop :=
  ∃ j ∈ l, j.setting = x ∧ j.reply = some r ∧ j.handle = none

theorem mem_insertJob (j : SdbJob) (l : List SdbJob) : j ∈ insertJob j l := by
  induction l with
  | nil => exact List.mem_singleton_self j
  | cons x l ih =>
    unfold insertJob
    split
    · exact List.mem_cons_self
    · exact List.mem_cons_of_mem x ih

section
variable {x : Setting} {r : Nat × String × String} {s : State}

/-- A retired page's mark goes behind the job in hand, which stays (R359). -/
theorem Setting.Asked.retirePage (h : x.Asked r s.sdb.jobs) (p : Nat) : x.Asked r (s.retirePage p).sdb.jobs := by
  obtain ⟨j, hj, hx, hr, hn⟩ := h
  simp only [State.retirePage, State.modSdb]
  cases hl : s.sdb.jobs with
  | nil => simp [hl] at hj
  | cons y l =>
    rcases List.mem_cons.mp (hl ▸ hj) with rfl | hj
    · exact ⟨_, List.mem_cons_self, hx, hr, hn⟩
    · exact ⟨j, by simp [hj], hx, hr, hn⟩

theorem State.worn_jobs (s : State) : s.worn.sdb.jobs = s.sdb.jobs := by
  unfold State.worn
  split
  · rfl
  · rw [State.notice_eq]; rfl

theorem Setting.Asked.sdbKick (h : x.Asked r s.sdb.jobs) : x.Asked r s.sdbKick.sdb.jobs := by
  have hwear (j : SdbJob) : x.Asked r (s.wearCheck j).sdb.jobs := by
    unfold State.wearCheck
    dsimp only
    split
    · exact h
    split
    · exact h.retirePage _
    · rwa [State.worn_jobs]
  unfold State.sdbKick
  split
  · exact h
  · split
    · exact hwear _
    · exact h

/-- A setting to be stored stands among the seedbank's jobs, whether its write begins at once or not (R360). -/
theorem State.store_asked (s : State) (q : Src) (x : Setting) (a : String) :
    x.Asked (q.ses.val, q.tag, a) (s.store q x a).sdb.jobs :=
  Setting.Asked.sdbKick ⟨_, List.mem_append_right _ (mem_insertJob ..), rfl, rfl, rfl⟩

end

/-- Settles O48: the meaning of each of these commands is a verb; what `State.open_` and `State.store` do is `State.open_spec` and
`State.store_asked`. -/
theorem verbForms : Obligations.VerbForms := by
  refine ⟨fun s u v q bays t w d c p a text name view key => ?opens, fun s u v q t g w p n d bays => ?stores⟩
  case opens =>
    dsimp only
    refine ⟨?_, ?_, ?_, ?_, ?_, ?_, ?_, ?_, ?_, ?_, ?_, ?_, ?_, ?_, ?_, ?bayOn, ?bayOff, ?xVerb, ?opened⟩
    case bayOn => exact fun h => by simp only [Bool.not_eq_true', ← Bool.not_eq_true, ite_not]; exact (h.exec_eq rfl :)
    case bayOff => exact fun h => by simp only [Bool.not_eq_true', ← Bool.not_eq_true, ite_not]; exact (h.exec_eq rfl :)
    case xVerb =>
      refine fun h => ⟨fun t i r hu hv => ?runs, fun hno => ?fails⟩
      case runs =>
        rw [h.exec_eq (c := .xVerb q name text) rfl, if_pos (by simp [State.formOk, hu]), hv]
      case fails =>
        rw [h.exec_eq (c := .xVerb q name text) rfl, if_neg (by simp [State.formOk, hno])]
    case opened =>
      refine fun form => ⟨fun hr => by rw [State.open_, if_neg (by simp [hr])]; rfl, fun hr => ?_⟩
      obtain ⟨hlen, h, hh, hform, -, htag, hten, hkk, hacc, hphase⟩ := State.open_spec (name := name) hr
      exact ⟨hlen, h, hh, hform, hacc, hphase, htag, hten, hkk⟩
    all_goals exact fun h => (h.exec_eq rfl :)
  case stores =>
    dsimp only
    refine ⟨?_, ?_, ?_, ?_, ?_, ?_, ?_, ?_, ?_, ?_, ?_, fun x a _ => v.store_asked q x a⟩
    all_goals exact fun h => (h.exec_eq rfl :)

/-! ### Where a verb completes -/

theorem State.TellsTo.baud {s t : State} (h : s.TellsTo t) : t.con.baud = s.con.baud := (Prod.mk.inj h.2).1

theorem State.TellsTo.xon {s t : State} (h : s.TellsTo t) : t.con.xon = s.con.xon :=
  (Prod.mk.inj (Prod.mk.inj h.2).2).1

theorem State.TellsTo.stopped {s t : State} (h : s.TellsTo t) : t.con.stopped = s.con.stopped :=
  (Prod.mk.inj (Prod.mk.inj (Prod.mk.inj h.2).2).2).1

/-- With XON/XOFF off no flow character comes to wait. -/
theorem State.TellsTo.flowDue {s t : State} (h : s.TellsTo t) (hx : s.con.xon = false) : t.con.flowDue = s.con.flowDue := by
  simpa [h.xon, hx] using (Prod.mk.inj (Prod.mk.inj (Prod.mk.inj h.2).2).2).2

section
variable {s u v : State} {q : Src} {c : Instr}

/-- The state in which the verb acts is the one on which the checks are made, but for the echo of the line (R104). -/
theorem LineRuns.tells (h : LineRuns s q c u v) : u.TellsTo v := by
  obtain ⟨-, -, rfl, rfl⟩ := h
  exact State.tellsTo_ringEcho ..

/-- A line that passes its checks completes with what its verb does. -/
theorem LineOk.does (h : LineOk s q c u v) {body : State → State} (hc : exec c s = Machine.verb s q c body) {done : State → Prop}
    (hd : ∀ t, (body v).ReadsTo t → done t) : ∃ t, exec c s = .next t ∧ done t :=
  ⟨_, h.exec_eq hc, hd _ (State.readsTo_afterLine ..)⟩

/-- The same of a verb that acts and then answers: what it did stands behind the answer. -/
theorem LineOk.replies (h : LineOk s q c u v) {x : State → State} {a : State → String}
    (hc : exec c s = Machine.verb s q c fun s => (x s).reply q (a s)) {done : State → Prop} (hd : ∀ t, (x v).TellsTo t → done t) :
    ∃ t, exec c s = .next t ∧ done t :=
  h.does hc fun t ht => hd t ((State.tellsTo_reply ..).trans ht.tells)

/-- A handle form whose resources are there stands open once its line has run (R221, R224, R225). -/
theorem LineOk.opened (h : LineOk s q c u v) {body : State → State} (hc : exec c s = Machine.verb s q c body) {name : String}
    {f : Form} (hb : (body v).hnd = (v.open_ q name f).hnd) (hr : v.resources q f = true) :
    ∃ t, exec c s = .next t ∧ ∃ h ∈ t.hnd.opens, h.form = f ∧ h.name = name ∧ h.tag = q.tag ∧ h.ten = v.recorded q.ses.val
      ∧ h.kk = v.keeperNo ∧ h.accepted = false := by
  obtain ⟨-, x, hx, hform, hname, htag, hten, hkk, hacc, -⟩ := State.open_spec (name := name) hr
  refine h.does hc fun t ht => ⟨x, ?_, hform, hname, htag, hten, hkk, hacc⟩
  rwa [ht.tells.hnd, hb]

theorem State.countLeft_hnd (s : State) (k : Nat) (l : List Nat) : (s.countLeft k l).hnd = s.hnd := by
  unfold State.countLeft
  split <;> rfl

theorem State.openBays_hnd {f : Form} (hr : v.resources q f = true) (l : List Nat) :
    (v.openBays q f l).hnd = (v.open_ q "BAY" f).hnd := by
  rw [State.openBays, if_pos hr, State.countLeft_hnd]

/-- A setting stands among the seedbank's jobs once its line has run (R191, R360). -/
theorem LineOk.asked (h : LineOk s q c u v) {x : State → Setting} {a : State → String}
    (hc : exec c s = Machine.verb s q c fun s => s.store q (x s) (a s)) :
    ∃ t, exec c s = .next t ∧ ∃ j ∈ t.sdb.jobs, j.setting = x v ∧ j.handle = none
      ∧ ∃ answer, j.reply = some (q.ses.val, q.tag, answer) := by
  obtain ⟨j, hj, hx, hr, hn⟩ := v.store_asked q (x v) (a v)
  refine h.does hc fun t ht => ⟨j, ?_, hx, hn, a v, hr⟩
  rwa [ht.tells.sdb]

end

/-! ### What the verbs with an effect of their own leave -/

theorem State.setLocate_locate (s : State) (n : BayNo) (on : Bool) :
    ((s.setLocate n.val on).bayAt n.val).locate = if on then some s.cal.tick else none := by
  rw [State.setLocate, State.showTag_bayAt, State.bayAt_modBay_self _ _ _ n.isLt]

theorem getLsbD_putBit {n : Nat} (m : BitVec n) (i j : Nat) (b : Bool) (hj : j < n) :
    (putBit m i b).getLsbD j = if i = j then b else m.getLsbD j := by
  cases b with
  | false =>
    rw [getLsbD_putBit_false m hj]
    split
    next h => simp [h]
    next h => simp [bne_iff_ne.mpr (Ne.symm h)]
  | true =>
    simp only [putBit, if_true, BitVec.getLsbD_or, BitVec.getLsbD_ofNat, hj, decide_true, Bool.true_and, Nat.testBit_two_pow]
    split
    next h => simp [h]
    next h => simp [h]

/-- A core named is traced, or not traced, from then on (R213). -/
theorem State.setTraced_of_mem (s : State) {cores : List CoreId} (on : Bool) {c : CoreId} (hc : c ∈ cores) :
    (s.setTraced cores on).sow.trCores.getLsbD c.val = on := by
  refine foldl_reaches (P := fun m : BitVec 7 => m.getLsbD c.val = on) hc (fun m => ?_) (fun y _ m hm => ?_) _
  · rw [getLsbD_putBit _ _ _ _ c.isLt, if_pos rfl]
  · rw [getLsbD_putBit _ _ _ _ c.isLt, hm, ite_self]

theorem State.fanAt_modFan (s : State) (n m : Nat) (f : Fan → Fan) :
    (s.modFan n f).fanAt m = if n = m ∧ n < 8 then f (s.fanAt m) else s.fanAt m := by
  simp only [State.fanAt, State.modFan, State.modFans_fans, vmod, vget_vset]
  split
  next h => rw [h.1]
  next => rfl

theorem mem_fanList {fans : List (Fin 8)} {f : Fin 8} (h : f ∈ fans) : f.val ∈ fanList fans := by
  simp only [fanList, List.mem_filter, List.mem_range, List.any_eq_true, decide_eq_true_eq]
  exact ⟨f.isLt, f, h, rfl⟩

/-- A change of every fan named that comes to the same when made again is made of each of them. -/
theorem State.fanAt_foldl (s : State) {fans : List (Fin 8)} {g : Fan → Fan} {p : Fan → Prop} (hg : ∀ x, p (g x)) {f : Fin 8}
    (hf : f ∈ fans) : p (((fanList fans).foldl (fun s n => s.modFan n g) s).fanAt f.val) := by
  refine foldl_reaches (P := fun u : State => p (u.fanAt f.val)) (mem_fanList hf) (fun u => ?_) (fun y _ u hu => ?_) s
  · rw [State.fanAt_modFan, if_pos ⟨rfl, f.isLt⟩]
    exact hg _
  · rw [State.fanAt_modFan]
    split
    · exact hg _
    · exact hu

/-- The AUTO fans' duty leaves which fans are in AUTO. -/
theorem State.fansAuto_manual (s : State) (f : Fin 8) : (s.fansAuto.fanAt f.val).manual = (s.fanAt f.val).manual := by
  simp only [State.fansAuto, State.fanAt, vget, State.modFans_fans]
  rw [Vector.getElem?_eq_getElem f.isLt, Vector.getElem?_eq_getElem f.isLt]
  simp only [Vector.getElem_map, Option.getD_some]
  split <;> rfl

theorem State.zeroStats_que (s : State) (high : Nat → Nat) (q : Fin 64) : ((s.zeroStats high).que q.val).dispatch = 0
    ∧ ((s.zeroStats high).que q.val).waitSum = 0 ∧ ((s.zeroStats high).que q.val).waitMax = 0 := by
  unfold State.zeroStats
  refine foldl_reaches (P := fun u : State => (u.que q.val).dispatch = 0 ∧ (u.que q.val).waitSum = 0 ∧ (u.que q.val).waitMax = 0)
    (List.mem_range.mpr q.isLt) (fun u => ?_) (fun y _ u hu => ?_) _
  · rw [State.que_modQue_self _ _ _ q.isLt]
    exact ⟨rfl, rfl, rfl⟩
  · rw [State.que_modQue]
    split
    · exact ⟨rfl, rfl, rfl⟩
    · exact hu

/-- A head's pass is out once it has been asked for (R212). -/
theorem State.startPass_out {s : State} (h : s.sys.head = true) : s.startPass.ring.passOut = true := by
  unfold State.startPass
  split
  · rfl
  next hno => simpa [h] using hno

theorem State.later_ses (s : State) (k : Nat) (d : Due) : (s.later k d).ses = s.ses := by
  unfold State.later
  split <;> rfl

/-! ### The proofs of an UNLOCK leave a locked bay locked -/

/-- The bay's state, which a change of its other registers leaves. -/
theorem State.modBay_st (s : State) (m n : Nat) {f : Bay → Bay} (hf : ∀ b, (f b).st = b.st) :
    ((s.modBay m f).bayAt n).st = (s.bayAt n).st := by
  by_cases h : m = n
  · subst h
    by_cases h96 : m < 96
    · rw [State.bayAt_modBay_self _ _ _ h96, hf]
    · simp [State.bayAt, State.modBay, vmod, vget_vset, h96]
  · rw [State.bayAt_modBay_ne _ _ _ _ h]

theorem Bay.modRail_st (b : Bay) (rail : Rail) (f : RailSt → RailSt) : (b.modRail rail f).st = b.st := by cases rail <;> rfl

theorem Bay.proved_st (b : Bay) (rail : Rail) : (b.proved rail).st = b.st := by
  unfold Bay.proved
  split
  · dsimp only
    split <;> exact b.modRail_st ..
  · rfl

/-- Bay `n` is locked out. -/
def State.LockedOut (s : State) (n : Nat) : Prop := (s.bayAt n).st = .locked

section
variable {s : State} {n : Nat}

theorem State.LockedOut.modBay (h : s.LockedOut n) (m : Nat) {f : Bay → Bay} (hf : ∀ b, (f b).st = b.st) : (s.modBay m f).LockedOut n :=
  (s.modBay_st m n hf).trans h

theorem State.LockedOut.lockOut (h : s.LockedOut n) (c : Nat) (rail : Rail) : (s.lockOut n c rail).LockedOut n := by
  rw [State.lockOut, if_pos (show (s.bayAt n).st = .locked from h)]
  exact h.modBay n fun _ => rfl

theorem State.LockedOut.trip_eq (h : s.LockedOut n) (c : Nat) (rail : Rail) : s.trip n c rail = s := by
  rw [State.trip, if_pos (by rw [h]; rfl)]

theorem State.LockedOut.proofRun (h : s.LockedOut n) (m : Nat) : (s.proofRun m).LockedOut n := by
  unfold State.proofRun
  split
  · exact h
  · exact h.modBay m fun _ => rfl

theorem State.LockedOut.proofBegins (h : s.LockedOut n) (rail : Rail) : (s.proofBegins n rail).LockedOut n := by
  unfold State.proofBegins
  split
  · exact h
  · exact h.modBay n fun b => b.modRail_st ..

theorem State.LockedOut.proofChecked (h : s.LockedOut n) (rail : Rail) (fast slow : Bool) : (s.proofChecked n rail fast slow).LockedOut n := by
  have hread := h.modBay n (f := fun b => b.modRail rail fun r =>
    { r with pass := fast && slow, fastOver := fast, slowOver := slow, checked := true }) fun b => b.modRail_st ..
  unfold State.proofChecked
  split
  · exact h
  · dsimp only
    split
    · exact hread
    · exact hread.lockOut 1 rail

theorem State.LockedOut.proofEnds (h : s.LockedOut n) (rail : Rail) (still : Bool) : (s.proofEnds n rail still).LockedOut n := by
  have hend (u : State) (hu : u.LockedOut n) (slow : Bool) : ((u.modBay n fun b => (b.modRail rail fun r =>
      { r with frozen := false, checked := false, fastOver := still, slowOver := slow }).proved rail).proveNext n).LockedOut n := by
    have hu := hu.modBay n (f := fun b => (b.modRail rail fun r =>
      { r with frozen := false, checked := false, fastOver := still, slowOver := slow }).proved rail)
      fun b => ((b.modRail ..).proved_st rail).trans (b.modRail_st ..)
    unfold State.proveNext
    split
    · exact hu.proofRun _
    · exact hu
  unfold State.proofEnds
  split
  · exact h
  · have hu := hend s.freeCheck.2 h s.freeCheck.1
    dsimp only
    split
    · rw [hu.trip_eq]; exact hu
    · exact hu

theorem State.LockedOut.proofFinished (h : s.LockedOut n) (rail : Rail) : (s.proofFinished n rail).LockedOut n := by
  have hchecked (u : State) (hu : u.LockedOut n) (fast slow : Bool) :
      (if ((s.bayAt n).rail rail).checked then s else u.proofChecked n rail fast slow).LockedOut n := by
    split
    · exact h
    · exact hu.proofChecked ..
  unfold State.proofFinished
  split
  · exact h
  · exact State.LockedOut.proofEnds (s := (State.freeCheck _).2) (hchecked s.freeCheck.2.freeCheck.2 h _ _) ..

theorem State.LockedOut.proveRail (h : s.LockedOut n) (rail : Rail) (ok : Bool) : (s.proveRail n rail ok).LockedOut n :=
  ((h.proofBegins rail).proofChecked ..).proofEnds ..

theorem State.LockedOut.unlockProofs (h : s.LockedOut n) (pm pa : Bool) : (s.unlockProofs n pm pa).LockedOut n :=
  have hbegun := (h.modBay n (f := fun b => { b with lockEv := false }) fun _ => rfl).proofRun n
  (((hbegun.proofFinished .main).proofFinished .aux).proveRail .main pm).proveRail .aux pa

end

/-! ### The end of a session -/

theorem State.sesAt_modSes (s : State) (j k : Nat) (f : Session → Session) :
    (s.modSes j f).sesAt k = if j = k ∧ j < 16 then f (s.sesAt k) else s.sesAt k := by
  simp only [State.sesAt, State.modSes, vmod, vget_vset]
  split
  next h => rw [h.1]
  next => rfl

/-- Session `k` proves no tenancy and no challenge waits in it (R189). -/
def State.Unproved (s : State) (k : Nat) : Prop := (s.sesAt k).proved = none ∧ (s.sesAt k).challenge = none

section
variable {s : State} {k : Nat}

theorem State.Unproved.modSes (h : s.Unproved k) (j : Nat) {f : Session → Session}
    (hf : ∀ x, x.proved = none ∧ x.challenge = none → (f x).proved = none ∧ (f x).challenge = none) : (s.modSes j f).Unproved k := by
  unfold State.Unproved
  rw [State.sesAt_modSes]
  split
  · exact hf _ h
  · exact h

theorem State.Unproved.notice (h : s.Unproved k) (t : String) : (s.notice t).Unproved k := by rw [State.notice_eq]; exact h

theorem State.Unproved.keep (h : s.Unproved k) (x : Handle) (c : Compl) (orphan : Bool) : (s.keep x c orphan).Unproved k := by
  have hticks (u : State) (hu : u.Unproved k) (j tick : Nat) :
      (if j = 0 then u else u.modSes j fun y => { y with lastTick := tick }).Unproved k := by
    split
    · exact hu
    · exact hu.modSes j fun _ hy => hy
  have hdisplaced (y : Kept) :
      (if y.orphaned then (s.displace y).notice ("^ORPHAN LOST " ++ handleText y.kk y.seq) else s.displace y).Unproved k := by
    split
    · exact State.Unproved.notice (s := s.displace y) h _
    · exact h
  unfold State.keep
  cases s.displaced with
  | none =>
    cases x.opener with
    | none => exact h
    | some j => exact hticks (s.modHnd _) h j _
  | some y =>
    cases x.opener with
    | none => exact hdisplaced y
    | some j => exact hticks (State.modHnd _ _) (hdisplaced y) j _

theorem State.Unproved.orphan (h : s.Unproved k) (x : Handle) (c : Compl) : (s.orphan x c).Unproved k := (h.notice _).keep ..

theorem State.Unproved.unhold (h : s.Unproved k) (kk seq : Nat) : (s.unhold kk seq).Unproved k := by
  have hdrop (f : Handles → Handles) (g : Ring → Ring) : ((s.modHnd f).modRing g).Unproved k := h
  unfold State.unhold
  split
  · exact h
  · dsimp only
    split
    · split
      · exact (hdrop _ _).orphan ..
      · exact hdrop ..
    · exact hdrop ..

theorem State.Unproved.reopen (h : s.Unproved k) (j : Nat) (x : Session) : (s.reopen j x).Unproved k := by
  unfold State.reopen
  split
  · exact h
  · exact h.modSes _ fun _ _ => ⟨rfl, rfl⟩

end

/-- The session that ends proves nothing more, nor does one opened anew in its place (R109, R189). -/
theorem State.endSession_unproved (s : State) {k : Nat} (hk : k < 16) : (s.endSession k).Unproved k := by
  have hended : (s.modSes k fun _ => {}).Unproved k := by
    unfold State.Unproved
    rw [State.sesAt_modSes_self _ _ hk]
    exact ⟨rfl, rfl⟩
  unfold State.endSession
  refine State.Unproved.reopen ?_ k _
  exact List.foldlRecOn (motive := fun u : State => u.Unproved k) _ _ hended fun u hu x _ => hu.unhold ..

/-- CLOSE leaves its session unproved, whether it ends, waits for its answer, or is the console's (R189). -/
theorem State.closes_unproved (s : State) (q : Src) (a : String) :
    let v := (s.modSes q.ses.val fun x => { x with proved := none, challenge := none }).reply q a
    (if q.ses.val = 0 then v else if v.linesHeld q.ses.val then v.later q.ses.val .close else v.endSession q.ses.val).Unproved
      q.ses.val := by
  intro v
  have hv : v.Unproved q.ses.val := by
    have ht : State.TellsTo _ v := State.tellsTo_reply ..
    rw [State.Unproved, ht.sesAt, State.sesAt_modSes_self _ _ q.ses.isLt]
    exact ⟨rfl, rfl⟩
  split
  · exact hv
  split
  · rw [State.Unproved, State.sesAt, State.later_ses]
    exact hv
  · exact v.endSession_unproved q.ses.isLt

/-! ### A core fault and a thread fault whose outcome is certain -/

section
variable {s : State} {k : Nat}

/-- A stopped core stays stopped as it is freed. -/
theorem State.freeCore_stopped (s : State) (k : Nat) : ((s.freeCore k).core k).stopped = (s.core k).stopped := by
  have hc (b : Core → List Nat) : ((s.modCore k fun c => { c with run := none, leftBy := b c }).core k).stopped = (s.core k).stopped := by
    rw [State.core_modCore]
    split <;> rfl
  unfold State.freeCore
  split <;> exact hc _

theorem State.stopCore_stopped (s : State) (hk : k < 7) : ((s.stopCore k).core k).stopped = true := by
  have hstop (u : State) : ((u.modCore k fun c => { c with stopped := true, halting := false }).core k).stopped = true := by
    rw [State.core_modCore_self _ _ _ hk]
  unfold State.stopCore
  dsimp only
  split
  · exact hstop _
  · rw [State.freeCore_stopped, State.core_modTh, State.fence_core, State.caught_core, State.core_modTh]
    exact hstop _

theorem State.hwPost_core (s : State) (q : Nat) (c : Claimant) (w : List Word) (k : Nat) : (s.hwPost q c w).core k = s.core k := by
  unfold State.hwPost
  split
  · exact State.visible_core ..
  · rfl

theorem State.hwPost_hng (s : State) (q : Nat) (c : Claimant) (w : List Word) : (s.hwPost q c w).hng = s.hng := by
  unfold State.hwPost
  split
  · unfold State.visible State.raised
    split <;> rfl
  · rfl

/-- An expired heartbeat stops its core and sets its EXPIRED bit (R65). -/
theorem State.expire_stops (s : State) (hk : k < 6) :
    ((s.expire k).core k).stopped = true ∧ (s.expire k).hng.expired.getLsbD k = true := by
  unfold State.expire
  dsimp only
  rw [State.hwPost_core, State.hwPost_hng]
  exact ⟨State.stopCore_stopped _ (by omega), (getLsbD_putBit _ _ _ _ hk).trans (if_pos rfl)⟩

theorem State.serveItem_spillStop (s : State) (it : Item) : (s.serveItem it).sys.spillStop = s.sys.spillStop := by
  have htrace (u : State) (k event t q flow detail : Nat) : (u.trace k event t q flow detail).sys.spillStop = u.sys.spillStop := by
    rw [State.trace_eq]
  rw [State.serveItem, State.endItem, htrace, State.takeUpItem, htrace]
  split <;> rfl

/-- LC tells of a core fault; which cores a full spill stopped stands (R65, R266). -/
theorem State.toldFault_spillStop (s : State) (k : Nat) : ((s.heartServed k).tellFault k).sys.spillStop = s.sys.spillStop := by
  rw [State.tellFault, State.notice_sys]
  exact foldl_frame (fun u : State => u.sys.spillStop) State.serveItem_spillStop _ s

/-- A core that a full spill stopped ends in a field restart (R267, R270). -/
theorem exec_coreFaultRecovery_spill {k : Fin 6} (hr : s.sys.inReset = false) (hu : s.sys.fieldUp = true)
    (h : s.sys.spillStop.getLsbD k.val = true) :
    exec (.coreFaultRecovery k) s = .next (((s.heartServed k.val).tellFault k.val).fieldRestart 3 .counted) := by
  have hend : ((s.heartServed k.val).tellFault k.val).endsInRestart k.val = (true, (s.heartServed k.val).tellFault k.val) := by
    rw [State.endsInRestart, if_pos (by rw [State.toldFault_spillStop, h]; rfl)]
  change execCoreFaultRecovery k s = _
  rw [execCoreFaultRecovery, onLatch, hr, if_neg Bool.false_ne_true, if_pos (by rw [hu, h]; rfl), hend]
  rfl

/-- A core fault that stands at the end of its limit ends in a field restart (R267). -/
theorem exec_recoveryTimeout {k : Nat} (hr : s.sys.inReset = false) (hu : s.sys.fieldUp = true)
    (h : (List.range 6).find? s.coreFault = some k) :
    exec .recoveryTimeout s = .next (((s.heartServed k).tellFault k).fieldRestart 3 .counted) := by
  change execRecoveryTimeout s = _
  rw [execRecoveryTimeout, onField, hr, hu, if_pos (by rfl), h]
  rfl

/-- A thread's fault, of no BREAK, ends as its thread is the recovery thread or not (R265, R269, R270). -/
theorem exec_threadFaultRecovery {it : Item} (hr : s.sys.inReset = false) (h : s.nextFault = some it) (hb : it.typ ≠ 0xFE0F) :
    let r := s.isRecovery (fieldAt (it.word 1).toNat 0 7)
    exec .threadFaultRecovery s = .next (if r.1 && r.2.sys.fieldUp then (r.2.serveItem it).fieldRestart 3 .counted
      else r.2.threadTaken it (fieldAt (it.word 1).toNat 0 7)) := by
  intro r
  change execThreadFaultRecovery s = _
  rw [execThreadFaultRecovery, onLatch, hr, if_neg Bool.false_ne_true, State.threadRecovery, h]
  dsimp only
  rw [Item.isBreak, decide_eq_false hb, if_neg Bool.false_ne_true]
  rfl

end

/-! ### UNLOCK -/

/-- What an UNLOCK whose line runs does: the proofs, and then, where they and the shadow compare pass, the clear of the lock record is
asked for; otherwise the answer is PROOF-FAIL (R156, R428). -/
def State.unlocks (s : State) (q : Src) (n : BayNo) (pm pa : Bool) : State :=
  let u := s.unlockProofs n.val pm pa
  if pm && pa && (u.bayAt n.val).agree then
    (u.putLock n.val false 0 0).modBays fun b => { b with unlocking := b.unlocking ++ [(n.val, q.ses.val, q.tag)] }
  else u.reply q ("BAY " ++ decText n.val ++ " LOCKED PROOF-FAIL")

section
variable {s u v : State} {q : Src} {n : BayNo} {pm pa : Bool}

theorem LineOk.unlock_passes (h : LineOk s q (.bayUnlock q n pm pa) u v) (hm : pm = true) (ha : pa = true)
    (hagree : ((v.unlockProofs n.val pm pa).bayAt n.val).agree = true) :
    ∃ t, exec (.bayUnlock q n pm pa) s = .next t ∧ (n.val, q.ses.val, q.tag) ∈ t.bays.unlocking := by
  refine h.does (body := fun s => s.unlocks q n pm pa) rfl fun t ht => ?_
  rw [ht.tells.bays, State.unlocks, if_pos (by rw [hm, ha] at *; exact hagree)]
  exact List.mem_append_right _ (List.mem_singleton_self _)

theorem LineOk.unlock_fails (h : LineOk s q (.bayUnlock q n pm pa) u v) (hp : pm = false ∨ pa = false) :
    ∃ t, exec (.bayUnlock q n pm pa) s = .next t ∧ (t.bayAt n.val).st = .locked := by
  have hlocked : v.LockedOut n.val := by
    have hok := h.2
    simp only [State.formOk, Bool.and_eq_true, decide_eq_true_eq] at hok
    exact (congrArg Bay.st (h.1.tells.bayAt n.val)).trans hok.2
  refine h.does (body := fun s => s.unlocks q n pm pa) rfl fun t ht => ?_
  rw [ht.tells.bayAt, State.unlocks, if_neg (by rcases hp with rfl | rfl <;> simp), (State.tellsTo_reply ..).bayAt]
  exact hlocked.unlockProofs pm pa

end

/-- Settles O50: a line that passes its checks does what its verb does (`LineOk.does`), and what the verb did stands behind its answer
(`LineOk.replies`); the faults are certain where the spill is full, the limit is reached, or it is known which thread recovers. -/
theorem verbsTakeEffect : Obligations.VerbsTakeEffect := by
  refine ⟨fun s u v q bays t w d c p a text name view key i r => ?forms, fun s u v q t g w p n d bays => ?settings,
    fun s u v q b m n pm pa bays fans p w cores t groups r i core => ?acts, fun s k it hr hu => ?recovery⟩
  case forms =>
    dsimp only
    refine ⟨?_, ?_, ?_, ?_, ?_, ?_, ?_, ?_, ?_, ?_, ?_, ?_, ?_, ?_, ?_, ?bayOn, ?bayOff, ?xVerb⟩
    case bayOn => exact fun h hr => (h.opened rfl (State.openBays_hnd hr _) hr :)
    case bayOff => exact fun h hr => (h.opened rfl (State.openBays_hnd hr _) hr :)
    case xVerb => exact fun hx h hr => h.opened rfl (by rw [hx]) hr
    all_goals exact fun h hr => (h.opened rfl rfl hr :)
  case settings =>
    dsimp only
    and_intros
    all_goals exact fun h => (h.asked rfl :)
  case recovery =>
    refine ⟨fun hrun hst hs => ?_, fun hspill => exec_coreFaultRecovery_spill hr hu hspill,
      fun hfault => exec_recoveryTimeout hr hu hfault, fun hnext hb ht hl => ?_, fun hnext hb ht => ?_⟩
    · exact ⟨_, exec_heartbeatExpiry_eq hr hu hrun hst hs, s.expire_stops k.isLt⟩
    · rw [exec_threadFaultRecovery hr hnext hb, State.isRecovery, if_neg (Nat.not_le.mpr ht), if_pos hl, hu]
      rfl
    · rw [exec_threadFaultRecovery hr hnext hb, State.isRecovery, if_pos ht]
      rfl
  case acts =>
    dsimp only
    refine ⟨?baud, ?xonOn, ?xonOff, ?echoOn, ?echoOff, ?locateOn, ?locateOff, fun hm ha hagree h => h.unlock_passes hm ha hagree,
      fun hp h => h.unlock_fails hp, ?info, ?fanDuty, ?fanAuto, ?time, ?traceStop, ?traceWrap, ?traceClear, ?coresOn, ?coresOff, ?dump,
      ?statsClear, ?ringEnum, ?restart, ?restartLater, ?cancel, ?statsQ, ?statsCore, ?close, ?openT, ?prove, ?unknown, ?isOpen, ?closed⟩
    case baud => exact fun h => h.does rfl fun t ht => ((State.tellsTo_replyRate ..).trans ht.tells).baud
    case xonOn => exact fun h => h.replies rfl fun t ht => ht.xon
    case xonOff => exact fun h => h.replies rfl fun t ht => ⟨ht.xon, ht.stopped, ht.flowDue rfl⟩
    case echoOn => exact fun h => h.replies rfl fun t ht => by rw [ht.sesAt, State.sesAt_modSes_self _ _ q.ses.isLt]
    case echoOff => exact fun h => h.replies rfl fun t ht => by rw [ht.sesAt, State.sesAt_modSes_self _ _ q.ses.isLt]
    case locateOn => exact fun h => h.replies rfl fun t ht => by rw [ht.bayAt, State.setLocate_locate]; rfl
    case locateOff => exact fun h => h.replies rfl fun t ht => by rw [ht.bayAt, State.setLocate_locate]; rfl
    case info => exact fun h => (h.exec_eq rfl :)
    case fanDuty =>
      refine fun h => h.replies rfl fun t ht f hf => ?_
      rw [ht.fanAt]
      exact State.fanAt_foldl v (p := fun x => x.duty = p.val ∧ x.manual = true) (fun _ => ⟨rfl, rfl⟩) hf
    case fanAuto =>
      refine fun h => h.replies rfl fun t ht f hf => ?_
      rw [ht.fanAt, State.fansAuto_manual]
      exact State.fanAt_foldl v (p := fun x => x.manual = false) (fun _ => rfl) hf
    case time => exact fun h => h.replies rfl fun t ht => by rw [ht.cal]; rfl
    case traceStop => exact fun h => h.replies rfl fun t ht => by rw [ht.sow]; rfl
    case traceWrap => exact fun h => h.replies rfl fun t ht => by rw [ht.sow]; rfl
    case traceClear => exact fun h => h.replies rfl fun t ht => by rw [ht.sow]; exact ⟨rfl, rfl⟩
    case coresOn => exact fun h => h.replies rfl fun t ht c hc => by rw [ht.sow]; exact v.setTraced_of_mem true hc
    case coresOff => exact fun h => h.replies rfl fun t ht c hc => by rw [ht.sow]; exact v.setTraced_of_mem false hc
    case dump => exact fun h => (h.exec_eq rfl :)
    case statsClear => exact fun h => h.replies rfl fun t ht j => by rw [ht.que]; exact v.zeroStats_que _ j
    case ringEnum =>
      intro h
      have hok := h.2
      simp only [State.formOk, Bool.and_eq_true] at hok
      refine h.does rfl fun t ht => ?_
      rw [ht.1]
      refine State.startPass_out ?_
      rw [(State.tellsTo_reply ..).sys, h.1.tells.sys]
      exact hok.2
    case restart => exact fun hheld h => (h.exec_eq rfl).trans (by simp only [hheld, Bool.false_eq_true, if_false])
    case restartLater =>
      refine fun hheld h => h.does rfl fun t ht => ?_
      rw [ht.tells.sys]
      dsimp only
      rw [if_pos hheld, State.later, if_pos hheld]
      exact List.mem_append_right _ (List.mem_singleton_self _)
    case cancel => exact fun h => (h.exec_eq rfl :)
    case statsQ => exact fun h => (h.exec_eq rfl :)
    case statsCore => exact fun h => (h.exec_eq rfl :)
    case close =>
      refine fun h => h.does rfl fun t ht => ?_
      rw [ht.tells.sesAt]
      exact v.closes_unproved q "CLOSED"
    case openT =>
      refine fun h => h.does rfl fun t ht => ?_
      rw [ht.tells.sesAt, State.sesAt, State.later_ses, ← State.sesAt, (State.tellsTo_reply ..).sesAt,
        State.sesAt_modSes_self _ _ q.ses.isLt]
    case prove =>
      intro ten hproves hfree h
      refine ⟨_, h.1.exec_prove, ?_⟩
      rw [State.sesAt_modSes_self _ _ q.ses.isLt, if_pos h.2, State.takeProof, hproves]
      dsimp only
      rw [if_pos hfree, (State.tellsTo_afterLine ..).sesAt, (State.tellsTo_reply ..).sesAt, State.sesAt_modSes_self _ _ q.ses.isLt]
      exact ⟨rfl, rfl⟩
    case unknown => exact fun hopen hkept h => (h.exec_eq rfl).trans (by simp only [hopen, hkept])
    case isOpen => exact fun x hopen h => (h.exec_eq rfl).trans (by simp only [hopen])
    case closed => exact fun x hopen hkept h => (h.exec_eq rfl).trans (by simp only [hopen, hkept])

/-! ### Characters received -/

theorem onLatch_of_running {s : State} (hr : s.sys.inReset = false) (f : State → State) : onLatch s f = .next (f s) := by
  rw [onLatch, hr, if_neg Bool.false_ne_true]
  rfl

/-- What the console has stored, marked and completed, and what is being typed. -/
def Console.contents (c : Console) : List Byte × List Nat × List String × String := (c.rx, c.marks, c.lines, c.buf)

theorem Console.flowChar_frame (c : Console) (b : Byte) : (c.flowChar b).contents = c.contents
    ∧ (c.flowChar b).overlong = c.overlong ∧ (c.flowChar b).outq = c.outq := by
  unfold Console.flowChar
  split
  · exact ⟨rfl, rfl, rfl⟩
  · split <;> exact ⟨rfl, rfl, rfl⟩

/-- The flow points leave what is stored, typed and queued (R96). -/
theorem State.flowPoints_frame (s : State) : s.flowPoints.con.contents = s.con.contents
    ∧ s.flowPoints.con.overlong = s.con.overlong ∧ s.flowPoints.con.outq = s.con.outq := by
  unfold State.flowPoints
  dsimp only
  split
  · exact Console.flowChar_frame ..
  split
  · exact Console.flowChar_frame ..
  · exact ⟨rfl, rfl, rfl⟩

theorem State.echo_contents (s : State) (t : String) : (s.echo t).con.contents = s.con.contents := by
  unfold State.echo
  split <;> rfl

/-- LC has nothing to read: a completed line waits, or the store is empty (R122). -/
theorem State.pump_of_line {s : State} (h : s.con.lines ≠ []) (n : Nat) : s.pump n = s := by
  cases n with
  | zero => rfl
  | succ n => rw [State.pump, if_pos (by simpa using h)]

theorem State.pump_of_empty {s : State} (hrx : s.con.rx = []) (hm : s.con.marks = []) (n : Nat) : s.pump n = s := by
  cases n with
  | zero => rfl
  | succ n =>
    unfold State.pump
    split
    · rfl
    · rw [hm, hrx]
      rfl

/-- The oldest character leaves the store. -/
def State.takesChar (s : State) : State := s.modCon fun c => { c with rx := c.rx.drop 1, marks := c.marks.map fun m => m - 1 }

/-- LC reads a character out of its store (R99). -/
theorem State.pump_of_char {s : State} {b : Byte} {l : List Byte} (hl : s.con.lines = []) (hm : s.con.marks = [])
    (hrx : s.con.rx = b :: l) (n : Nat) : s.pump (n + 1) = (s.takesChar.editChar b).flowPoints.pump n := by
  have htakes : (s.modCon fun c => { c with rx := l, marks := c.marks.map fun m => m - 1 }) = s.takesChar := by
    simp [State.takesChar, State.modCon, hrx]
  rw [State.pump, hl, hm, hrx, ← htakes]
  rfl

/-- A printable character joins the line being typed (R99). -/
theorem State.editChar_printable {s : State} {b : Byte} (h32 : 32 ≤ b.toNat) (h126 : b.toNat ≤ 126) (hov : s.con.overlong = false) :
    (s.editChar b).con.contents = (s.con.rx, s.con.marks, s.con.lines, s.con.buf ++ textOf [b]) := by
  have h9 : b.toNat ≠ 9 := by omega
  have hecho := (s.modCon fun c => { c with lastCr := b.toNat = 13 }).echo_contents (textOf [b])
  simp only [Console.contents, State.modCon_con, Prod.mk.injEq] at hecho
  obtain ⟨hrx, hm, hl, hb⟩ := hecho
  unfold State.editChar
  dsimp only
  rw [if_pos (.inl ⟨h32, h126⟩), if_neg (by rw [State.modCon_con, hov]; exact Bool.false_ne_true), if_neg h9]
  simp only [Console.contents, State.modCon_con, hrx, hm, hl, hb]

/-- A CR ends the line, unless it is blank (R99, R101). -/
theorem State.editChar_cr {s : State} (hblank : blankText s.con.buf = false) :
    (s.editChar 13#8).con.contents = (s.con.rx, s.con.marks, s.con.lines ++ [s.con.buf], "") := by
  have hecho := (s.modCon fun c => { c with lastCr := (13#8 : Byte).toNat = 13 }).echo_contents "\r\n"
  simp only [Console.contents, State.modCon_con, Prod.mk.injEq] at hecho
  obtain ⟨hrx, hm, hl, hb⟩ := hecho
  unfold State.editChar State.endLine
  dsimp only
  rw [if_neg (by decide), if_neg (by decide), if_neg (by decide), if_pos (by decide), State.modCon_con,
    if_neg (by rw [hb, hblank]; exact Bool.false_ne_true)]
  simp only [Console.contents, hrx, hm, hl, hb]

section
variable {s : State} {c : Byte}

/-- XON and XOFF act at once where XON/XOFF is on (R99). -/
theorem State.consoleChar_flow (hx : s.con.xon = true) (hc : c = 0x11#8 ∨ c = 0x13#8) :
    s.consoleChar c false = s.modCon fun x => { x with stopped := c = 0x13#8 } := by
  rw [State.consoleChar, if_neg Bool.false_ne_true, if_pos (by rcases hc with rfl | rfl <;> simp [hx])]

/-- A character that does not act at once is stored, and LC reads on (R95, R96). -/
theorem State.consoleChar_stored (hx : s.con.xon = false ∨ c ≠ 0x11#8 ∧ c ≠ 0x13#8) (hup : s.isUp .line = true) :
    s.consoleChar c false = (s.storeChar c).readOn := by
  have hplain : (s.con.xon && (decide (c = 0x11#8) || decide (c = 0x13#8))) = false := by
    rcases hx with hx | ⟨h11, h13⟩
    · simp [hx]
    · simp [h11, h13]
  rw [State.consoleChar, if_neg Bool.false_ne_true, hplain, if_neg Bool.false_ne_true, hup]
  rfl

theorem State.storeChar_full (h : 512 ≤ s.con.rx.length) : s.storeChar c = s.modCon fun x =>
    { x with overrun := (x.overrun + 1) % pow32, marks := x.marks ++ [x.rx.length] } := by
  rw [State.storeChar, if_pos h]

theorem State.storeChar_room (h : s.con.rx.length < 512) :
    s.storeChar c = (s.modCon fun x => { x with rx := x.rx ++ [c] }).flowPoints := by
  rw [State.storeChar, if_neg (Nat.not_le.mpr h)]

theorem State.readsTo_storeChar (s : State) (c : Byte) : s.ReadsTo (s.storeChar c).readOn := by
  refine State.ReadsTo.pump ?_ _
  unfold State.storeChar
  split
  · exact (State.ReadsTo.refl s).modCon
  · exact (State.ReadsTo.refl s).modCon.flowPoints

/-- Nothing waits in the store, nor as a completed line, and the line being typed is not over-length. -/
def State.Awaits (s : State) : Prop := s.con.rx = [] ∧ s.con.marks = [] ∧ s.con.lines = [] ∧ s.con.overlong = false

/-- Into an empty store a character comes to be read at once: the line editor sees it after the text typed before it (R99). -/
theorem State.Awaits.stored (h : s.Awaits) (c : Byte) : ∃ u : State, u.con.contents = ([], [], [], s.con.buf)
    ∧ u.con.overlong = false ∧ (s.storeChar c).readOn = (u.editChar c).flowPoints.pump 2 := by
  obtain ⟨hrx, hm, hl, hov⟩ := h
  have hframe := (s.modCon fun x => { x with rx := x.rx ++ [c] }).flowPoints_frame
  rw [← State.storeChar_room (by rw [hrx]; decide)] at hframe
  simp only [Console.contents, State.modCon_con, hrx, hm, hl, hov, List.nil_append, Prod.mk.injEq] at hframe
  obtain ⟨⟨hrx, hm, hl, hb⟩, hov, -⟩ := hframe
  refine ⟨(s.storeChar c).takesChar, ?_, hov, ?_⟩
  · simp [State.takesChar, Console.contents, hrx, hm, hl, hb]
  · have hwork : (s.storeChar c).con.work = 2 + 1 := by rw [Console.work, hrx, hm]; rfl
    rw [State.readOn, hwork, State.pump_of_char hl hm hrx]

/-- A printable character joins the line being typed (R99). -/
theorem State.Awaits.printable (h : s.Awaits) (h32 : 32 ≤ c.toNat) (h126 : c.toNat ≤ 126) :
    (s.storeChar c).readOn.con.contents = ([], [], [], s.con.buf ++ textOf [c]) := by
  obtain ⟨u, hu, hov, hread⟩ := h.stored c
  simp only [Console.contents, Prod.mk.injEq] at hu
  obtain ⟨hrx, hm, hl, hb⟩ := hu
  have hc := ((u.editChar c).flowPoints_frame.1).trans (State.editChar_printable h32 h126 hov)
  rw [hrx, hm, hl, hb] at hc
  rw [hread, State.pump_of_empty (congrArg Prod.fst hc) (congrArg (fun x => x.2.1) hc), hc]

/-- A CR ends the line (R99). -/
theorem State.Awaits.cr (h : s.Awaits) (hblank : blankText s.con.buf = false) :
    (s.storeChar 13#8).readOn.con.contents = ([], [], [s.con.buf], "") := by
  obtain ⟨u, hu, hov, hread⟩ := h.stored 13#8
  simp only [Console.contents, Prod.mk.injEq] at hu
  obtain ⟨hrx, hm, hl, hb⟩ := hu
  have hc := ((u.editChar 13#8).flowPoints_frame.1).trans (State.editChar_cr (by rw [hb]; exact hblank))
  rw [hrx, hm, hl, hb] at hc
  have hline : (u.editChar 13#8).flowPoints.con.lines = [s.con.buf] := congrArg (fun x => x.2.2.1) hc
  rw [hread, State.pump_of_line (by simp [hline]), hc]
  rfl

end

/-! ### Characters sent -/

theorem Console.setCts_high (x : Console) : x.setCts true = { x with cts := true } := by simp [Console.setCts]

theorem Console.setCts_of_none {x : Console} (h : x.flowDue = none) (b : Bool) : x.setCts b = { x with cts := b } := by
  simp [Console.setCts, h]

/-- A flow character that waited for CONS_CTS goes out when it falls, where XON/XOFF is still on (R96, R97). -/
theorem Console.setCts_falls {x : Console} {c : Byte} (h : x.flowDue = some c) : x.setCts false =
    { x with cts := false, flowDue := none, flowOut := if x.xon then c :: x.flowOut else x.flowOut } := by
  simp [Console.setCts, h]

theorem Console.writeTx_eq (x : Console) (c : Byte) : x.writeTx c = if x.txUsed < 16 then { x with tx := x.tx ++ [c] } else x := by
  rw [Console.writeTx]
  split
  next h => rw [if_neg (Nat.not_lt.mpr h)]
  next h => rw [if_pos (Nat.not_le.mp h)]

theorem Console.txUsed_of_idle {x : Console} (h : x.outq = []) : x.txUsed = min 16 x.tx.length := by
  simp [Console.txUsed, h, outChars]

/-- The transmit store sends its characters first; what is held, and the lines lost, stand. -/
theorem Console.send_frame (x : Console) (n : Nat) : (x.send n).tx = x.tx.drop n ∧ (x.send n).held = x.held
    ∧ (x.send n).lostSince = x.lostSince := by
  unfold Console.send
  split <;> exact ⟨rfl, rfl, rfl⟩

/-- The rate stands while characters wait in the transmit store (R94). -/
theorem Console.setRate_of_busy {x : Console} (h : x.txUsed ≠ 0) : x.setRate = x := by rw [Console.setRate, if_pos h]

theorem Console.txUsed_of_tx {x : Console} (h : x.tx ≠ []) : x.txUsed ≠ 0 := by
  have := List.length_pos_of_ne_nil h
  unfold Console.txUsed
  omega

theorem Console.txUsed_of_outq {x : Console} (hd : x.rateDue = none) (h : x.outSent < outChars x.outq) : x.txUsed ≠ 0 := by
  simp only [Console.txUsed, hd, Option.isSome_none, Bool.false_eq_true, if_false]
  omega

/-- At rest the rate changes to that of the result of LINE BAUD sent last (R94). -/
theorem Console.setRate_due {x : Console} {c : Nat} (ht : x.tx = []) (hd : x.rateDue = some c) :
    x.setRate = { x with baudNow := if c = 3 then 1 else c, rateDue := none } := by
  have h0 : x.txUsed = 0 := by simp [Console.txUsed, ht, hd]
  rw [Console.setRate, if_neg (by rw [h0]; exact absurd rfl), hd]
  rfl

/-- At rest, with no result of LINE BAUD to come, it changes to that of CON_CTL (R94). -/
theorem Console.setRate_idle {x : Console} (ht : x.tx = []) (hd : x.rateDue = none) (ho : x.outq = [])
    (hh : ∀ h ∈ x.held, h.out.isRate = false) : x.setRate = { x with baudNow := if x.baud = 3 then 1 else x.baud } := by
  have h0 : x.txUsed = 0 := by rw [Console.txUsed_of_idle ho, ht]; rfl
  have hw : x.rateWaits = false := by simpa [Console.rateWaits, ho] using hh
  rw [Console.setRate, if_neg (by rw [h0]; exact absurd rfl), hd, hw]
  simp only [Bool.false_eq_true, if_false]
  rfl

section
variable {s : State} (hr : s.sys.inReset = false)
include hr

theorem exec_consoleChar (c : Byte) (bad : Bool) : exec (.consoleChar c bad) s = .next (s.consoleChar c bad) := by
  change execConsoleChar c bad s = _
  rw [execConsoleChar, onLatch_of_running hr]

theorem exec_consCtsChange (level : Bool) : exec (.consCtsChange level) s = .next (s.modCon fun x => x.setCts level) := by
  change execConsCtsChange level s = _
  rw [execConsCtsChange, onLatch_of_running hr]

theorem exec_consoleRxRead : exec .consoleRxRead s = .next s.readConRx := by
  change execConsoleRxRead s = _
  rw [execConsoleRxRead, onLatch_of_running hr]

theorem exec_consoleTxWrite (c : Byte) : exec (.consoleTxWrite c) s = .next (s.modCon fun x => x.writeTx c) := by
  change execConsoleTxWrite c s = _
  rw [execConsoleTxWrite, onLatch_of_running hr]

theorem exec_baudApply : exec .baudApply s = .next (s.modCon Console.setRate) := by
  change execBaudApply s = _
  rw [execBaudApply, onLatch_of_running hr]

/-- Characters leave, and then what waits for room follows (R97, R125). -/
theorem exec_outputQueueRoom (n : Nat) : exec (.outputQueueRoom n) s =
    .next (if s.con.cts || s.con.stopped then s else
      ((s.modCon fun x => x.send n).releaseHeld (s.con.send n).held.length).tellLost.readOn.dueRuns) := by
  change execOutputQueueRoom n s = _
  rw [execOutputQueueRoom, onLatch_of_running hr]
  rfl

end

/-- With nothing held and nothing lost, what is sent is all that the output queue's room brings before LC reads on. -/
theorem State.sent_eq {s : State} (hlost : s.con.lostSince = 0) (hheld : s.con.held = []) (n : Nat) :
    ((s.modCon fun x => x.send n).releaseHeld (s.con.send n).held.length).tellLost = s.modCon fun x => x.send n := by
  obtain ⟨-, hh, hl⟩ := s.con.send_frame n
  rw [hh, hheld]
  simp [State.releaseHeld, State.tellLost, hl, hlost]

/-! ### Lines that are no verb of this keeper -/

section
variable {s : State} {k : Fin 16} {w : Typed}

theorem exec_malformedLine (hrun : s.canRun k.val = true) (hbad : s.badLine k = true) : exec (.malformedLine k) s =
    .next (((s.nextLine k.val).2.ignoreForm k.val (s.badProof k.val)).afterLine k.val) := by
  change goOn (s.malformed k) = _
  rw [State.malformed, hrun, hbad]
  rfl

/-- A line that reads as `w` is taken: before READY RING it is a host error of its form (R113, R126). -/
theorem State.addressed_eq (hrun : s.canRun 0 = true) (ha : s.addresses w = true) (body : State → State) : s.addressed w body =
    (if (s.nextLine 0).2.isUp .ring then body (s.nextLine 0).2
      else (s.nextLine 0).2.ignoreForm 0 (w.text.any provesLine)).afterLine 0 := by
  rw [State.addressed, hrun, ha]
  rfl

end

/-- A line addressed to a keeper: it runs here, goes onto the ring, or is an unanswered line (R112, R113, R115). -/
theorem exec_forwardAddressedLine {s : State} {n : Byte} {text : String} (hrun : s.canRun 0 = true)
    (ha : s.addresses (.addressed n.toNat text) = true) : exec (.forwardAddressedLine n text) s = .next ((
      let u := (s.nextLine 0).2
      if u.isUp .ring then
        if n.toNat = u.keeperNo then u.runsHere text
        else if u.ring.number.isSome then u.pushFrame (.sol u.sys.head n.toNat u.keeperNo 0 text) none
        else u.ignore 0
      else u.ignoreForm 0 (provesLine text)).afterLine 0) :=
  congrArg Host.Outcome.next (State.addressed_eq hrun ha _)

/-- A broadcast line goes onto the ring, and then runs here (R114). -/
theorem exec_broadcastLine {s : State} {text : String} (hrun : s.canRun 0 = true) (ha : s.addresses (.broadcast text) = true) :
    exec (.broadcastLine text) s = .next ((
      let u := (s.nextLine 0).2
      if u.isUp .ring then
        (if u.ring.number.isSome then u.pushFrame (.sob u.sys.head u.keeperNo u.keeperNo 0 text) none else u).runsHere text
      else u.ignoreForm 0 (provesLine text)).afterLine 0) :=
  congrArg Host.Outcome.next (State.addressed_eq hrun ha _)

/-! ### A ring session that falls idle -/

section
variable {s : State} {k : Nat}

/-- The end of a session without open handles: it is closed, and what it had still to run is another's (R109). -/
theorem State.endSession_eq (h : s.hasOpen k = false) : ∃ u : State, s.endSession k = u.reopen k (s.sesAt k)
    ∧ u.ses = (s.modSes k fun _ => {}).ses ∧ u.ring = s.ring ∧ u.hnd = s.hnd := by
  have hnone : ∀ x ∈ s.hnd.opens, x.openedBy k = false := by simpa [State.hasOpen] using h
  have hmine : (s.hnd.opens.filter fun x => x.openedBy k) = [] := by simpa [List.filter_eq_nil_iff] using hnone
  have hmap (e : Nat) : (s.hnd.opens.map fun x => if x.openedBy k then { x with ended := true, ses := e } else x) = s.hnd.opens :=
    (List.map_congr_left fun x hx => by rw [hnone x hx]; rfl).trans (List.map_id _)
  unfold State.endSession
  dsimp only
  rw [hmine]
  refine ⟨_, rfl, rfl, rfl, ?_⟩
  exact congrArg (fun l => { s.hnd with opens := l }) (hmap _)

theorem State.reopen_of_none (x : Session) (h : ∀ l ∈ s.ring.linesIn, l.1 ≠ k) : s.reopen k x = s := by
  have hno : (s.ring.linesIn.any fun l => l.1 = k) = false := by simpa using h
  rw [State.reopen, hno]
  rfl

/-- Lines that the session had still to run are those of a new session of its pair (R108, R121). -/
theorem State.reopen_of_some (hk : k < 16) (x : Session) (h : ∃ l ∈ s.ring.linesIn, l.1 = k) : ∃ j : Fin 16,
    (s.reopen k x).sesAt j.val = { isOpen := true, src := x.src, byte := x.byte, lastTick := s.cal.tick } := by
  have hany : (s.ring.linesIn.any fun l => l.1 = k) = true := by simpa using h
  have hj : ((List.range 16).find? fun j => j ≠ 0 && !(s.sesAt j).isOpen).getD k < 16 := by
    cases hf : (List.range 16).find? fun j => j ≠ 0 && !(s.sesAt j).isOpen with
    | none => exact hk
    | some j => exact List.mem_range.mp (List.mem_of_find?_eq_some hf)
  refine ⟨⟨_, hj⟩, ?_⟩
  rw [State.reopen, hany]
  exact State.sesAt_modSes_self _ _ hj

/-- An idle ring session ends (R109). -/
theorem exec_sessionIdleTimeout {k : Fin 16} (hr : s.sys.inReset = false) (h0 : k.val ≠ 0) (ho : (s.sesAt k.val).isOpen = true)
    (hidle : (s.sesAt k.val).lastTick + 57600 ≤ s.cal.tick) (hopen : s.hasOpen k.val = false) :
    exec (.sessionIdleTimeout k) s = .next (s.endSession k.val) := by
  refine (onLatch_of_running hr _).trans ?_
  rw [if_pos (by simp [h0, ho, hidle, hopen])]

end

/-- Settles O44: what a character does is read off the store and the line editor (`State.Awaits`), what is sent off the console's own
rules, and a line that is no verb of this keeper off the way in which it is taken (`State.addressed_eq`). -/
theorem consoleAndLines : Obligations.ConsoleAndLines := by
  refine ⟨fun s c b hr => ?characters, fun s k n text => ?others⟩
  case characters =>
    refine ⟨exec_consoleChar hr c true, fun hx hc => ?flow, fun hx hup => ?stored, ?ctsHigh, fun hf => ?cts, fun x hf => ?ctsFalls,
      ⟨_, exec_consoleRxRead hr, s.readConRx_rx, ?rxRead⟩, ?txWrite,
      Nat.min_le_left .., Console.txUsed_of_idle, fun n => ⟨?stops, ?sends⟩,
      fun ht => ⟨fun c hd => ?due, fun hd ho hh => ?idle⟩, fun ht => ?busy, fun hd ho => ?sending⟩
    case flow => rw [exec_consoleChar hr, State.consoleChar_flow hx hc]; rfl
    case stored =>
      have hexec : exec (.consoleChar c false) s = .next (s.storeChar c).readOn := by
        rw [exec_consoleChar hr, State.consoleChar_stored hx hup]
      refine ⟨fun hfull => ⟨_, by rw [hexec, State.storeChar_full hfull]; rfl, rfl⟩,
        fun hroom => by rw [hexec, State.storeChar_room hroom]; rfl, fun hrx hm hl hov _ => ⟨fun h32 h126 => ?printable, ?cr⟩⟩
      case printable =>
        have hawaits : s.Awaits := ⟨hrx, hm, hl, hov⟩
        have hc := hawaits.printable h32 h126
        simp only [Console.contents, Prod.mk.injEq] at hc
        obtain ⟨hrx', -, hl', hb'⟩ := hc
        have hreads := s.readsTo_storeChar c
        exact ⟨_, hexec, hb', hrx', hl', hreads.tells.hnd, by rw [hreads.1]⟩
      case cr =>
        rintro rfl hblank
        have hawaits : s.Awaits := ⟨hrx, hm, hl, hov⟩
        have hc := hawaits.cr hblank
        simp only [Console.contents, Prod.mk.injEq] at hc
        obtain ⟨hrx', -, hl', hb'⟩ := hc
        exact ⟨_, hexec, hl', hb', hrx'⟩
    case ctsHigh => rw [exec_consCtsChange hr, State.modCon, Console.setCts_high]
    case cts => rw [exec_consCtsChange hr, State.modCon, Console.setCts_of_none hf]
    case ctsFalls => rw [exec_consCtsChange hr, State.modCon, Console.setCts_falls hf]
    case txWrite =>
      rw [exec_consoleTxWrite hr, State.modCon, Console.writeTx_eq]
      split <;> rfl
    case stops => exact fun h => by rw [exec_outputQueueRoom hr, if_pos (by simpa using h)]
    case sends =>
      intro hcts hst hlost hheld
      refine ⟨?_, (s.con.send_frame n).1⟩
      rw [exec_outputQueueRoom hr, hcts, hst, if_neg (by decide), State.sent_eq hlost hheld]
      rfl
    case rxRead =>
      obtain ⟨hc, -, ho⟩ := (s.modCon fun x => { x with rx := x.rx.drop 1, marks := x.marks.map fun m => m - 1 }).flowPoints_frame
      simp only [Console.contents, Prod.mk.injEq] at hc
      exact ⟨ho, hc.2.2.2⟩
    case due => rw [exec_baudApply hr, State.modCon, Console.setRate_due ht hd]
    case idle => rw [exec_baudApply hr, State.modCon, Console.setRate_idle ht hd ho hh]
    case busy => rw [exec_baudApply hr, State.modCon, Console.setRate_of_busy (Console.txUsed_of_tx ht)]
    case sending => rw [exec_baudApply hr, State.modCon, Console.setRate_of_busy (Console.txUsed_of_outq hd ho)]
  case others =>
    refine ⟨fun hrun hbad => ⟨fun hp => ?malformed, fun hp => ?malformedProof⟩, fun hcomes => ?addressed, fun hcomes => ?broadcast,
      fun hr h0 ho hidle hopen => ?idle⟩
    case malformed => rw [exec_malformedLine hrun hbad, hp]; rfl
    case malformedProof => rw [exec_malformedLine hrun hbad, hp]; rfl
    case addressed =>
      have hexec := exec_forwardAddressedLine hcomes.1 hcomes.2
      dsimp only at hexec
      refine ⟨fun hup => ?_, fun hup hn => ?_, fun hup hn hno => ?_, fun hup hn hno => ?_⟩
      · rw [hexec, hup]; rfl
      · rw [hexec, if_pos hup, if_pos hn]; rfl
      · rw [hexec, if_pos hup, if_neg hn, if_pos hno]
      · rw [hexec, if_pos hup, if_neg hn, hno]; rfl
    case broadcast =>
      have hexec := exec_broadcastLine hcomes.1 hcomes.2
      dsimp only at hexec
      refine ⟨fun hup => ?_, fun hup hno => ?_, fun hup hno => ?_⟩
      · rw [hexec, hup]; rfl
      · rw [hexec, if_pos hup, if_pos hno]; rfl
      · rw [hexec, if_pos hup, hno]; rfl
    case idle =>
      obtain ⟨u, hu, hses, hring, hhnd⟩ := State.endSession_eq hopen
      have hexec := (exec_sessionIdleTimeout hr h0 ho hidle hopen).trans (congrArg _ hu)
      have hsesAt (j : Nat) : u.sesAt j = (s.modSes k.val fun _ => {}).sesAt j := by rw [State.sesAt, hses, State.sesAt]
      refine ⟨fun hnone => ?_, fun hsome => ?_⟩
      · rw [State.reopen_of_none _ (by rw [hring]; exact hnone)] at hexec
        refine ⟨u, hexec, ?_, fun j hj => ?_, hring, hhnd⟩
        · rw [hsesAt, State.sesAt_modSes_self _ _ k.isLt]
        · rw [hsesAt, State.sesAt_modSes, if_neg fun h => hj (Fin.ext h.1.symm)]
      · obtain ⟨j, hj⟩ := State.reopen_of_some k.isLt (s.sesAt k.val) (by rw [hring]; exact hsome)
        exact ⟨_, j, hexec, by rw [hj], by rw [hj], by rw [hj], by rw [hj]⟩

end Sys2Proof.Machine

/-! SUPPORT. The statements of what lapses in time, and of the keypad, the panel and the face. A command acts where its domain runs
(`onLatch_of_running`, `onField_of_running`, `onPanel_of_usable`); what it then does is read off the equation of its operation. -/

namespace Sys2Proof.Machine

/-! ### When commands of the field and of the panel act -/

theorem onField_of_running {s : State} (hr : s.sys.inReset = false) (hu : s.sys.fieldUp = true) (f : State → State) :
    onField s f = .next (f s) := by
  rw [onField, hr, hu]
  rfl

theorem onPanel_of_usable {s : State} (hr : s.sys.inReset = false) (hk : s.isUp .keys = true) (f : State → State) :
    onPanel s f = .next (f s) := by
  rw [onPanel, onLatch_of_running hr, if_pos hk]

/-! ### What notices and tags leave of keys, fans and face -/

section
variable (s : State)

@[simp] theorem State.notice_keys (t : String) : (s.notice t).keys = s.keys := by rw [State.notice_eq]
@[simp] theorem State.notice_fans (t : String) : (s.notice t).fans = s.fans := by rw [State.notice_eq]
@[simp] theorem State.notice_fanAt (t : String) (n : Nat) : (s.notice t).fanAt n = s.fanAt n := by
  rw [State.fanAt, State.notice_fans, State.fanAt]
@[simp] theorem State.showTag_face (n : Nat) : (s.showTag n).face = s.face := by rw [State.showTag_eq]
@[simp] theorem State.showTags_face : s.showTags.face = s.face := foldl_frame State.face State.showTag_face _ s

end

/-! ### Challenges, locate marks and the keyswitch -/

section
variable {s : State}

theorem State.lapsed_iff {k : Nat} :
    s.lapsed k = true ↔ (s.sesAt k).openTick + 3840 ≤ s.cal.tick ∧ (k, Due.opened) ∉ s.sys.due := by simp [State.lapsed]

theorem exec_challengeLapse (hr : s.sys.inReset = false) (k : Fin 16) : exec (.challengeLapse k) s =
    .next (if s.lapsed k.val then s.modSes k.val fun x => { x with challenge := none } else s) := onLatch_of_running hr _

/-- Marking or unmarking a bay leaves every bay's state (R155). -/
theorem State.setLocate_st (s : State) (n : Nat) (on : Bool) (m : Nat) : ((s.setLocate n on).bayAt m).st = (s.bayAt m).st := by
  rw [State.setLocate, State.showTag_bayAt]
  exact s.modBay_st n m fun _ => rfl

theorem exec_locateMarkTimeout (hr : s.sys.inReset = false) {n : BayNo} {t : Nat} (hm : (s.bayAt n.val).locate = some t)
    (ht : t + 57600 ≤ s.cal.tick) : exec (.locateMarkTimeout n) s = .next (s.setLocate n.val false) := by
  change execLocateMarkTimeout n s = _
  rw [execLocateMarkTimeout, onLatch_of_running hr, hm]
  exact congrArg _ (if_pos ht)

theorem exec_keyswitchFault (hr : s.sys.inReset = false) (hv : s.switchValid = false) (hf : s.keys.ksFault = false)
    (ht : 64 ≤ s.keys.ksTicks) : exec .keyswitchFault s =
      .next ((s.modKeys fun x => { x with ksFault := true }).notice "^KEYSWITCH FAULT") := by
  change execKeyswitchFault s = _
  rw [execKeyswitchFault, onLatch_of_running hr, State.switchFault, if_pos (by simp [hv, hf, ht])]

end

/-! ### Fans and thermistors -/

/-- A fan whose second ended with `p` pulses: it is not ABSENT once it has given one, and it runs again from 300 RPM on (R174, R177). -/
def Fan.told (f : Fan) (p : Nat) : Fan :=
  { f with pulses := p, seen := f.seen || decide (0 < p), absent := f.absent && decide (p = 0)
           stall := f.stall && !decide (300 ≤ p * 30) }

section
variable {s : State}

/-- The pulses of a second reach their own fan (R677). -/
theorem State.fanAt_tach_self {n : Nat} (hn : n < 8) (p : Nat) : (s.tach n p).fanAt n = (s.fanAt n).told p := by
  simp only [State.tach, State.fanAt_modFan, hn, and_self, if_true]
  split
  next h =>
    have hp : 300 ≤ p * 30 := of_decide_eq_true (Bool.and_eq_true_iff.mp h).2
    simp [State.fanAt_modFan, hn, Fan.told, hp]
  next h =>
    have hs : ((s.fanAt n).stall && !decide (300 ≤ p * 30)) = (s.fanAt n).stall := by
      cases hst : (s.fanAt n).stall with
      | false => rfl
      | true => simpa [hst] using h
    simp [State.fanAt_modFan, hn, Fan.told, hs]

theorem State.fanAt_tach_ne {n m : Nat} (h : n ≠ m) (p : Nat) : (s.tach n p).fanAt m = s.fanAt m := by
  unfold State.tach
  dsimp only
  split <;> simp [State.fanAt_modFan, h]

theorem State.tach_secondDue (s : State) (n p : Nat) : (s.tach n p).fans.secondDue = s.fans.secondDue := by
  unfold State.tach
  dsimp only
  split
  · rw [State.notice_fans]; rfl
  · rfl

/-- The pulses of a calendar second reach the fans. -/
def State.latchPulses (s : State) (pulses : Vector (BitVec 16) 8) : State :=
  (List.range 8).foldl (fun s n => s.tach n (vget pulses n).toNat) (s.modFans fun x => { x with secondDue := false })

theorem exec_fanTachSecond (hr : s.sys.inReset = false) (hu : s.sys.fieldUp = true) (pulses : Vector (BitVec 16) 8) :
    exec (.fanTachSecond pulses) s = .next (if s.fans.secondDue then s.latchPulses pulses else s) := onField_of_running hr hu _

/-- A latched second leaves each fan its own pulses, and its duty (R677). -/
theorem State.latchPulses_fanAt (s : State) (pulses : Vector (BitVec 16) 8) (j : Fin 8) :
    ((s.latchPulses pulses).fanAt j.val).pulses = pulses[j].toNat
      ∧ ((s.latchPulses pulses).fanAt j.val).duty = (s.fanAt j.val).duty := by
  have hother {n : Nat} (u : State) (h : n ≠ j.val) : (u.tach n (vget pulses n).toNat).fanAt j.val = u.fanAt j.val :=
    State.fanAt_tach_ne h _
  have hown (u : State) : (u.tach j.val (vget pulses j.val).toNat).fanAt j.val
      = (u.fanAt j.val).told (vget pulses j.val).toNat := State.fanAt_tach_self j.isLt _
  have hcount : (vget pulses j.val).toNat = pulses[j].toNat := by simp [vget]
  constructor
  · refine foldl_reaches (P := fun u : State => (u.fanAt j.val).pulses = pulses[j].toNat) (List.mem_range.mpr j.isLt)
      (fun u => ?_) (fun n _ u hu => ?_) _
    · rw [hown]
      exact hcount
    · by_cases hn : n = j.val
      · rw [hn, hown]
        exact hcount
      · rwa [hother u hn]
  · refine foldl_frame (fun u : State => (u.fanAt j.val).duty) (fun u n => ?_) _ _
    by_cases hn : n = j.val
    · rw [hn, hown]
      rfl
    · rw [hother u hn]

theorem State.latchPulses_secondDue (s : State) (pulses : Vector (BitVec 16) 8) :
    (s.latchPulses pulses).fans.secondDue = false := by
  unfold State.latchPulses
  exact foldl_frame (fun u : State => u.fans.secondDue) (fun u n => u.tach_secondDue n _) _ _

theorem exec_fanAbsentTimeout (hr : s.sys.inReset = false) (hu : s.sys.fieldUp = true) (ht : s.fansTimed = true) {f : Fin 8}
    (hf : (s.fanAt f.val).seen = false) :
    exec (.fanAbsentTimeout f) s = .next (s.modFan f.val fun f => { f with absent := true }) := by
  change execFanAbsentTimeout f s = _
  rw [execFanAbsentTimeout, onField_of_running hr hu, if_neg (by simp [ht, hf])]

theorem exec_fanStall (hr : s.sys.inReset = false) (hu : s.sys.fieldUp = true) {f : Fin 8} (hf : (s.fanAt f.val).stall = false)
    (hs : (s.fanAt f.val).slow = true) (hl : 128 ≤ (s.fanAt f.val).low) : exec (.fanStall f) s =
      .next ((s.modFan f.val fun f => { f with stall := true }).notice ("^FAN " ++ decText f.val ++ " STALL")) := by
  change execFanStall f s = _
  rw [execFanStall, onField_of_running hr hu, State.fanStalls, if_pos (by simp [hf, hs, hl])]

theorem exec_thermistorConversion (hr : s.sys.inReset = false) (hu : s.sys.fieldUp = true) (i : Fin 17) (code : BitVec 12) :
    exec (.thermistorConversion i code) s = .next (s.converted i.val code.toNat) :=
  onField_of_running hr hu fun u => u.converted i.val code.toNat

/-- The die's alarm leaves the thermistors' codes (R722). -/
theorem State.dieAlarm_codes (s : State) : s.dieAlarm.fans.th = s.fans.th ∧ s.dieAlarm.fans.thSeen = s.fans.thSeen := by
  unfold State.dieAlarm
  dsimp only
  split
  · rw [State.notice_fans]
    exact ⟨rfl, rfl⟩
  split
  · rw [State.notice_fans]
    exact ⟨rfl, rfl⟩
  · exact ⟨rfl, rfl⟩

/-- A conversion leaves its code, and its input counts as converted (R720). -/
theorem State.converted_code (s : State) (i : Fin 17) (code : Nat) :
    (s.converted i.val code).fans.th[i] = code ∧ (s.converted i.val code).fans.thSeen.getLsbD i.val = true := by
  have hcodes : (s.converted i.val code).fans.th = vset s.fans.th i.val code
      ∧ (s.converted i.val code).fans.thSeen = putBit s.fans.thSeen i.val true := by
    unfold State.converted
    dsimp only
    split
    · exact State.dieAlarm_codes _
    · exact ⟨rfl, rfl⟩
  rw [hcodes.1, hcodes.2, getLsbD_putBit _ _ _ _ i.isLt]
  simp [vset]

end

/-- Settles O54: each command acts where its domain runs, and the state after it is read off its own operation. -/
theorem lapses : Obligations.Lapses := by
  intro s k n f i code pulses hr
  refine ⟨fun ht hd => ?challenge, fun h => ?pending,
    fun t hm ht => ⟨_, exec_locateMarkTimeout hr hm ht, ?unmarked, State.setLocate_st ..⟩, fun ht => ?keypad,
    fun hv hf ht => ⟨_, exec_keyswitchFault hr hv hf ht, State.notice_keys ..⟩,
    fun hu ht hf => ⟨_, exec_fanAbsentTimeout hr hu ht hf, ?absent, fun j hj => ?others⟩, fun hu hd => ?second,
    fun hd => ?noSecond, fun hu hf hs hl => ⟨_, exec_fanStall hr hu hf hs hl, ?stall⟩,
    fun hu => ⟨_, exec_thermistorConversion hr hu i code, State.converted_code ..⟩⟩
  case challenge =>
    refine ⟨_, (exec_challengeLapse hr k).trans (by rw [if_pos (State.lapsed_iff.mpr ⟨ht, hd⟩)]), ?_, ?_, fun j hj => ?_⟩
    · rw [State.sesAt_modSes_self _ _ k.isLt]
    · rw [State.sesAt_modSes_self _ _ k.isLt]
    · rw [State.sesAt_modSes, if_neg fun h => hj (Fin.ext h.1.symm)]
  case pending =>
    have hnot : ¬ s.lapsed k.val = true := fun hl =>
      h.elim (fun ht => absurd (State.lapsed_iff.mp hl).1 (by omega)) (State.lapsed_iff.mp hl).2
    rw [exec_challengeLapse hr, if_neg hnot]
  case unmarked => exact State.setLocate_locate s n false
  case keypad => exact (onLatch_of_running hr _).trans (by rw [if_pos ht]; rfl)
  case absent => rw [State.fanAt_modFan, if_pos ⟨rfl, f.isLt⟩]
  case others => rw [State.fanAt_modFan, if_neg fun h => hj (Fin.ext h.1.symm)]
  case second =>
    exact ⟨_, (exec_fanTachSecond hr hu pulses).trans (by rw [if_pos hd]), s.latchPulses_secondDue pulses, s.latchPulses_fanAt pulses⟩
  case noSecond =>
    change execFanTachSecond pulses s = _
    simp [execFanTachSecond, onField, goOn, hd]
  case stall => rw [State.notice_fanAt, State.fanAt_modFan, if_pos ⟨rfl, f.isLt⟩]

/-! ### Locate marks, by the LOCATE keys -/

section
variable {s : State}

/-- A LOCATE key of an unmarked bay shows the bay (R473). -/
theorem State.locateKey_unmarked {n : Nat} (h : (s.bayAt n).locate = none) : s.locateKey n = s.keypadShow (.bay n) := by
  rw [State.locateKey, if_neg (by simp [h])]

/-- A LOCATE key of a marked bay ends its mark (R473). -/
theorem State.locateKey_marked {n : Nat} (h : (s.bayAt n).locate.isSome = true) : s.locateKey n = s.setLocate n false := by
  rw [State.locateKey, if_pos h]

/-- The keypad's LOCATE, at a bay in FIELD, sets or clears the bay's mark (R155, R475). -/
theorem State.keypadLocate_bay {m : Nat} (h : s.shownNow = .bay m) (hf : s.sys.kst = .field) :
    s.keypadLocate = s.press.setLocate m (s.bayAt m).locate.isNone := by
  rw [State.keypadLocate, h]
  exact if_pos hf

theorem State.keypadLocate_dark {m : Nat} (h : s.shownNow = .bay m) (hf : s.sys.kst ≠ .field) :
    s.keypadLocate = s.press.showErr := by
  rw [State.keypadLocate, h]
  exact if_neg hf

theorem State.keypadLocate_tenancy {m : Nat} (h : s.shownNow = .tenancy m) : s.keypadLocate = s.press.showErr := by
  rw [State.keypadLocate, h]

/-! ### LEVER keys -/

/-- The notice that a LEVER's closing prints in FIELD (R474). -/
theorem State.leverClosed_field (h : s.sys.kst = .field) (n : Nat) :
    ∃ t : String, s.leverClosed n = (s.notice t).showTag n := by
  rw [State.leverClosed, if_pos h]
  exact ⟨_, rfl⟩

theorem State.leverClosed_dark (h : s.sys.kst ≠ .field) (n : Nat) : s.leverClosed n = s.showTag n := by
  rw [State.leverClosed, if_neg h]

theorem exec_keyLever (hr : s.sys.inReset = false) (n : BayNo) : exec (.keyLever n) s = .next (s.leverClosed n.val) :=
  onLatch_of_running hr fun u => u.leverClosed n.val

/-! ### Entries, UP and DOWN -/

/-- An entry names nothing: it is empty (log 40) or beyond the last bay or tenancy. -/
theorem entry_void {d : List (Fin 10)} {m : Nat} : (d.isEmpty || decide (m < entryOf d)) = true ↔ d = [] ∨ m < entryOf d := by
  simp

theorem entry_names {d : List (Fin 10)} {m : Nat} (hd : d ≠ []) (hm : entryOf d ≤ m) :
    ¬ (d.isEmpty || decide (m < entryOf d)) = true := fun h => (entry_void.mp h).elim hd (Nat.not_lt.mpr hm)

theorem State.keypadStep_bay {m : Nat} (h : s.shownNow = .bay m) (up : Bool) :
    s.keypadStep up = s.keypadShow (.bay ((if up then m + 1 else m + 95) % 96)) := by
  rw [State.keypadStep, h]

theorem State.keypadStep_tenancy {m : Nat} (h : s.shownNow = .tenancy m) (up : Bool) :
    s.keypadStep up = s.keypadShow (.tenancy ((if up then m + 1 else m + 15) % 16)) := by
  rw [State.keypadStep, h]

/-! ### WAKE, REST and DOT -/

/-- A cause that asks for a WAKE stands behind those that have asked before, once (R35). -/
theorem State.askWake_wakePend (s : State) (c : WakeCause) : (s.askWake c).sys.wakePend =
    if c ∈ s.sys.wakePend then s.sys.wakePend else s.sys.wakePend ++ [c] := by simp [State.askWake]

/-- WAKE in LATCH or RESTING asks for a WAKE (R476). -/
theorem State.panelWake_asks (h : s.sys.kst = .latch ∨ s.sys.kst = .resting) :
    s.panelWake = (s.press.askWake .panel).notice "^PANEL WAKE" := by
  have hk : (decide (s.sys.kst = .latch) || decide (s.sys.kst = .resting)) = true := by simpa using h
  exact if_pos hk

/-- REST is refused while the keyswitch is not turned (R475). -/
theorem State.panelRest_refused (h : s.turned = false) : s.panelRest = s.press.showErr := by
  have ht : (!s.turned) = true := by rw [h]; rfl
  exact if_pos ht

/-- REST with the keyswitch turned opens a handle of T0, where one can be had (R475). -/
theorem State.panelRest_accepted (h : s.turned = true) (ha : s.canAccept 0 = true) :
    s.panelRest = s.press.accept 0 { ses := 0, tag := panelTag } "REST" .rest := by
  have ht : ¬ (!s.turned) = true := by rw [h]; decide
  exact (if_neg ht).trans (if_pos ha)

/-- Acceptance opens a handle of the form and the tenancy, which is not accepted yet (R221, R224). -/
theorem State.accept_opens (s : State) (ten : Nat) (q : Src) (name : String) (form : Form) :
    ∃ h ∈ (s.accept ten q name form).hnd.opens, h.form = form ∧ h.ten = ten ∧ h.accepted = false := by
  obtain ⟨h, hh, he⟩ := State.exists_of_issued (by
    rw [s.accept_issued ten q name form]
    exact List.mem_append_right _ (List.mem_singleton_self _))
  simp only [Handle.issued, Prod.mk.injEq] at he
  obtain ⟨hform, -, -, hten, -, hacc, -⟩ := he
  exact ⟨h, hh, hform, hten, hacc⟩

/-- DOT lights all while it is held (R475). -/
theorem State.setDot_dot (s : State) (held : Bool) : (s.setDot held).face.dot = held := by
  rw [State.setDot, State.showTags_face]
  rfl

/-! ### The displays in time, and the frames -/

theorem exec_errTimeout (hr : s.sys.inReset = false) (he : s.face.keypad = some .err) (ht : s.face.errTick + 64 ≤ s.cal.tick) :
    exec .errTimeout s = .next (s.modFace fun f => { f with keypad := f.errPrev.getD none, errPrev := none }) := by
  change execErrTimeout s = _
  rw [execErrTimeout, onLatch_of_running hr, if_pos (by simp [he, ht])]

/-- A frame that begins shows a pending image (R484). -/
theorem State.faceFrame_pending (h : s.face.pend = true) :
    s.faceFrame = s.modFace fun f => { f with shown := f.img, pend := false, inverted := !f.inverted } := by
  rw [State.faceFrame, State.modFace, if_pos h]
  rfl

theorem exec_faceCommit (hr : s.sys.inReset = false) : exec .faceCommit s = .next (s.modFace fun f => { f with pend := true }) :=
  onLatch_of_running hr fun u => u.modFace fun f => { f with pend := true }

theorem exec_faceFrameStart (hr : s.sys.inReset = false) : exec .faceFrameStart s = .next s.faceFrame :=
  onLatch_of_running hr State.faceFrame

theorem exec_faceRender (hr : s.sys.inReset = false) (h : s.face.started = true) : exec .faceRender s = .next s.render := by
  change execFaceRender s = _
  rw [execFaceRender, onLatch_of_running hr, if_pos h]

theorem exec_faceViewRotate (hr : s.sys.inReset = false) (h : s.face.autoTick + 320 ≤ s.cal.tick) : exec .faceViewRotate s =
    .next (s.modFace fun f => { f with auto := (f.auto + 1) % s.autoRound.length, autoTick := s.cal.tick }) := by
  change execFaceViewRotate s = _
  rw [execFaceViewRotate, onLatch_of_running hr, if_pos h]

end

/-! ### The keys' commands, where the panel is usable -/

section
variable {s : State} (hr : s.sys.inReset = false) (hk : s.isUp .keys = true)
include hr hk

theorem exec_keyLocate (n : BayNo) : exec (.keyLocate n) s = .next (s.locateKey n.val) :=
  onPanel_of_usable hr hk fun u => u.locateKey n.val

theorem exec_keypadBay (d : List (Fin 10)) : exec (.keypadBay d) s = .next (s.keypadBay d) :=
  onPanel_of_usable hr hk fun u => u.keypadBay d

theorem exec_keypadTenancy (d : List (Fin 10)) : exec (.keypadTenancy d) s = .next (s.keypadTenancy d) :=
  onPanel_of_usable hr hk fun u => u.keypadTenancy d

theorem exec_keypadUpDown (up : Bool) : exec (.keypadUpDown up) s = .next (s.keypadStep up) :=
  onPanel_of_usable hr hk fun u => u.keypadStep up

theorem exec_keypadLocate : exec .keypadLocate s = .next s.keypadLocate := onPanel_of_usable hr hk State.keypadLocate

theorem exec_keypadView : exec .keypadView s = .next (s.keypadShow (.view (nextView s.shownNow))) :=
  onPanel_of_usable hr hk fun u => u.keypadShow (.view (nextView u.shownNow))

theorem exec_keypadClear : exec .keypadClear s = .next (s.modFace fun f => { f with keypad := none }) :=
  onPanel_of_usable hr hk fun u => u.modFace fun f => { f with keypad := none }

theorem exec_panelWake : exec .panelWake s = .next s.panelWake := onPanel_of_usable hr hk State.panelWake

theorem exec_panelRest : exec .panelRest s = .next s.panelRest := onPanel_of_usable hr hk State.panelRest

theorem exec_panelDot (held : Bool) : exec (.panelDot held) s = .next (s.setDot held) :=
  onPanel_of_usable hr hk fun u => u.setDot held

end

/-- Settles O59: what each key shows, marks, asks for or opens is read off its own operation, which acts from READY KEYS on. -/
theorem panelAndFace : Obligations.PanelAndFace := by
  intro s n d b hr hk
  dsimp only
  refine ⟨fun h => ?unmarked, fun h => ⟨_, ?marked, s.setLocate_locate n false⟩, fun h => ?lever, fun h => ?leverField,
    fun hd hm => ?bay, fun h => ⟨s.press.showErr, ?noBay, rfl, rfl⟩, fun hd hm => ?tenancy,
    fun h => ⟨s.press.showErr, ?noTenancy, rfl, rfl⟩,
    fun m hm => ⟨?stepBay, fun hf h96 => ?locate, fun hf => ⟨s.press.showErr, ?dark, rfl, rfl⟩⟩,
    fun m hm => ⟨?stepTenancy, ⟨s.press.showErr, ?locateTenancy, rfl, rfl⟩⟩, exec_keypadView hr hk, exec_keypadClear hr hk,
    fun h => ?wake, fun ht => ⟨s.press.showErr, ?refused, rfl, rfl⟩, fun ht ha => ?rest, ⟨_, exec_panelDot hr hk b, s.setDot_dot b⟩,
    exec_errTimeout hr, exec_faceCommit hr, fun h => ?frame, fun h => ⟨_, exec_faceRender hr h, rfl, rfl, rfl⟩,
    fun h => ⟨_, exec_faceViewRotate hr h, rfl, rfl⟩⟩
  case unmarked => rw [exec_keyLocate hr hk, State.locateKey_unmarked h]; rfl
  case marked => rw [exec_keyLocate hr hk, State.locateKey_marked h]
  case lever => rw [exec_keyLever hr, State.leverClosed_dark h]
  case leverField =>
    obtain ⟨t, ht⟩ := State.leverClosed_field h n.val
    exact ⟨t, by rw [exec_keyLever hr, ht]⟩
  case bay => rw [exec_keypadBay hr hk, State.keypadBay, if_neg (entry_names hd hm)]; rfl
  case noBay => rw [exec_keypadBay hr hk, State.keypadBay, if_pos (entry_void.mpr h)]
  case tenancy => rw [exec_keypadTenancy hr hk, State.keypadTenancy, if_neg (entry_names hd hm)]; rfl
  case noTenancy => rw [exec_keypadTenancy hr hk, State.keypadTenancy, if_pos (entry_void.mpr h)]
  case stepBay => rw [exec_keypadUpDown hr hk, State.keypadStep_bay hm]; rfl
  case locate =>
    refine ⟨_, (exec_keypadLocate hr hk).trans (congrArg _ (State.keypadLocate_bay hm hf)), ?_⟩
    rw [s.press.setLocate_locate ⟨m, h96⟩]
    cases (s.bayAt m).locate.isNone <;> rfl
  case dark => rw [exec_keypadLocate hr hk, State.keypadLocate_dark hm hf]
  case stepTenancy => rw [exec_keypadUpDown hr hk, State.keypadStep_tenancy hm]; rfl
  case locateTenancy => rw [exec_keypadLocate hr hk, State.keypadLocate_tenancy hm]
  case wake =>
    refine ⟨_, (exec_panelWake hr hk).trans (congrArg _ (State.panelWake_asks h)), ?_⟩
    rw [State.notice_sys, State.askWake_wakePend]
    rfl
  case refused => rw [exec_panelRest hr hk, State.panelRest_refused ht]
  case rest =>
    rw [exec_panelRest hr hk, State.panelRest_accepted ht ha]
    exact ⟨_, rfl, State.accept_opens ..⟩
  case frame => rw [exec_faceFrameStart hr, State.faceFrame_pending h]; rfl

end Sys2Proof.Machine

namespace Sys2Proof.Machine

/-! ### The SHAREs that the planner takes over at a tick's settings (R191, R353) -/

theorem exec_tenancySettingApply {s : State} (hr : s.sys.inReset = false) : exec .tenancySettingApply s = .next s.settingsApply :=
  onLatch_of_running hr State.settingsApply

@[simp] theorem State.writeGroups_sdb (s : State) : s.writeGroups.sdb = s.sdb := by
  unfold State.writeGroups
  rw [foldl_frame State.sdb fun u _ => by rfl, foldl_frame State.sdb fun u _ => u.modQue_sdb ..]

@[simp] theorem State.writeBayGrants_sdb (s : State) : s.writeBayGrants.sdb = s.sdb := by
  unfold State.writeBayGrants
  exact foldl_frame State.sdb (fun u t => by rw [State.modPlot]) _ s

/-- Written, the SHAREs in force are those that the last tick found stored (`State.meterSettings`), whatever has been stored since. -/
theorem State.settingsApply_shareNow {s : State} (h : s.sdb.applyNow = true) : s.settingsApply.sdb.shareNow = s.sdb.shareSet := by
  have hgroups (b : Bool) (u : State) : (if b then u.writeGroups else u).sdb = u.sdb := by split <;> simp
  have hgrants (b : Bool) (u : State) : (if b then u.writeBayGrants else u).sdb = u.sdb := by split <;> simp
  simp only [State.settingsApply, h, Bool.not_true, Bool.false_eq_true, if_false, State.modEnv_sdb, hgrants, hgroups, State.modSdb_sdb]

/-- A write of a SHARE of T0, in tenths of a percent (R191). -/
def shareJob (v : Nat) : SdbJob := { setting := .share 0 v, reply := none, handle := none }

/-- SHARE 10.0 of T0 is stored, its tick comes, and SHARE 20.0 is stored before firmware has written the settings of that tick
(R358, R362; log 51 leaves open when firmware writes them). -/
def shareBetween : State := (State.reset.jobStored (shareJob 100)).calendarTick.jobStored (shareJob 200)

theorem shareBetween_running : shareBetween.sys.inReset = false ∧ shareBetween.sdb.applyNow = true := by decide +kernel

/-- The tick found 10.0 stored; 20.0 stands in the seedbank's settings now. -/
theorem shareBetween_shares : vget shareBetween.sdb.shareSet 0 = 100
    ∧ vget (shareBetween.sdb.ten.map TenSet.share) 0 = 200 := by decide +kernel

/-- Refutes O52, by its clause of the settings of a tick: it lets the planner take over the SHAREs as they stand stored when firmware
writes the settings, where the model (and R191) gives it those that the tick found. In `shareBetween` the two differ for T0: 10.0
comes into force, not 20.0, whose own tick is still to come. -/
theorem not_handleEvents : ¬ Obligations.HandleEvents := by
  intro h
  obtain ⟨hr, ha⟩ := shareBetween_running
  obtain ⟨-, -, -, -, -, -, -, -, happly, -⟩ := h shareBetween 0 hr
  obtain ⟨u, hexec, -, -, hshare, -⟩ := happly ha
  have hu : shareBetween.settingsApply = u := Host.Outcome.next.inj ((exec_tenancySettingApply hr).symm.trans hexec)
  have hsets : shareBetween.sdb.shareSet = shareBetween.sdb.ten.map TenSet.share := by
    rw [← State.settingsApply_shareNow ha, hu, hshare]
  obtain ⟨htick, hstored⟩ := shareBetween_shares
  rw [hsets, hstored] at htick
  exact absurd htick (by decide)

end Sys2Proof.Machine

namespace Sys2Proof.Machine

/-! ### A write of the seedbank's port (R361)

Whether the buffer stands in the page afterwards turns on the memory's canonical form (`State.memOk`, which every step from reset
keeps): there the write reads back; in a memory that lists an address twice, it need not. -/

theorem exec_seedbankOpDone {s : State} (hr : s.sys.inReset = false) (verified : Bool) :
    exec (.seedbankOpDone verified) s = .next (s.seedbankDone verified) :=
  onLatch_of_running hr fun s => s.seedbankDone verified

theorem State.sdbKick_of_noJobs {s : State} (h : s.sdb.jobs = []) : s.sdbKick = s := by rw [State.sdbKick, h]

section
variable {s : State} (hbusy : s.sdb.jobBusy = false) (hjobs : s.sdb.jobs = []) (hop : s.sdb.op = some .write)
include hbusy hjobs hop

/-- Verified, a write of the port stores the buffer in the page of its command. -/
theorem State.seedbankDone_portWrite_mem :
    (s.seedbankDone true).sdb.mem = Mem.puts zeroByte s.sdb.mem (256 * s.sdb.opPage) (bytesOf s.sdb.buf.toList) := by
  have hport : s.sdbPortDone true = (s.modSdb fun d => { d with op := none }).modSdb fun d =>
      { d with mem := Mem.puts zeroByte d.mem (256 * d.opPage) (bytesOf d.buf.toList) } := by
    simp [State.sdbPortDone, hop]
  have hnone : (s.sdbPortDone true).sdb.jobs = [] := by rw [hport]; exact hjobs
  have hdone : s.seedbankDone true = s.sdbPortDone true := by
    simp [State.seedbankDone, hbusy, State.sdbKick_of_noJobs hnone]
  rw [hdone, hport]
  rfl

/-- In canonical memories the page then reads as the buffer. -/
theorem State.seedbankDone_portWrite_gets (hm : s.memOk) :
    Mem.gets zeroByte (s.seedbankDone true).sdb.mem (256 * s.sdb.opPage) 256 = bytesOf s.sdb.buf.toList := by
  obtain ⟨-, -, -, -, -, -, -, hsdb⟩ := hm
  have hlen : (bytesOf s.sdb.buf.toList).length = 256 := by simp [bytesOf, leBytes_length]
  have hgets := Mem.gets_puts zeroByte (bytesOf s.sdb.buf.toList) s.sdb.mem (256 * s.sdb.opPage) hsdb
  rw [hlen] at hgets
  rw [State.seedbankDone_portWrite_mem hbusy hjobs hop, hgets]

end

/-- A write of page 0 runs, of a buffer of zeros; the memory's data lists the page's first byte twice, as 1. -/
def listedTwice : State := State.reset.modSdb fun d => { d with op := some .write, mem := [(0, 1#8), (0, 1#8)] }

theorem listedTwice_running : listedTwice.sys.inReset = false ∧ listedTwice.sys.vstbyLow = false := by decide +kernel

theorem listedTwice_writes : listedTwice.sdb.jobBusy = false ∧ listedTwice.sdb.jobs = [] ∧ listedTwice.sdb.op = some .write :=
  ⟨rfl, rfl, rfl⟩

/-- Storing the buffer's first 0 takes away one of the two entries, and the page still reads 1 there. -/
theorem listedTwice_readsOld :
    Mem.gets zeroByte (Mem.puts zeroByte listedTwice.sdb.mem (256 * listedTwice.sdb.opPage) (bytesOf listedTwice.sdb.buf.toList))
      (256 * listedTwice.sdb.opPage) 256 ≠ bytesOf listedTwice.sdb.buf.toList := by decide +kernel

/-- Refutes O51, by its clause of a write of the seedbank's port: the statement ranges over every state, and not only over those that
meet `State.memOk`. In `listedTwice`, whose seedbank is not in canonical form, a verified write does not leave the buffer in its page.
With `memOk` the clause holds (`State.seedbankDone_portWrite_gets`). -/
theorem not_storing : ¬ Obligations.Storing := by
  intro h
  obtain ⟨hr, hv⟩ := listedTwice_running
  obtain ⟨hbusy, hjobs, hop⟩ := listedTwice_writes
  obtain ⟨-, -, -, -, -, -, -, hport, -⟩ := h listedTwice default [] 0 0 hr hv
  obtain ⟨hwrite, -⟩ := hport hbusy hjobs
  obtain ⟨t, hexec, -, -, hgets⟩ := hwrite hop
  have ht : listedTwice.seedbankDone true = t := Host.Outcome.next.inj ((exec_seedbankOpDone hr true).symm.trans hexec)
  rw [← ht, State.seedbankDone_portWrite_mem hbusy hjobs hop] at hgets
  exact listedTwice_readsOld hgets

end Sys2Proof.Machine

/-! SUPPORT. The statements of the headland ring: the frames that arrive, those that a keeper sends of itself, and its port. What a notice
or the end of a session does to the ring stays among the lines that wait and those taken in (`Ring.port`), so that each command of the
ring can be read off from its own changes alone. -/

namespace Sys2Proof.Machine

/-! ### The ring but for the lines that wait and those taken in -/

/-- The ring without the lines that wait to enter it, the notices that found no room there, and the lines taken in. -/
def Ring.port (r : Ring) : Ring := { r with insq := [], notices := 0, wait := [], linesIn := [] }

section
variable (s : State)

theorem State.notice_port (t : String) : (s.notice t).ring.port = s.ring.port := by
  rw [State.notice_ring]
  rfl

theorem State.keep_port (h : Handle) (c : Compl) (orphan : Bool) : (s.keep h c orphan).ring.port = s.ring.port := by
  have htick (u : State) (j tick : Nat) :
      (if j = 0 then u else u.modSes j fun x => { x with lastTick := tick }).ring.port = u.ring.port := by
    split <;> rfl
  have hdisplaced (y : Kept) : (if y.orphaned then (s.displace y).notice ("^ORPHAN LOST " ++ handleText y.kk y.seq)
      else s.displace y).ring.port = s.ring.port := by
    split
    · exact State.notice_port _ _
    · rfl
  unfold State.keep
  cases s.displaced with
  | none =>
    cases h.opener with
    | none => rfl
    | some j => exact htick (s.modHnd _) j _
  | some y =>
    cases h.opener with
    | none => exact hdisplaced y
    | some j => exact (htick (State.modHnd _ _) j _).trans (hdisplaced y)

theorem State.orphan_port (h : Handle) (c : Compl) : (s.orphan h c).ring.port = s.ring.port :=
  (State.keep_port _ h c true).trans (s.notice_port _)

theorem State.unhold_port (kk seq : Nat) : (s.unhold kk seq).ring.port = s.ring.port := by
  unfold State.unhold
  split
  · rfl
  · dsimp only
    split
    · split
      · exact State.orphan_port _ _ _
      · rfl
    · rfl

theorem State.reopen_port (k : Nat) (x : Session) : (s.reopen k x).ring.port = s.ring.port := by
  unfold State.reopen
  split <;> rfl

theorem State.endSession_port (k : Nat) : (s.endSession k).ring.port = s.ring.port := by
  unfold State.endSession
  dsimp only
  refine (State.reopen_port _ k _).trans ?_
  exact foldl_frame (fun u : State => u.ring.port) (fun u (h : Handle) => u.unhold_port h.kk h.seq) _ _

theorem State.tellEarly_port : s.tellEarly.ring.port = s.ring.port := by
  unfold State.tellEarly
  split
  · rfl
  · split
    · exact s.notice_port _
    · exact s.notice_port _
    · rfl

theorem State.pushFrame_port (f : Frame) (done : Option (Nat × Nat)) : (s.pushFrame f done).ring.port = s.ring.port := by
  unfold State.pushFrame
  rw [State.modRing_ring]
  split <;> rfl

theorem State.lineArrives_port (k : Nat) (text : String) : (s.lineArrives k text).ring.port = s.ring.port := by
  unfold State.lineArrives
  dsimp only
  split <;> rfl

theorem State.takeLine_port (src ses : Nat) (text : String) : (s.takeLine src ses text).ring.port = s.ring.port := by
  unfold State.takeLine
  split
  · rfl
  split
  · exact s.lineArrives_port _ _
  split
  · exact State.lineArrives_port _ _ _
  · split
    · exact s.pushFrame_port _ _
    · rfl

end

/-! ### The receive store and HOLD -/

section
variable (r : Ring)

theorem Ring.holdPoints_eq : r.holdPoints = { r with holdOut := r.holdPoints.holdOut } := by
  unfold Ring.holdPoints
  split
  · rfl
  · split <;> rfl

/-- A frame taken in goes to the receive store, and HOLD follows it. -/
theorem Ring.storeTaken_eq (f : Frame) (left : Nat) :
    r.storeTaken f left = { r with rx := (r.storeTaken f left).rx, holdOut := (r.storeTaken f left).holdOut } := by
  unfold Ring.storeTaken
  rw [Ring.holdPoints_eq]

theorem Ring.forward_eq (f : Frame) (left : Nat) :
    r.forward f left = { r with fwd := (r.forward f left).fwd, holdOut := (r.forward f left).holdOut } := by
  unfold Ring.forward
  rw [Ring.holdPoints_eq]

/-- The frames that wait to be forwarded (R305). -/
def Ring.waits (r : Ring) : List Frame := r.fwd.map Fwd.frame

theorem Ring.forward_waits (f : Frame) (left : Nat) : (r.forward f left).waits = r.waits ++ [f] := by
  unfold Ring.waits Ring.forward
  rw [Ring.holdPoints_eq]
  simp

theorem Ring.storeCopied_waits (f : Frame) (left : Nat) : (r.storeCopied f left).waits = r.waits ++ [f] := by
  simp [Ring.waits, Ring.storeCopied]

@[simp] theorem Ring.forward_number (f : Frame) (left : Nat) : (r.forward f left).number = r.number := by rw [Ring.forward_eq]
@[simp] theorem Ring.forward_st (f : Frame) (left : Nat) : (r.forward f left).st = r.st := by rw [Ring.forward_eq]
@[simp] theorem Ring.forward_own (f : Frame) (left : Nat) : (r.forward f left).own = r.own := by rw [Ring.forward_eq]

end

/-! ### Line frames that arrive -/

section
variable {s : State} {k : LineKind} {mark : Bool} {dest src ses : Nat} {text : String} {left : Nat}

/-- Of a wrong line that is not forwarded, or of which nothing has left, only the errors count (R296). -/
theorem State.lineFrame_wrong (hn : textErrors text ≠ 0) (h : (s.lineAct k mark dest src).forwards = false ∨ goodSyms text ≤ left) :
    s.lineFrame k mark dest src ses text left = s.modRing fun r => r.framing (textErrors text) false := by
  have hcut : ((s.lineAct k mark dest src).forwards && decide (left < goodSyms text)) = false := by
    obtain h | h := h
    · rw [h]; rfl
    · simp [h]
  unfold State.lineFrame
  dsimp only
  rw [if_pos hn, hcut]

/-- What has left of a wrong line is ended with ABT (R296). -/
theorem State.lineFrame_cut (hn : textErrors text ≠ 0) (hf : (s.lineAct k mark dest src).forwards = true)
    (hl : left < goodSyms text) :
    s.lineFrame k mark dest src ses text left = s.modRing fun r => r.framing (textErrors text) true := by
  unfold State.lineFrame
  dsimp only
  rw [if_pos hn, hf, decide_eq_true hl]
  rfl

section
variable (hn : textErrors text = 0)
include hn

theorem State.lineFrame_forwarded (ha : s.lineAct k mark dest src = .forwarded) : s.lineFrame k mark dest src ses text left =
    s.modRing fun r => r.forward (k.frame (mark || s.sys.head) dest src ses text) left := by
  simp [State.lineFrame, hn, ha]

theorem State.lineFrame_removed (ha : s.lineAct k mark dest src = .removed) : s.lineFrame k mark dest src ses text left = s := by
  simp [State.lineFrame, hn, ha]

theorem State.lineFrame_looped (ha : s.lineAct k mark dest src = .looped) : s.lineFrame k mark dest src ses text left =
    s.modRing fun r => { r with looped := satInc 65535 r.looped } := by
  simp [State.lineFrame, hn, ha]

theorem State.lineFrame_stale (ha : s.lineAct k mark dest src = .stale) : s.lineFrame k mark dest src ses text left =
    s.modRing fun r => { r with stale := satInc 65535 r.stale } := by
  simp [State.lineFrame, hn, ha]

theorem State.lineFrame_returned (ha : s.lineAct k mark dest src = .returned) : s.lineFrame k mark dest src ses text left =
    let u := s.modRing fun r => { r with returned := satInc 65535 r.returned }
    if k = .sol then u.ignore 0 else u := by
  simp [State.lineFrame, hn, ha]

theorem State.lineFrame_copied (ha : s.lineAct k mark dest src = .copied) : s.lineFrame k mark dest src ses text left =
    (s.modRing fun r => r.storeCopied (k.frame (mark || s.sys.head) dest src ses text) left).takeLine src ses text := by
  simp [State.lineFrame, hn, ha]

theorem State.lineFrame_taken (ha : s.lineAct k mark dest src = .taken) : s.lineFrame k mark dest src ses text left =
    let u := s.modRing fun r => r.storeTaken (k.frame (mark || s.sys.head) dest src ses text) left
    if k = .sor then u.printReply src text else u.takeLine src ses text := by
  simp [State.lineFrame, hn, ha]

end

/-- A broadcast is forwarded, whatever its text brings about here (R301). -/
theorem State.takeLine_waits (s : State) (src ses : Nat) (text : String) : (s.takeLine src ses text).ring.waits = s.ring.waits :=
  (congrArg Ring.waits (s.takeLine_port src ses text) :)

/-- A line of an open session joins those that wait to be run (R109, R122). -/
theorem State.takeLine_known {j : Nat} (hb : blankText text = false) (hup : s.isUp .ring = true) (hj : s.sessionOf src ses = some j) :
    (s.takeLine src ses text).ring.linesIn = s.ring.linesIn ++ [(j, text)] := by
  have hup' : (s.modSes j fun x => { x with lastTick := s.cal.tick }).isUp .ring = true := hup
  simp [State.takeLine, hb, hj, State.lineArrives, hup']

end

section
variable {s : State} (hr : s.sys.inReset = false)
include hr

theorem exec_ringSolFrame (mark : Bool) (dest src ses : Byte) (text : String) (left : Fin 65) :
    exec (.ringSolFrame mark dest src ses text left) s =
      .next (s.lineFrame .sol mark dest.toNat src.toNat ses.toNat text left.val) :=
  onLatch_of_running hr fun s => s.lineFrame .sol mark dest.toNat src.toNat ses.toNat text left.val

theorem exec_ringSobFrame (mark : Bool) (dest src ses : Byte) (text : String) (left : Fin 65) :
    exec (.ringSobFrame mark dest src ses text left) s =
      .next (s.lineFrame .sob mark dest.toNat src.toNat ses.toNat text left.val) :=
  onLatch_of_running hr fun s => s.lineFrame .sob mark dest.toNat src.toNat ses.toNat text left.val

theorem exec_ringSorFrame (mark : Bool) (dest src ses : Byte) (text : String) (left : Fin 65) :
    exec (.ringSorFrame mark dest src ses text left) s =
      .next (s.lineFrame .sor mark dest.toNat src.toNat ses.toNat text left.val) :=
  onLatch_of_running hr fun s => s.lineFrame .sor mark dest.toNat src.toNat ses.toNat text left.val

end

/-! ### Numbers, passes and breaks -/

/-- The number becomes `n`; with it, of a member whose upstream segment is dead, the break position changes (R320, R326, R328). -/
def Ring.numbered (r : Ring) (n : Option Nat) (head : Bool) : Ring :=
  { r with number := n, wasNumbered := r.wasNumbered || n.isSome, event := r.event || (r.upDead && !head) }

section
variable (s : State)

/-- A new number ends the ring sessions and is told; of the ring nothing else changes than what `Ring.numbered` says. -/
theorem State.setNumber_port {n : Option Nat} (h : s.ring.number ≠ n) :
    (s.setNumber n).ring.port = (s.ring.numbered n s.sys.head).port := by
  have hends (u : State) : ((List.range 16).foldl (fun s k => if k ≠ 0 && (s.sesAt k).isOpen then s.endSession k else s) u).ring.port
      = u.ring.port := by
    refine foldl_frame (fun u : State => u.ring.port) (fun u k => ?_) _ u
    split
    · exact u.endSession_port k
    · rfl
  unfold State.setNumber
  rw [if_neg h]
  dsimp only
  split
  · split
    · exact (State.notice_port _ _).trans (hends _)
    · exact hends _
  · exact hends _

theorem State.setNumber_frame (n : Option Nat) : (s.setNumber n).ring.number = n ∧ (s.setNumber n).ring.st = s.ring.st
    ∧ (s.setNumber n).ring.waits = s.ring.waits := by
  by_cases h : s.ring.number = n
  · have hsame : s.setNumber n = s := if_pos h
    rw [hsame]
    exact ⟨h, rfl, rfl⟩
  · have hport := s.setNumber_port h
    exact ⟨congrArg Ring.number hport, (congrArg Ring.st hport :), (congrArg Ring.waits hport :)⟩

/-- A pass that is not full numbers the member, and goes on with NEXT one higher, or full behind the last number (R316). -/
theorem State.enumerate_numbers (pass next : Nat) (ovr : Bool) (left : Nat) :
    (s.enumerate pass next false ovr left).ring.number = some next ∧ (s.enumerate pass next false ovr left).ring.st = .ok
    ∧ (s.enumerate pass next false ovr left).ring.waits = s.ring.waits ++
      [if next = 255 then .enum pass 0 (1 + 2 * bitNat ovr) else .enum pass (next + 1) (2 * bitNat ovr)] := by
  obtain ⟨hnumber, hst, hwaits⟩ := (s.modRing fun r => { r with st := .ok, joining := false }).setNumber_frame (some next)
  unfold State.enumerate
  simp only [Bool.not_false, if_true, State.modRing_ring, Ring.forward_number, Ring.forward_st, Ring.forward_waits]
  exact ⟨hnumber, hst, congrArg (· ++ _) hwaits⟩

/-- A full pass leaves the member without a number, and tells of OVERFLOW (R316, R317). -/
theorem State.enumerate_overflows (pass next : Nat) (ovr : Bool) (left : Nat) :
    (s.enumerate pass next true ovr left).ring.number = none ∧ (s.enumerate pass next true ovr left).ring.st = .overflow
    ∧ (s.enumerate pass next true ovr left).ring.waits = s.ring.waits ++ [.enum pass next 3] := by
  obtain ⟨hnumber, hst, hwaits⟩ := (s.modRing fun r => { r with st := .overflow }).setNumber_frame none
  unfold State.enumerate
  simp only [Bool.not_true, Bool.false_eq_true, if_false, State.modRing_ring, Ring.forward_number, Ring.forward_st, Ring.forward_waits]
  exact ⟨hnumber, hst, congrArg (· ++ _) hwaits⟩

/-- The pass that is out returns: the head holds its count, and OVERFLOW where the pass tells of it (R317). -/
theorem State.passReturns_port {pass next : Nat} (full ovr : Bool) (hout : s.ring.passOut = true) (hpass : pass = s.ring.pass) :
    (s.passReturns pass next full ovr).ring.port = ({ s.ring with
      passOut := false, count := if full then 256 else next, st := if ovr then .overflow else .ok } : Ring).port := by
  have hnotice (u : State) (b : Bool) (t : String) : (if b then u.notice t else u).ring.port = u.ring.port := by
    split
    · exact u.notice_port t
    · rfl
  have hmine : (!s.ring.passOut || !(decide (pass = s.ring.pass)
      || (decide (s.ring.passTry = 2) && decide ((pass + 1) % 256 = s.ring.pass)))) = false := by simp [hout, hpass]
  have hnoted (u : State) (b : Prop) [Decidable b] (t : String) : (if b then u.notice t else u).ring.port = u.ring.port := by
    split
    · exact u.notice_port t
    · rfl
  have hearly := congrArg (fun r : Ring => ({ r with
    passOut := false, count := if full then 256 else next, st := if ovr then .overflow else .ok } : Ring)) s.tellEarly_port
  unfold State.passReturns
  rw [hmine, if_neg Bool.false_ne_true]
  exact (hnoted _ _ _).trans ((hnoted _ _ _).trans hearly)

/-- Whatever stood before, the head's ring is then broken: only the status, the position and EVENT change (R324, R325). -/
theorem State.breaks_port (n : Option Nat) : ∃ (known event : Bool) (after : Nat), (s.breaks n).ring.port =
    ({ s.ring with st := .broken, known := known, event := event, after := after } : Ring).port := by
  unfold State.breaks
  dsimp only
  by_cases h : (decide (s.ring.st = .broken) && decide ((if s.ring.known then some s.ring.after else none) = n)) = true
  · have hst : s.ring.st = .broken := of_decide_eq_true (Bool.and_eq_true_iff.mp h).1
    refine ⟨s.ring.known, s.ring.event, s.ring.after, ?_⟩
    rw [if_pos h, ← hst]
  · refine ⟨n.isSome, true, n.getD 0, ?_⟩
    have hearly := congrArg (fun r : Ring => ({ r with st := .broken, known := n.isSome, after := n.getD 0, event := true } : Ring))
      s.tellEarly_port
    rw [if_neg h]
    split
    · exact (State.notice_port _ _).trans hearly
    · exact hearly

end

/-- A frame of the ring's own is forwarded, or taken in by the head; how much of it is still in the store is free (log 56). -/
def State.leftForwarded (s : State) (f : Frame) : State := s.leftOver.2.modRing fun r => r.forward f s.leftOver.1
def State.leftTaken (s : State) (f : Frame) : State := s.leftOver.2.modRing fun r => r.storeTaken f s.leftOver.1

section
variable (s : State) (f : Frame)

theorem State.leftForwarded_waits : (s.leftForwarded f).ring.waits = s.ring.waits ++ [f] := s.ring.forward_waits f _
theorem State.leftForwarded_own : (s.leftForwarded f).ring.own = s.ring.own := s.ring.forward_own f _

@[simp] theorem State.leftTaken_sys_head : (s.leftTaken f).sys.head = s.sys.head := rfl

theorem State.leftTaken_ring : (s.leftTaken f).ring =
    { s.ring with rx := (s.leftTaken f).ring.rx, holdOut := (s.leftTaken f).ring.holdOut } := s.ring.storeTaken_eq f _

@[simp] theorem State.leftTaken_number : (s.leftTaken f).ring.number = s.ring.number := by rw [State.leftTaken_ring]
@[simp] theorem State.leftTaken_passOut : (s.leftTaken f).ring.passOut = s.ring.passOut := by rw [State.leftTaken_ring]
@[simp] theorem State.leftTaken_pass : (s.leftTaken f).ring.pass = s.ring.pass := by rw [State.leftTaken_ring]
@[simp] theorem State.leftTaken_own : (s.leftTaken f).ring.own = s.ring.own := by rw [State.leftTaken_ring]
@[simp] theorem State.leftTaken_fwd : (s.leftTaken f).ring.fwd = s.ring.fwd := by rw [State.leftTaken_ring]

end

section
variable {s : State}

/-- A pass starts at a head that has none out (R315). -/
theorem State.startPass_of_free (hh : s.sys.head = true) (hp : s.ring.passOut = false) : s.startPass = s.sendPass 1 := by
  rw [State.startPass, hh, hp]
  rfl

theorem State.sendPass_own (s : State) (n : Nat) :
    (s.sendPass n).ring.own = s.ring.own ++ [.enum ((s.ring.pass + 1) % 256) 1 0] := rfl

variable (hr : s.sys.inReset = false)
include hr

theorem exec_ringEnumFrame (pass next : Byte) (full ovr : Bool) : exec (.ringEnumFrame pass next full ovr) s = .next (
    if s.sys.head then
      (s.leftTaken (.enum pass.toNat next.toNat (bitNat full + 2 * bitNat ovr))).passReturns pass.toNat next.toNat full ovr
    else s.leftOver.2.enumerate pass.toNat next.toNat full ovr s.leftOver.1) := by
  change execRingEnumFrame pass next full ovr s = _
  rw [execRingEnumFrame, onLatch_of_running hr]
  rfl

theorem exec_ringJoinFrame :
    exec .ringJoinFrame s = .next (if s.sys.head then (s.leftTaken .join).startPass else s.leftForwarded .join) := by
  change execRingJoinFrame s = _
  rw [execRingJoinFrame, onLatch_of_running hr]
  rfl

theorem exec_ringBrkFrame (reporter : Byte) (numbered : Bool) (hops : Byte) : exec (.ringBrkFrame reporter numbered hops) s = .next (
    if s.sys.head then
      let u := s.leftTaken (.brk reporter.toNat (bitNat numbered) hops.toNat)
      u.breaks (u.ring.reported reporter.toNat numbered hops.toNat)
    else s.leftForwarded (.brk reporter.toNat (bitNat numbered) (satInc 255 hops.toNat))) := by
  change execRingBrkFrame reporter numbered hops s = _
  rw [execRingBrkFrame, onLatch_of_running hr]
  rfl

end

theorem satInc_eq_min (top n : Nat) (h : n ≤ top) : satInc top n = min top (n + 1) := by
  unfold satInc
  split <;> omega

/-- Settles O45: a line frame by what the keeper does with it, the ring's own frames by the side of the head and by that of a member. -/
theorem ringFrames : Obligations.RingFrames := by
  intro s mark b dest src ses pass next hops text left hr waits
  refine ⟨?lines, fun hm => ⟨?numbers, ?overflows, ?joins, ?reports⟩,
    fun hh => ⟨fun hout hpass => ?returns, fun hout => ?asks, ?breaks⟩⟩
  case lines =>
    rintro ⟨k, o⟩ hp f act n counted
    have hexec : o = .next (s.lineFrame k mark dest.toNat src.toNat ses.toNat text left.val) := by
      rw [exec_ringSolFrame hr, exec_ringSobFrame hr, exec_ringSorFrame hr] at hp
      simp only [List.mem_cons, Prod.mk.injEq, List.not_mem_nil, or_false] at hp
      obtain ⟨rfl, rfl⟩ | ⟨rfl, rfl⟩ | ⟨rfl, rfl⟩ := hp <;> rfl
    dsimp only
    rw [hexec]
    refine ⟨fun hn hkept => ?wrong, fun hn hf hl => ⟨fun hhold => ?aborted, fun hhold => ?abortDue⟩, fun hn =>
      ⟨fun ha => ?forwarded, fun ha => ?removed, fun ha => ?looped, fun ha => ?stale, fun ha => ?returned, fun ha => ?copied,
        fun j ha hk hb hup hj => ?taken, fun ha hk => ?printed⟩⟩
    case wrong =>
      rw [State.lineFrame_wrong hn hkept]
      rfl
    case aborted =>
      rw [State.lineFrame_cut hn hf hl, State.modRing, Ring.framing, Ring.abort, if_pos rfl, hhold]
      rfl
    case abortDue =>
      rw [State.lineFrame_cut hn hf hl, State.modRing, Ring.framing, Ring.abort, if_pos rfl, hhold]
      rfl
    case forwarded =>
      rw [State.lineFrame_forwarded hn ha]
      rfl
    case removed => rw [State.lineFrame_removed hn ha]
    case looped =>
      rw [State.lineFrame_looped hn ha]
      rfl
    case stale =>
      rw [State.lineFrame_stale hn ha]
      rfl
    case returned => exact ⟨_, rfl, congrArg _ (State.lineFrame_returned hn ha)⟩
    case copied =>
      refine ⟨_, congrArg _ (State.lineFrame_copied hn ha), ?_⟩
      exact (State.takeLine_waits _ _ _ _).trans (s.ring.storeCopied_waits _ _)
    case taken =>
      have hk' : k ≠ .sor := by rw [show k = .sol from hk]; decide
      have hqueued := State.takeLine_known (s := s.modRing fun r => r.storeTaken f left.val) hb hup hj
      refine ⟨_, congrArg _ ((State.lineFrame_taken hn ha).trans (if_neg hk')), hqueued.trans ?_⟩
      rw [State.modRing_ring, Ring.storeTaken_eq]
    case printed => exact congrArg _ ((State.lineFrame_taken hn ha).trans (if_pos hk))
  case numbers =>
    obtain ⟨hnumber, hst, hwaits⟩ := s.leftOver.2.enumerate_numbers pass.toNat next.toNat b s.leftOver.1
    refine ⟨_, by rw [exec_ringEnumFrame hr, hm, if_neg Bool.false_ne_true], hnumber, hst, ?_⟩
    have hlast : next = 255#8 ↔ next.toNat = 255 := BitVec.toNat_inj.symm
    simp only [hlast]
    exact hwaits
  case overflows =>
    obtain ⟨hnumber, hst, hwaits⟩ := s.leftOver.2.enumerate_overflows pass.toNat next.toNat b s.leftOver.1
    exact ⟨_, by rw [exec_ringEnumFrame hr, hm, if_neg Bool.false_ne_true], hnumber, hst, hwaits⟩
  case joins =>
    exact ⟨_, by rw [exec_ringJoinFrame hr, hm, if_neg Bool.false_ne_true], s.leftForwarded_waits _, s.leftForwarded_own _⟩
  case reports =>
    refine ⟨_, by rw [exec_ringBrkFrame hr, hm, if_neg Bool.false_ne_true], ?_⟩
    rw [satInc_eq_min 255 _ (by omega)]
    exact s.leftForwarded_waits _
  case returns =>
    have hport := State.passReturns_port (s.leftTaken (.enum pass.toNat next.toNat (bitNat false + 2 * bitNat b))) (next := next.toNat)
      false b ((s.leftTaken_passOut _).trans hout) (hpass.trans (s.leftTaken_pass _).symm)
    refine ⟨_, by rw [exec_ringEnumFrame hr, hh, if_pos rfl], (congrArg Ring.passOut hport :), (congrArg Ring.count hport :),
      (congrArg Ring.st hport :), ?_⟩
    exact (congrArg Ring.number hport :).trans (s.leftTaken_number _)
  case asks =>
    have hstart : (s.leftTaken .join).startPass = _ := State.startPass_of_free hh ((s.leftTaken_passOut _).trans hout)
    refine ⟨_, by rw [exec_ringJoinFrame hr, hh, if_pos rfl, hstart], rfl, ?_⟩
    rw [State.sendPass_own, State.leftTaken_own, State.leftTaken_pass]
  case breaks =>
    obtain ⟨known, event, after, hport⟩ := State.breaks_port (s.leftTaken (.brk src.toNat (bitNat b) hops.toNat))
      ((s.leftTaken (.brk src.toNat (bitNat b) hops.toNat)).ring.reported src.toNat b hops.toNat)
    refine ⟨_, by rw [exec_ringBrkFrame hr, hh, if_pos rfl], (congrArg Ring.st hport :), ?_⟩
    exact (congrArg Ring.fwd hport :).trans (s.leftTaken_fwd _)

/-! ### What a keeper sends of itself -/

/-- `t` is reached from `s` with the frame `f` among the keeper's own, and nothing new to forward (R309). -/
def State.SentOwn (s t : State) (f : Frame) : Prop := t.ring.own = s.ring.own ++ [f] ∧ t.ring.fwd = s.ring.fwd

section
variable (s : State)

theorem State.sendPass_sent (n : Nat) : s.SentOwn (s.sendPass n) (.enum ((s.ring.pass + 1) % 256) 1 0) := ⟨rfl, rfl⟩

theorem State.report_sent : s.SentOwn s.report (.brk (s.ring.number.getD 0) (bitNat s.ring.number.isSome) 0) := ⟨rfl, rfl⟩

/-- The upstream segment has died (R322). -/
def State.upstreamDies (s : State) : State :=
  let u := (s.modRing fun r => { r with upDead := true }).report
  if s.sys.head then u.breaks (u.ring.backFrom 1) else u.modRing fun r => { r with event := true }

/-- A dead upstream segment is reported (R323), and breaks the ring of a head, or the position of a member (R324, R328). -/
theorem State.upstreamDies_spec : s.SentOwn s.upstreamDies (.brk (s.ring.number.getD 0) (bitNat s.ring.number.isSome) 0)
    ∧ s.upstreamDies.ring.upDead = true ∧ (s.sys.head = true → s.upstreamDies.ring.st = .broken)
    ∧ (s.sys.head = false → s.upstreamDies.ring.event = true) := by
  unfold State.upstreamDies
  cases hh : s.sys.head with
  | true =>
    obtain ⟨known, event, after, hport⟩ := State.breaks_port (s.modRing fun r => { r with upDead := true }).report
      ((s.modRing fun r => { r with upDead := true }).report.ring.backFrom 1)
    exact ⟨⟨(congrArg Ring.own hport :), (congrArg Ring.fwd hport :)⟩, (congrArg Ring.upDead hport :),
      fun _ => (congrArg Ring.st hport :), fun h => absurd h (by decide)⟩
  | false => exact ⟨⟨rfl, rfl⟩, rfl, fun h => absurd h (by decide), fun _ => rfl⟩

/-- Where the second try of a pass does not return, the ring is broken (R318). -/
def State.passLost (s : State) : State :=
  let u := s.modRing fun r => { r with passOut := false }
  if u.ring.upDead then u.breaks (u.ring.backFrom 1) else if u.ring.st = .broken then u else u.breaks none

theorem State.passLost_spec : s.passLost.ring.passOut = false ∧ s.passLost.ring.st = .broken := by
  have hbreaks (n : Option Nat) : ((s.modRing fun r => { r with passOut := false }).breaks n).ring.passOut = false
      ∧ ((s.modRing fun r => { r with passOut := false }).breaks n).ring.st = .broken := by
    obtain ⟨known, event, after, hport⟩ := State.breaks_port (s.modRing fun r => { r with passOut := false }) n
    exact ⟨(congrArg Ring.passOut hport :), (congrArg Ring.st hport :)⟩
  unfold State.passLost
  dsimp only
  split
  · exact hbreaks _
  · split
    next hst => exact ⟨rfl, hst⟩
    next => exact hbreaks _

end

section
variable {s : State} (hr : s.sys.inReset = false)
include hr

theorem exec_rngEnumWrite : exec .rngEnumWrite s = .next s.startPass := onLatch_of_running hr State.startPass

theorem exec_enumBrokenRetry : exec .enumBrokenRetry s = .next (if s.ring.st = .broken then s.startPass else s) :=
  onLatch_of_running hr fun s => if s.ring.st = .broken then s.startPass else s

theorem exec_enumPassTimeout (hh : s.sys.head = true) (hout : s.ring.passOut = true) :
    exec .enumPassTimeout s = .next (if s.ring.passTry = 1 then s.sendPass 2 else s.passLost) := by
  change execEnumPassTimeout s = _
  rw [execEnumPassTimeout, onLatch_of_running hr, hh, hout]
  rfl

theorem exec_joinRepeat : exec .joinRepeat s = .next (if s.ring.joining then s.sendOwn .join else s) :=
  onLatch_of_running hr fun s => if s.ring.joining then s.sendOwn .join else s

theorem exec_upstreamDead : exec .upstreamDead s = .next (if s.ring.upDead || s.ring.holdOut then s else s.upstreamDies) := by
  change execUpstreamDead s = _
  rw [execUpstreamDead, onLatch_of_running hr]
  rfl

theorem exec_breakReportRepeat : exec .breakReportRepeat s = .next (if s.ring.upDead then s.report else s) :=
  onLatch_of_running hr fun s => if s.ring.upDead then s.report else s

end

/-! ### The ring port -/

section
variable {r : Ring}

/-- ABT ends what has been forwarded, at once or at the release of HOLD (R296, R312). -/
theorem Ring.abort_eq (r : Ring) (forwarded : Bool) : r.abort forwarded =
    if forwarded = false then r else if r.holdIn = true then { r with abtDue := true }
    else { r with aborts := r.aborts + 1, ctlOut := some symAbt, abtDue := false } := by
  cases forwarded <;> rfl

theorem Ring.setHold_of_keeps {hold : Bool} (h : hold = true ∨ r.abtDue = false) : r.setHold hold = { r with holdIn := hold } := by
  have hno : (!hold && r.abtDue) = false := by
    obtain h | h := h
    · rw [h]; rfl
    · rw [h, Bool.and_false]
  rw [Ring.setHold, hno, if_neg Bool.false_ne_true]

theorem Ring.setHold_releases (h : r.abtDue = true) : r.setHold false = { r.sendAbt with holdIn := false } := by
  rw [Ring.setHold, h]
  rfl

/-! HOLD between its two points (R311). -/

theorem Ring.holdPoints_low (h : r.fill ≤ 16) : r.holdPoints.holdOut = false := by
  rw [Ring.holdPoints, if_neg (by omega), if_pos h]

theorem Ring.holdPoints_high (h : 48 ≤ r.fill) : r.holdPoints.holdOut = true := by rw [Ring.holdPoints, if_pos h]

theorem Ring.holdPoints_between (hl : 16 < r.fill) (hh : r.fill < 48) : r.holdPoints.holdOut = r.holdOut := by
  rw [Ring.holdPoints, if_neg (by omega), if_neg (by omega)]

theorem Ring.readRx_nil (h : r.rx = []) : r.readRx = r := by
  rw [Ring.readRx, h]
  rfl

theorem Ring.readRx_cons {x : BitVec 9} {l : List (BitVec 9)} (h : r.rx = x :: l) :
    r.readRx = ({ r with rx := l, fwd := r.fwd.map Fwd.read } : Ring).holdPoints := by
  rw [Ring.readRx, h]
  rfl

/-! The lines that the keeper may send are those of its insertion queue, while it holds a number (R303). -/

theorem Ring.ours_of_none (h : r.number = none) : r.ours = [] := by
  rw [Ring.ours, h]
  rfl

theorem Ring.ours_of_some {n : Nat} (h : r.number = some n) : r.ours = r.insq := by
  rw [Ring.ours, h]
  rfl

theorem Ring.ours_eq_nil (h : r.insq = [] ∨ r.number = none) : r.ours = [] := by
  obtain h | h := h
  · rw [Ring.ours, h, ite_self]
  · exact Ring.ours_of_none h

theorem Ring.sendForward_eq (r : Ring) (f : Fwd) : r.sendForward f =
    { r with fwd := r.fwd.drop 1, tx := some f.frame, holdOut := (r.sendForward f).holdOut
             lastLocal := if f.frame.isLine then some false else r.lastLocal } := by
  unfold Ring.sendForward
  rw [Ring.holdPoints_eq]

/-! What LC writes (R310, R329). -/

section
variable {sym : BitVec 9} (hd : r.discard = false)
include hd

theorem Ring.writeTx_full (h : 2048 ≤ r.insUsed) :
    r.writeTx sym = { r with build := [], discard := sym ≠ ctlSym 4 false } := by
  rw [Ring.writeTx, hd]
  simp [h]

section
variable (hu : r.insUsed < 2048) (hl : r.build.getLast? ≠ some (ctlSym 4 false))
include hu hl

theorem Ring.writeTx_symbol (h : sym ≠ ctlSym 4 false) : r.writeTx sym = { r with build := r.build ++ [sym] } := by
  simp [Ring.writeTx, hd, hl, h, Nat.not_le.mpr hu]

theorem Ring.writeTx_eol (h : sym = ctlSym 4 false) (hb : r.build.length ≤ 204) :
    r.writeTx sym = { r with build := [], insq := r.insq ++ [.raw (r.build ++ [sym])] } := by
  have hshort : ¬ 205 < r.build.length + 1 := by omega
  simp [Ring.writeTx, hd, hl, h, Nat.not_le.mpr hu, hshort]

end
end
end

/-! ### The transmitter's choice -/

section
variable {s : State}

/-- Where nothing waits for room and nothing for a result, room in the insertion queue brings nothing about. -/
theorem State.ringRoom_of_idle (hw : s.ring.wait = []) (hd : s.sys.due = []) : s.ringRoom = s := by
  simp [State.ringRoom, hw, State.takeIn, State.dueRuns, hd]

theorem State.txStart_held (h : s.ring.holdIn = true) : s.txStart = s := by rw [State.txStart, if_pos h]

theorem State.txStart_none (ho : s.ring.own = []) (hf : s.ring.fwd = []) (hn : s.ring.number = none) : s.txStart = s := by
  rw [State.txStart, ho, hf, Ring.ours_of_none hn, ite_self]

section
variable (hh : s.ring.holdIn = false)
include hh

theorem State.txStart_own {f : Frame} {l : List Frame} (h : s.ring.own = f :: l) :
    s.txStart = s.modRing fun r => { r with own := l, tx := some f } := by
  rw [State.txStart, hh, h]
  rfl

/-- A forwarded frame goes after a local line, or where no local one may (R303, R309). -/
theorem State.txStart_forwards (ho : s.ring.own = []) {f : Fwd} {l : List Fwd} (hf : s.ring.fwd = f :: l)
    (h : s.ring.lastLocal = some true ∨ s.ring.number = none) : s.txStart = s.modRing fun r => r.sendForward f := by
  rw [State.txStart, hh, ho, hf, if_neg Bool.false_ne_true]
  obtain h | h := h
  · rw [h]
    cases s.ring.ours <;> rfl
  · rw [Ring.ours_of_none h]

/-- A local line goes after a forwarded one (R309). -/
theorem State.txStart_local (ho : s.ring.own = []) {f : Fwd} {l : List Fwd} (hf : s.ring.fwd = f :: l) {g : Frame} {m : List Frame}
    (hi : s.ring.insq = g :: m) {n : Nat} (hn : s.ring.number = some n) (h : s.ring.lastLocal = some false) :
    s.txStart = s.sendLocal g := by
  rw [State.txStart, hh, ho, hf, Ring.ours_of_some hn, hi, h]
  rfl

end

/-- The line that goes carries the number that the keeper holds then (R303, log 110). -/
theorem State.sendLocal_of_idle (hw : s.ring.wait = []) (hd : s.sys.due = []) (g : Frame) : s.sendLocal g = s.modRing fun r =>
    { r with insq := r.insq.drop 1, tx := some (g.sentBy (r.number.getD 0)), lastLocal := some true } :=
  State.ringRoom_of_idle
    (s := s.modRing fun r => { r with insq := r.insq.drop 1, tx := some (g.sentBy (r.number.getD 0)), lastLocal := some true }) hw hd

theorem State.writeTx_of_idle {sym : BitVec 9} {r : Ring} (h : s.ring.writeTx sym = r) (hw : r.wait = []) (hd : s.sys.due = []) :
    s.writeTx sym = { s with ring := r } := by
  rw [State.writeTx, State.modRing, h]
  exact State.ringRoom_of_idle hw hd

variable (hr : s.sys.inReset = false)
include hr

theorem exec_ringFramingError (b : Bool) : exec (.ringFramingError b) s = .next (s.modRing fun r => r.framing 1 b) :=
  onLatch_of_running hr fun s => s.modRing fun r => r.framing 1 b

theorem exec_ringAbt (b : Bool) : exec (.ringAbt b) s = .next (s.modRing fun r => r.abort b) :=
  onLatch_of_running hr fun s => s.modRing fun r => r.abort b

theorem exec_ringOverrun (b : Bool) : exec (.ringOverrun b) s = .next (s.modRing fun r =>
    if r.fill < 64 then r else { r with overrun := satInc 65535 r.overrun }.abort b) := by
  change execRingOverrun b s = _
  rw [execRingOverrun, onLatch_of_running hr]

theorem exec_ringHoldInput (b : Bool) : exec (.ringHoldInput b) s = .next (s.modRing fun r => r.setHold b) :=
  onLatch_of_running hr fun s => s.modRing fun r => r.setHold b

theorem exec_ringTxFrameStart : exec .ringTxFrameStart s = .next s.txStart := onLatch_of_running hr State.txStart

theorem exec_idleSymbol : exec .idleSymbol s = .next (s.modRing fun r =>
    if r.holdIn || !r.own.isEmpty || !r.fwd.isEmpty || !r.ours.isEmpty then r
    else { r with idles := r.idles + 1, ctlOut := some symIdle }) := by
  change execIdleSymbol s = _
  rw [execIdleSymbol, onLatch_of_running hr]

theorem exec_rngRxRead : exec .rngRxRead s = .next (s.modRing Ring.readRx) := onLatch_of_running hr fun s => s.modRing Ring.readRx

theorem exec_rngTxSymbol (sym : BitVec 9) : exec (.rngTxSymbol sym) s = .next (s.writeTx sym) :=
  onLatch_of_running hr fun s => s.writeTx sym

theorem exec_rngTxCancel : exec .rngTxCancel s = .next s.cancelTx := onLatch_of_running hr State.cancelTx

end

/-- Settles O46: what a keeper sends of itself by the events that make it do so, and the port by what its symbols, HOLD, the
transmitter and LC do. -/
theorem ringItself : Obligations.RingItself := by
  refine ⟨?itself, ?port⟩
  case itself =>
    intro s hr sent
    refine ⟨fun hh hout => ⟨?asked, fun hst => ?retried⟩, fun h => ?ignored, fun hh hout => ⟨fun htry => ?again, fun htry => ?lost⟩,
      fun hj => ?join, fun hj => ?joined, fun hup hhold => ?dies, fun hup => ?repeats, ?alive⟩
    case asked => exact ⟨_, (exec_rngEnumWrite hr).trans (congrArg _ (State.startPass_of_free hh hout)), s.sendPass_sent 1⟩
    case retried =>
      refine ⟨_, ?_, s.sendPass_sent 1⟩
      rw [exec_enumBrokenRetry hr, if_pos hst, State.startPass_of_free hh hout]
    case ignored =>
      have hno : (s.sys.head && !s.ring.passOut) = false := by
        obtain h | h := h
        · rw [h]; rfl
        · simp [h]
      rw [exec_rngEnumWrite hr, State.startPass, hno, if_neg Bool.false_ne_true]
    case again => exact ⟨_, (exec_enumPassTimeout hr hh hout).trans (congrArg _ (if_pos htry)), s.sendPass_sent 2⟩
    case lost =>
      have htry' : s.ring.passTry ≠ 1 := by omega
      exact ⟨_, (exec_enumPassTimeout hr hh hout).trans (congrArg _ (if_neg htry')), s.passLost_spec⟩
    case join => exact ⟨_, (exec_joinRepeat hr).trans (congrArg _ (if_pos hj)), rfl, rfl⟩
    case joined => rw [exec_joinRepeat hr, hj, if_neg Bool.false_ne_true]
    case dies =>
      have hexec : exec .upstreamDead s = .next s.upstreamDies := by rw [exec_upstreamDead hr, hup, hhold]; rfl
      obtain ⟨hsent, hrest⟩ := s.upstreamDies_spec
      exact ⟨⟨_, hexec, hsent⟩, _, hexec, hrest⟩
    case repeats => exact ⟨_, (exec_breakReportRepeat hr).trans (congrArg _ (if_pos hup)), s.report_sent⟩
    case alive => exact onLatch_of_running hr fun s => s.modRing fun r => { r with upDead := false }
  case port =>
    intro s b sym hr r held ended
    refine ⟨?framing, ?abt, ?overrun, fun h => ?hold, fun h => ?release, ?bypass, fun h => ?txHeld, fun hh f l h => ?txOwn,
      fun hh ho f g l m hf hi => ⟨fun h => ?txForward, fun n hn h hw hd => ?txLocal⟩, fun ho hf hn => ?txNone,
      fun hh ho hf hi => ?idle, fun h => ?rxEmpty, fun x l h => ?rxRead, fun hw hd => ⟨fun hdis hu hl => ⟨fun h => ?symbol,
      fun h hb => ?eol⟩, fun hdis hu => ?full, ?cancel⟩⟩
    case framing => rw [exec_ringFramingError hr, State.modRing, Ring.framing, Ring.abort_eq]; rfl
    case abt => rw [exec_ringAbt hr, State.modRing, Ring.abort_eq]
    case overrun =>
      rw [exec_ringOverrun hr, State.modRing, Ring.abort_eq]
      by_cases h : s.ring.fill < 64
      · rw [if_pos h]; exact congrArg _ (if_pos h).symm
      · rw [if_neg h]; exact congrArg _ (if_neg h).symm
    case hold => rw [exec_ringHoldInput hr, State.modRing, Ring.setHold_of_keeps h]
    case release => rw [exec_ringHoldInput hr, State.modRing, Ring.setHold_releases h]; rfl
    case bypass => exact onLatch_of_running hr fun s => s.modRing fun r => { r with bypass := b }
    case txHeld => rw [exec_ringTxFrameStart hr, State.txStart_held h]
    case txOwn => rw [exec_ringTxFrameStart hr, State.txStart_own hh h]; rfl
    case txForward =>
      refine ⟨_, (exec_ringTxFrameStart hr).trans (congrArg _ (State.txStart_forwards hh ho hf h)), ?_⟩
      rw [State.modRing_ring, Ring.sendForward_eq]
      exact ⟨rfl, congrArg (List.drop 1) hf, rfl, rfl⟩
    case txLocal =>
      refine ⟨_, (exec_ringTxFrameStart hr).trans (congrArg _ (State.txStart_local hh ho hf hi hn h)), ?_⟩
      rw [State.sendLocal_of_idle hw hd]
      exact ⟨congrArg (fun x : Option Nat => some (g.sentBy (x.getD 0))) hn, rfl, congrArg (List.drop 1) hi, rfl⟩
    case txNone => rw [exec_ringTxFrameStart hr, State.txStart_none ho hf hn]
    case idle =>
      rw [exec_idleSymbol hr, State.modRing, hh, ho, hf, Ring.ours_eq_nil hi]
      rfl
    case rxEmpty => rw [exec_rngRxRead hr, State.modRing, Ring.readRx_nil h]
    case rxRead =>
      refine ⟨_, exec_rngRxRead hr, ?_⟩
      rw [State.modRing_ring, Ring.readRx_cons h]
      have hkept := Ring.holdPoints_eq { s.ring with rx := l, fwd := s.ring.fwd.map Fwd.read }
      exact ⟨(congrArg Ring.rx hkept :), (congrArg Ring.fwd hkept :), fun h => Ring.holdPoints_low h, fun h => Ring.holdPoints_high h,
        fun hl hh => Ring.holdPoints_between hl hh⟩
    case symbol => rw [exec_rngTxSymbol hr, State.writeTx_of_idle (Ring.writeTx_symbol hdis hu hl h) hw hd]
    case eol => rw [exec_rngTxSymbol hr, State.writeTx_of_idle (Ring.writeTx_eol hdis hu hl h hb) hw hd]
    case full => rw [exec_rngTxSymbol hr, State.writeTx_of_idle (Ring.writeTx_full hdis hu) hw hd]
    case cancel => exact (exec_rngTxCancel hr).trans (congrArg _ (State.ringRoom_of_idle hw hd))

end Sys2Proof.Machine

namespace Sys2Proof.Machine

/-! ### The write of a calendar line (R363)

Whether the line reads back after its write turns on the furrow's canonical form (part of `State.memOk`, which every step from reset
keeps): there it does; in a furrow that lists an address twice, it need not. -/

@[simp] theorem length_padBytes (n : Nat) (l : List Byte) : (padBytes n l).length = n := by simp [padBytes]

theorem exec_calendarSave (s : State) (verified : Bool) : exec (.calendarSave verified) s = .next (s.calendarSave verified) := rfl

section
variable {s : State} (hdue : s.cal.saveDue = true) (hfree : s.lineFree = true)
include hdue hfree

/-- Verified, a due save stores the next calendar line, and nothing else, in the furrow. -/
theorem State.calendarSave_mem : (s.calendarSave true).fur.mem = Mem.puts zeroByte s.fur.mem (s.cal.saveLine * 64)
    (padBytes 64 (calBytes ((s.cal.saveSeq + 1) % pow32) s.cal.tick)) := by
  simp [State.calendarSave, hdue, hfree, State.calSaved, State.furCount, State.furStore, State.modCal]

/-- In canonical memories the line then reads as the calendar's bytes. -/
theorem State.calendarSave_gets (hm : s.memOk) : Mem.gets zeroByte (s.calendarSave true).fur.mem (s.cal.saveLine * 64) 64
    = padBytes 64 (calBytes ((s.cal.saveSeq + 1) % pow32) s.cal.tick) := by
  obtain ⟨-, -, -, -, -, -, hfur, -⟩ := hm
  have hgets := Mem.gets_puts zeroByte (padBytes 64 (calBytes ((s.cal.saveSeq + 1) % pow32) s.cal.tick)) s.fur.mem
    (s.cal.saveLine * 64) hfur
  rw [length_padBytes] at hgets
  rw [State.calendarSave_mem hdue hfree, hgets]

end

/-- A save of calendar line A is due; the furrow's data lists the line's second byte, which R382 holds 0, twice, as 1. -/
def calendarListedTwice : State :=
  (State.reset.modCal fun c => { c with saveDue := true }).modFur fun f => { f with mem := [(3008 * 64 + 1, 1#8), (3008 * 64 + 1, 1#8)] }

theorem calendarListedTwice_saves : calendarListedTwice.sys.inReset = false ∧ calendarListedTwice.cal.saveDue = true
    ∧ calendarListedTwice.lineFree = true := by decide +kernel

/-- Storing the line's 0 takes away one of the two entries, and the furrow still reads 1 there. -/
theorem calendarListedTwice_readsOld :
    Mem.gets zeroByte (Mem.puts zeroByte calendarListedTwice.fur.mem (calendarListedTwice.cal.saveLine * 64)
        (padBytes 64 (calBytes ((calendarListedTwice.cal.saveSeq + 1) % pow32) calendarListedTwice.cal.tick)))
      (calendarListedTwice.cal.saveLine * 64) 64
    ≠ padBytes 64 (calBytes ((calendarListedTwice.cal.saveSeq + 1) % pow32) calendarListedTwice.cal.tick) := by decide +kernel

/-- Refutes O53, by its clause of the calendar's save: the statement ranges over every state, and not only over those that meet
`State.memOk`. In `calendarListedTwice`, whose furrow is not in canonical form, a verified save does not leave the count in its line.
With `memOk` the clause holds (`State.calendarSave_gets`). -/
theorem not_calendarAndLedger : ¬ Obligations.CalendarAndLedger := by
  intro h
  obtain ⟨hr, hdue, hfree⟩ := calendarListedTwice_saves
  obtain ⟨-, -, -, -, hsave, -⟩ := h calendarListedTwice 0 0 0 hr
  obtain ⟨u, hexec, -, -, -, hgets⟩ := hsave hdue hfree
  have hu : calendarListedTwice.calendarSave true = u :=
    Host.Outcome.next.inj ((exec_calendarSave calendarListedTwice true).symm.trans hexec)
  rw [← hu, State.calendarSave_mem hdue hfree] at hgets
  exact calendarListedTwice_readsOld hgets

end Sys2Proof.Machine

/-! SUPPORT. The statement of the bays' states: transitions, trips and bay items. What an operation makes of its bay is said once, by a
lemma about that bay (`State.bayDown_bayAt`, `State.enterStarting_bayAt`, `State.trip_tripped`). -/

namespace Sys2Proof.Machine

/-! ### What channels, posts and served items leave -/

@[simp] theorem Bay.rail_modRail (b : Bay) (r : Rail) (f : RailSt → RailSt) : (b.modRail r f).rail r = f (b.rail r) := by cases r <;> rfl
@[simp] theorem Bay.modRail_trips (b : Bay) (r : Rail) (f : RailSt → RailSt) : (b.modRail r f).trips = b.trips := by cases r <;> rfl

section
variable (s : State)

@[simp] theorem State.modEnv_bayAt (f : Env → Env) (n : Nat) : (s.modEnv f).bayAt n = s.bayAt n := rfl
@[simp] theorem State.draw_bayAt (n : Nat) : s.draw.2.bayAt n = s.bayAt n := rfl
@[simp] theorem State.notice_bayAt (t : String) (n : Nat) : (s.notice t).bayAt n = s.bayAt n := by rw [State.notice_eq]; rfl
@[simp] theorem State.notice_env (t : String) : (s.notice t).env = s.env := by rw [State.notice_eq]

/-- A post of hardware touches the Sower only (R634). -/
theorem State.hwPost_eq (q : Nat) (c : Claimant) (w : List Word) : s.hwPost q c w = { s with sow := (s.hwPost q c w).sow } := by
  unfold State.hwPost
  split
  · unfold State.visible State.raised
    split <;> rfl
  · rfl

@[simp] theorem State.hwPost_bayAt (q : Nat) (c : Claimant) (w : List Word) (n : Nat) : (s.hwPost q c w).bayAt n = s.bayAt n := by
  rw [State.hwPost_eq]
  rfl

@[simp] theorem State.hwPost_locked (q : Nat) (c : Claimant) (w : List Word) (n : Nat) : (s.hwPost q c w).locked n = s.locked n := by
  rw [State.hwPost_eq]
  rfl

/-- An item that keeper firmware serves leaves the store, and its dispatch and its end enter the trace (R643). -/
theorem State.serveItem_eq (it : Item) :
    s.serveItem it = { s with sys := { s.sys with draws := (s.serveItem it).sys.draws }, sow := (s.serveItem it).sow } := by
  rw [State.serveItem, State.endItem, State.trace_eq, State.takeUpItem, State.trace_eq]
  split <;> rfl

theorem State.serveItem_store (it : Item) : (s.serveItem it).sow.store = removeAge it.age s.sow.store := by
  rw [State.serveItem, State.endItem, State.trace_eq, State.takeUpItem, State.trace_eq]
  split <;> rfl

theorem State.serveBayKeys_fieldUp (n : Nat) : (s.serveBayKeys n).sys.fieldUp = s.sys.fieldUp := by
  unfold State.serveBayKeys
  split
  · rfl
  · exact foldl_frame (fun u : State => u.sys.fieldUp) (fun u it => by rw [State.serveItem_eq]) _ s

end

/-! ### Transitions (R412, R413) -/

section
variable {s : State} {n : Nat}

theorem State.bayDown_bayAt (hn : n < 96) (st : BState) : (s.bayDown n st).bayAt n = (s.bayAt n).turnOff st := by
  rw [State.bayDown, State.showTag_bayAt, State.bayAt_modBay_self _ _ _ hn]
  rfl

/-- A bay that goes down leaves the release queue and the start order (R435, R436). -/
theorem State.bayDown_orders (n : Nat) (st : BState) : n ∉ (s.bayDown n st).env.heldQ ∧ n ∉ (s.bayDown n st).env.order := by
  rw [State.bayDown, State.showTag_env]
  simp [State.leaveOrders]

/-- The rail as STARTING begins: its BLANK window runs unless it is 0 (R402, R403). -/
def RailSt.starting (r : RailSt) : RailSt := { r with blankRun := r.work.blank ≠ 0, slowCount := 0, good := false }

theorem State.enterStarting_bayAt (hn : n < 96) : (s.enterStarting n).bayAt n =
    { s.bayAt n with st := .starting, main := (s.bayAt n).main.starting, aux := (s.bayAt n).aux.starting, measure := some s.cal.tick
                     points := [], startTick := some s.cal.tick } := by
  rw [State.enterStarting, State.showTag_bayAt]
  exact State.bayAt_modBay_self _ _ _ hn

theorem State.enterStarting_order : (s.enterStarting n).env.order.head? = some n := by
  rw [State.enterStarting, State.showTag_env]
  rfl

theorem State.bayStart_refused (h : s.startLegal n = false) : s.bayStart n = s.cmdRejected n := by
  rw [State.bayStart, h]
  rfl

theorem State.bayStart_starts (h : s.startLegal n = true) (hg : s.guardHolding = false) : s.bayStart n = s.enterStarting n := by
  rw [State.bayStart, h, hg]
  rfl

theorem State.bayStart_held (hn : n < 96) (h : s.startLegal n = true) (hg : s.guardHolding = true) :
    ((s.bayStart n).bayAt n).st = .held ∧ (s.bayStart n).env.heldQ = s.env.heldQ ++ [n] := by
  rw [State.bayStart, h, hg, Bool.not_true, if_neg Bool.false_ne_true, if_pos rfl, State.showTag_bayAt, State.modEnv_bayAt,
    State.bayAt_modBay_self _ _ _ hn, State.showTag_env]
  exact ⟨rfl, rfl⟩

theorem State.bayStop_refused (h : (s.bayAt n).st = .empty ∨ (s.bayAt n).st = .presentOff ∨ (s.bayAt n).st = .stopping
    ∨ (s.bayAt n).st = .locked) : s.bayStop n = s.cmdRejected n := by
  unfold State.bayStop
  rcases h with h | h | h | h <;> rw [h]

/-- Both gates have fallen (R397). -/
def Bay.gatesLow (b : Bay) : Bay := { b with main := b.main.off, aux := b.aux.off }

/-- The fall of the gates ends STOPPING, by the PRESENT key (R412). -/
theorem State.gatesDown_ends (hn : n < 96) (h : (s.bayAt n).st = .stopping) : ∃ u : State, s.gatesDown n = u.settle
    ∧ u.bayAt n = { (s.bayAt n).gatesLow with st := s.restingState n } := by
  refine ⟨_, if_pos ?_, ?_⟩
  · rw [State.bayAt_modBay_self _ _ _ hn, h]
  · rw [State.showTag_bayAt, State.bayAt_modBay_self _ _ _ hn, State.bayAt_modBay_self _ _ _ hn]
    rfl

theorem State.gatesDown_stays (hn : n < 96) (h : (s.bayAt n).st ≠ .stopping) : s.gatesDown n = s.modBay n Bay.gatesLow := by
  refine if_neg ?_
  rw [State.bayAt_modBay_self _ _ _ hn]
  exact h

/-- The turn to ON changes no rail. -/
theorem State.checkOn_rail (hn : n < 96) (rail : Rail) : ((s.checkOn n).bayAt n).rail rail = (s.bayAt n).rail rail := by
  unfold State.checkOn
  dsimp only
  split
  · rw [State.showTag_bayAt, State.bayAt_modBay_self _ _ _ hn]
    cases rail <;> rfl
  · rfl

/-- The bay has all that STARTING waits for (R412). -/
def Bay.started (b : Bay) : Prop :=
  b.st = .starting ∧ b.main.good = true ∧ b.aux.good = true ∧ b.main.blankRun = false ∧ b.aux.blankRun = false

theorem State.checkOn_on (hn : n < 96) (h : (s.bayAt n).started) : ((s.checkOn n).bayAt n).st = .on := by
  obtain ⟨hst, hmg, hag, hmb, hab⟩ := h
  rw [State.checkOn, if_pos (by simp [hst, hmg, hag, hmb, hab]), State.showTag_bayAt, State.bayAt_modBay_self _ _ _ hn]

/-- The rail with its BLANK window ended and its FAST comparator not over (R402). -/
def RailSt.unblanked (r : RailSt) : RailSt := { r with blankRun := false, fastOver := false }

/-- The end of BLANK while FAST does not read over trips nothing (R402). -/
theorem State.blankEnd_quiet (hn : n < 96) {rail : Rail} (hb : ((s.bayAt n).rail rail).blankRun = true)
    (hf : ((s.bayAt n).rail rail).fastOver = false) : ∃ u : State, s.blankEnd n rail = (u.checkOn n).settle
      ∧ u.bayAt n = (s.bayAt n).modRail rail RailSt.unblanked := by
  refine ⟨(s.modBay n fun b => b.modRail rail fun r => { r with blankRun := false }).modBay n fun b =>
    b.modRail rail fun r => { r with fastOver := false }, ?_, ?_⟩
  · simp [State.blankEnd, hb, hf, hn]
  · rw [State.bayAt_modBay_self _ _ _ hn, State.bayAt_modBay_self _ _ _ hn]
    cases rail <;> rfl

theorem Bay.started_unblanked {b : Bay} {rail : Rail} (hst : b.st = .starting) (hmg : b.main.good = true) (hag : b.aux.good = true)
    (hb : (b.rail rail).blankRun = true) (ho : b.main.blankRun = false ∨ b.aux.blankRun = false) :
    (b.modRail rail RailSt.unblanked).started := by
  cases rail with
  | main => exact ⟨hst, hmg, hag, rfl, ho.resolve_left (ne_false_of_eq_true hb)⟩
  | aux => exact ⟨hst, hmg, hag, ho.resolve_right (ne_false_of_eq_true hb), rfl⟩

/-! ### Trips (R402 to R407) -/

/-- `v` is what a trip decision of cause `c` makes of `s`: the bay is TRIPPED, and the items in service look at it. -/
def State.Tripped (s : State) (n c : Nat) (rail : Rail) (v : State) : Prop :=
  ∃ u : State, v = (u.noteTrip n).settle ∧ (u.bayAt n).st = .tripped ∧ (u.bayAt n).tripCause = c ∧ (u.bayAt n).tripRail = rail
    ∧ (u.bayAt n).tripEv = true ∧ (u.bayAt n).trips = satInc 65535 (s.bayAt n).trips ∧ n ∉ u.env.order

/-- A trip decision on a driven bay trips it, also where its comparators have changed on the way from `s` to `t`. -/
theorem State.trip_tripped {t : State} (hn : n < 96) (hd : (t.bayAt n).st.driven = true) (ht : (t.bayAt n).trips = (s.bayAt n).trips)
    (c : Nat) (rail : Rail) : s.Tripped n c rail (t.trip n c rail) := by
  refine ⟨_, if_neg (by rw [hd]; exact Bool.false_ne_true), ?_⟩
  rw [State.notice_bayAt, State.bayAt_modBay_self _ _ _ hn, State.bayDown_bayAt hn, State.notice_env, State.modBay_env, ← ht]
  exact ⟨rfl, rfl, rfl, rfl, rfl, (State.bayDown_orders n _).2⟩

theorem State.fastOver_tripped (hn : n < 96) (hd : (s.bayAt n).st.driven = true) {rail : Rail}
    (hb : ((s.bayAt n).rail rail).blankRun = false) (hf : ((s.bayAt n).rail rail).frozen = false) :
    s.Tripped n 1 rail (s.fastOver n rail) := by
  have hskip : s.fastOver n rail = (s.modBay n fun b => b.modRail rail fun r => { r with fastOver := true }).trip n 1 rail := by
    simp [State.fastOver, hn, hb, hf]
  rw [hskip]
  refine State.trip_tripped hn ?_ ?_ 1 rail
  · rwa [State.modBay_st _ _ _ fun b => b.modRail_st ..]
  · rw [State.bayAt_modBay_self _ _ _ hn, Bay.modRail_trips]

theorem State.slowTrip_tripped (hn : n < 96) (hd : (s.bayAt n).st.driven = true) (rail : Rail) :
    s.Tripped n 2 rail (s.slowTrip n rail) := by
  refine State.trip_tripped hn ?_ ?_ 2 rail
  · rwa [State.modBay_st _ _ _ fun b => b.modRail_st ..]
  · rw [State.bayAt_modBay_self _ _ _ hn, Bay.modRail_trips, State.draw_bayAt]

theorem State.gateTimeout_tripped (hn : n < 96) (hst : (s.bayAt n).st = .starting) {rail : Rail}
    (hg : ((s.bayAt n).rail rail).good = false) : s.Tripped n 4 rail (s.gateTimeout n rail) := by
  rw [State.gateTimeout, if_pos (by simp [hst, hg])]
  exact State.trip_tripped hn (by rw [hst]; rfl) rfl 4 rail

/-! ### Bay items (R146, R149, R163) -/

theorem State.dispatchWork_eq (hu : s.sys.fieldUp = true) {w : Work} (hw : (s.serveBayKeys n).nextWork n = some w)
    (hd : w.tid.isSome = true ∨ (s.serveBayKeys n).sow.dispatch = true) {ok : WorkKind → Bool} (hk : ok w.kind = true) :
    s.dispatchWork n ok = ((s.serveBayKeys n).takeUp w).settleOne w := by
  rw [State.dispatchWork, hw]
  refine if_pos ?_
  rw [hk, State.serveBayKeys_fieldUp, hu, Bool.true_and, Bool.true_and, Bool.or_eq_true]
  exact hd

end

/-! ### The commands of bay states -/

section
variable {s : State} (hr : s.sys.inReset = false) (hu : s.sys.fieldUp = true) (n : BayNo) (rail : Rail)
include hr hu

theorem exec_bayStart : exec (.bayStart n) s = .next (s.bayStart n.val).settle :=
  onField_of_running hr hu fun s => (s.bayStart n.val).settle
theorem exec_bayStop : exec (.bayStop n) s = .next (s.bayStop n.val).settle :=
  onField_of_running hr hu fun s => (s.bayStop n.val).settle
theorem exec_gatesBelow1v : exec (.gatesBelow1v n) s = .next (s.gatesDown n.val) := onField_of_running hr hu fun s => s.gatesDown n.val
theorem exec_gateGood : exec (.gateGood n rail) s = .next (s.gateGood n.val rail) :=
  onField_of_running hr hu fun s => s.gateGood n.val rail
theorem exec_blankWindowEnd : exec (.blankWindowEnd n rail) s = .next (s.blankEnd n.val rail) :=
  onField_of_running hr hu fun s => s.blankEnd n.val rail
theorem exec_fastOver : exec (.fastOver n rail) s = .next (s.fastOver n.val rail) :=
  onField_of_running hr hu fun s => s.fastOver n.val rail
theorem exec_slowTrip : exec (.slowTrip n rail) s = .next (s.slowTrip n.val rail) :=
  onField_of_running hr hu fun s => s.slowTrip n.val rail
theorem exec_gateTimeout : exec (.gateTimeout n rail) s = .next (s.gateTimeout n.val rail) :=
  onField_of_running hr hu fun s => s.gateTimeout n.val rail

end

/-- Settles O55, by the equations of the transitions, `State.trip_tripped` for the trips and `State.dispatchWork_eq` for the items. -/
theorem bayStates : Obligations.BayStates := by
  intro s n rail hr hu b tripped
  have hn := n.isLt
  have htrip {c : Instr} {v : State} {cause : Nat} (hc : exec c s = .next v) (hv : s.Tripped n.val cause rail v) :
      tripped (exec c s) cause := by
    obtain ⟨u, rfl, hu⟩ := hv
    exact ⟨u, hc, hu⟩
  refine ⟨fun hl hg => ?starts, fun hl hg => ?held, fun hl => ?refused, fun h => ?stops, fun h => ?stopRefused, ?counts,
    fun h => ?gatesEnd, fun h => ?gatesStay, ?good, fun hst hmg hag hb hf ho => ?on, fun h => ?trips, fun w hw hd => ?items⟩
  case starts =>
    refine ⟨s.enterStarting n.val, by rw [exec_bayStart hr hu, State.bayStart_starts hl hg], ?_⟩
    rw [State.enterStarting_bayAt hn]
    exact ⟨rfl, rfl, rfl, rfl, State.enterStarting_order⟩
  case held => exact ⟨_, exec_bayStart hr hu n, State.bayStart_held hn hl hg⟩
  case refused => rw [exec_bayStart hr hu, State.bayStart_refused hl]
  case stops =>
    have hstop : s.bayStop n.val = s.bayDown n.val .stopping := (State.bayStop_of_stops (by
      rcases h with h | h | h | h <;> rw [h] <;> decide)).2
    refine ⟨_, exec_bayStop hr hu n, ?_⟩
    rw [hstop, State.bayDown_bayAt hn]
    exact ⟨rfl, rfl, rfl, (State.bayDown_orders n.val _).1⟩
  case stopRefused => rw [exec_bayStop hr hu, State.bayStop_refused h]
  case counts => exact State.bayAt_modBay_self _ _ _ hn
  case gatesEnd =>
    obtain ⟨u, hend, hbay⟩ := State.gatesDown_ends hn h
    refine ⟨u, by rw [exec_gatesBelow1v hr hu, hend], ?_⟩
    rw [hbay]
    exact ⟨rfl, rfl, rfl⟩
  case gatesStay =>
    exact ⟨_, by rw [exec_gatesBelow1v hr hu, State.gatesDown_stays hn h], State.bayAt_modBay_self _ _ _ hn⟩
  case good =>
    refine ⟨_, exec_gateGood hr hu n rail, ?_⟩
    rw [State.checkOn_rail hn, State.bayAt_modBay_self _ _ _ hn, Bay.rail_modRail]
  case on =>
    obtain ⟨u, hend, hbay⟩ := State.blankEnd_quiet hn hb hf
    refine ⟨_, by rw [exec_blankWindowEnd hr hu, hend], State.checkOn_on hn ?_⟩
    rw [hbay]
    exact Bay.started_unblanked hst hmg hag hb ho
  case trips =>
    have hd : b.st.driven = true := by rcases h with h | h <;> rw [h] <;> rfl
    exact ⟨fun hb hf => htrip (exec_fastOver hr hu n rail) (State.fastOver_tripped hn hd hb hf),
      htrip (exec_slowTrip hr hu n rail) (State.slowTrip_tripped hn hd rail),
      fun hst hg => htrip (exec_gateTimeout hr hu n rail) (State.gateTimeout_tripped hn hst hg)⟩
  case items =>
    have hitem {ok : WorkKind → Bool} (hk : ok w.kind = true) :=
      congrArg (Host.Outcome.next (φ := Fault) (ρ := Refusal)) (State.dispatchWork_eq hu hw hd hk)
    exact ⟨fun hk => hitem (by simp [hk]), fun hk => hitem (by simp [hk]), fun hk => hitem (by simp [hk])⟩

end Sys2Proof.Machine

/-! SUPPORT. The statements of lock-outs, proofs and samples of the bay channels. A lock-out is said once (`State.lockOut_lockedBy`), and
what leads to one cites it; a proof's steps are equations of the rail proved. -/

namespace Sys2Proof.Machine

/-! ### The lock latch (R400, R430) -/

theorem State.setLatch_locked (s : State) (n : Nat) (b : Bool) {m : Nat} (hm : m < 96) :
    (s.setLatch n b).locked m = if n = m then b else s.locked m := getLsbD_putBit _ _ _ _ hm

@[simp] theorem State.setLatch_bayAt (s : State) (n : Nat) (b : Bool) (m : Nat) : (s.setLatch n b).bayAt m = s.bayAt m := rfl

section
variable {s t u : State} {n : BayNo}

theorem State.locked_congr (h : t.sys.lockLatch = s.sys.lockLatch) (m : Nat) : t.locked m = s.locked m := by
  rw [State.locked, h, State.locked]

/-- LC's write of SYS_LOCK locks a bay in field state (R430). -/
theorem State.writeLock_sets (h : s.locked n.val = false) (hu : s.sys.fieldUp = true) : ∃ u : State,
    s.writeLock n.val true = u.settle ∧ u.locked n.val = true ∧ (u.bayAt n.val).st = .locked := by
  refine ⟨((s.setLatch n.val true).bayDown n.val .locked).modBay n.val fun x => { x with lockEv := true }, ?_, ?_, ?_⟩
  · rw [State.writeLock, h, if_neg (by decide), if_pos rfl]
    exact if_pos hu
  · rw [State.locked_congr (s := s.setLatch n.val true) (by rw [State.modBay_sys, State.bayDown_sys]),
      State.setLatch_locked _ _ _ n.isLt, if_pos rfl]
  · rw [State.bayAt_modBay_self _ _ _ n.isLt, State.bayDown_bayAt n.isLt]
    rfl

theorem State.writeLock_sets_dark (h : s.locked n.val = false) (hu : s.sys.fieldUp = false) :
    s.writeLock n.val true = s.setLatch n.val true := by
  rw [State.writeLock, h, if_neg (by decide), if_pos rfl]
  exact if_neg (by simp [State.setLatch, hu])

/-- LC's write of SYS_LOCK unlocks a LOCKED bay, which then stands off (R428, R430). -/
theorem State.writeLock_clears (h : s.locked n.val = true) (hu : s.sys.fieldUp = true) (hst : (s.bayAt n.val).st = .locked) :
    ∃ u : State, s.writeLock n.val false = u.settle ∧ u.locked n.val = false ∧ (u.bayAt n.val).st = s.restingState n.val := by
  refine ⟨((s.setLatch n.val false).modBay n.val fun x => { x with st := s.restingState n.val }).showTag n.val, ?_, ?_, ?_⟩
  · rw [State.writeLock, h, if_neg (by decide), if_neg (by decide)]
    exact if_pos (by rw [State.setLatch_bayAt, hst, State.setLatch, State.modSys_sys, hu]; rfl)
  · rw [State.locked_congr (s := s.setLatch n.val false) (by rw [State.showTag_sys, State.modBay_sys]),
      State.setLatch_locked _ _ _ n.isLt, if_pos rfl]
  · rw [State.showTag_bayAt, State.bayAt_modBay_self _ _ _ n.isLt]

theorem State.writeLock_clears_dark (h : s.locked n.val = true) (hu : s.sys.fieldUp = false) :
    s.writeLock n.val false = s.setLatch n.val false := by
  rw [State.writeLock, h, if_neg (by decide), if_neg (by decide)]
  exact if_neg (by simp [State.setLatch, hu])

/-! ### Lock-outs (R415, R418, R422, R425) -/

/-- `v` is what a lock-out of cause `c` makes of `s`: the bay is LOCKED by its latch, and the items in service look at it. -/
def State.LockedBy (s : State) (n : BayNo) (c : Nat) (v : State) : Prop :=
  ∃ u : State, v = u.settle ∧ (u.bayAt n.val).st = .locked ∧ u.locked n.val = true ∧ (u.bayAt n.val).lockCause = c
    ∧ (u.bayAt n.val).lockEv = true ∧ ∀ m : BayNo, m ≠ n → u.locked m.val = s.locked m.val

/-- The bay goes down LOCKED, with its latch set and the condition in FAULT (R425). -/
def State.latchOut (s : State) (n c : Nat) (rail : Rail) : State :=
  ((s.setLatch n true).bayDown n .locked).modBay n fun b => { b with lockCause := c, lockRail := rail, lockEv := true }

theorem State.latchOut_bayAt (s : State) (n : BayNo) (c : Nat) (rail : Rail) : (s.latchOut n.val c rail).bayAt n.val =
    { ((s.bayAt n.val).turnOff .locked) with lockCause := c, lockRail := rail, lockEv := true } := by
  rw [State.latchOut, State.bayAt_modBay_self _ _ _ n.isLt, State.bayDown_bayAt n.isLt, State.setLatch_bayAt]

theorem State.latchOut_locked (s : State) (n m : BayNo) (c : Nat) (rail : Rail) :
    (s.latchOut n.val c rail).locked m.val = if n.val = m.val then true else s.locked m.val := by
  rw [State.locked_congr (s := s.setLatch n.val true) (by rw [State.latchOut, State.modBay_sys, State.bayDown_sys]),
    State.setLatch_locked _ _ _ m.isLt]

/-- A bay that is not LOCKED goes down by its latch, and its item is posted (R425). -/
theorem State.lockOut_posts (h : (s.bayAt n.val).st ≠ .locked) (c : Nat) (rail : Rail) : ∃ q words,
    s.lockOut n.val c rail = ((s.latchOut n.val c rail).hwPost q (.hw words) words).settle := ⟨_, _, if_neg h⟩

/-- A lock-out condition locks a bay that is not LOCKED, also where its registers have changed on the way from `s` to `t`. -/
theorem State.lockOut_lockedBy (h : (t.bayAt n.val).st ≠ .locked) (ht : t.sys.lockLatch = s.sys.lockLatch) (c : Nat) (rail : Rail) :
    s.LockedBy n c (t.lockOut n.val c rail) := by
  obtain ⟨q, words, hout⟩ := State.lockOut_posts h c rail
  refine ⟨_, hout, ?_⟩
  rw [State.hwPost_bayAt, State.hwPost_locked, State.latchOut_bayAt, State.latchOut_locked, if_pos rfl]
  refine ⟨rfl, rfl, rfl, rfl, fun m hm => ?_⟩
  rw [State.hwPost_locked, State.latchOut_locked, if_neg fun h => hm (Fin.ext h.symm), State.locked_congr ht]

/-- A gate that stands up in a state with the gates off or sinking locks the bay (R415). -/
theorem State.gateOff_lockedBy (hd : (s.bayAt n.val).st.driven = false) (hl : (s.bayAt n.val).st ≠ .locked) {f g : Bool}
    (hfg : f = true ∨ g = true) : s.LockedBy n 4 (s.gateOff n.val f g) := by
  rw [State.gateOff, if_neg (by rcases hfg with rfl | rfl <;> simp [hd, hl])]
  exact State.lockOut_lockedBy hl rfl 4 _

/-- A shadow mismatch locks the bay, with cause 3 at a parity and 2 at the copies (R418). -/
theorem State.shadowFails_lockedBy (h : (s.bayAt n.val).st ≠ .locked) (rail : Rail) (parity : Bool) :
    s.LockedBy n (if parity then 3 else 2) (s.shadowFails n.val rail parity) := by
  cases parity <;>
  · refine State.lockOut_lockedBy ?_ rfl _ rail
    rwa [State.modBay_st _ _ _ fun b => b.modRail_st ..]

/-! ### The lock item (R425, R427) -/

theorem State.serveLock_eq {it : Item} (h : (s.sow.store.find? fun it => it.q = s.hng.f2lQ && it.isLockOut) = some it) :
    s.serveLock = ((s.serveItem it).putLock (fieldAt (it.word 1).toNat 0 7) true (fieldAt (it.word 1).toNat 8 3)
      (fieldAt (it.word 1).toNat 12 1)).modBays fun b => { b with lockNotes := b.lockNotes ++ [fieldAt (it.word 1).toNat 0 7] } := by
  rw [State.serveLock, h]

/-! ### Proofs (R420 to R423) -/

theorem Bay.proofWaits_iff {b : Bay} {rail : Rail} : b.proofWaits rail = true ↔
    (b.rail rail).frozen = true ∨ b.demanded rail = true ∧ (b.main.frozen = true ∨ b.aux.frozen = true) := by
  simp [Bay.proofWaits]

theorem Bay.proofWaits_of_free {b : Bay} {rail : Rail} (hf : (b.rail rail).frozen = false)
    (hd : b.demanded rail = false ∨ b.main.frozen = false ∧ b.aux.frozen = false) : b.proofWaits rail = false := by
  obtain hd | ⟨hm, ha⟩ := hd
  · simp [Bay.proofWaits, hf, hd]
  · simp [Bay.proofWaits, hf, hm, ha]

theorem State.proofBegins_waits {rail : Rail} (h : (s.bayAt n.val).proofWaits rail = true) : s.proofBegins n.val rail = s := if_pos h

theorem State.proofBegins_bayAt {rail : Rail} (h : (s.bayAt n.val).proofWaits rail = false) : (s.proofBegins n.val rail).bayAt n.val =
    (s.bayAt n.val).modRail rail fun r => { r with frozen := true, checked := false, proving := (s.bayAt n.val).demanded rail } := by
  rw [State.proofBegins, h, if_neg Bool.false_ne_true, State.bayAt_modBay_self _ _ _ n.isLt]

/-- What the comparators read at a proof's check (R422). -/
def RailSt.checkedAs (r : RailSt) (fast slow : Bool) : RailSt :=
  { r with pass := fast && slow, fastOver := fast, slowOver := slow, checked := true }

section
variable {rail : Rail} (hf : ((s.bayAt n.val).rail rail).frozen = true)
include hf

theorem State.proofChecked_eq (fast slow : Bool) : s.proofChecked n.val rail fast slow =
    if fast && slow then s.modBay n.val fun b => b.modRail rail fun r => r.checkedAs fast slow
    else (s.modBay n.val fun b => b.modRail rail fun r => r.checkedAs fast slow).lockOut n.val 1 rail := by
  rw [State.proofChecked, hf]
  rfl

theorem State.proofChecked_passes :
    ((s.proofChecked n.val rail true true).bayAt n.val).rail rail = ((s.bayAt n.val).rail rail).checkedAs true true := by
  rw [State.proofChecked_eq hf, if_pos (by rfl), State.bayAt_modBay_self _ _ _ n.isLt, Bay.rail_modRail]

/-- A comparator that does not read over at the check locks the bay (R422). -/
theorem State.proofChecked_lockedBy {fast slow : Bool} (hfail : fast = false ∨ slow = false) (h : (s.bayAt n.val).st ≠ .locked) :
    s.LockedBy n 1 (s.proofChecked n.val rail fast slow) := by
  rw [State.proofChecked_eq hf, if_neg (by rcases hfail with rfl | rfl <;> simp)]
  refine State.lockOut_lockedBy ?_ rfl 1 rail
  rwa [State.modBay_st _ _ _ fun b => b.modRail_st ..]

end

/-- The end of a proof on demand meets the demand of its rail (R423). -/
theorem Bay.rail_proved (b : Bay) (rail : Rail) : (b.proved rail).rail rail =
    if (b.rail rail).proving then { b.rail rail with wanted := false, proving := false } else b.rail rail := by
  unfold Bay.proved
  split
  · dsimp only
    split <;> cases rail <;> rfl
  · rfl

/-- The next bay of a row is another bay (R424). -/
theorem State.proveNext_bayAt (s : State) (n : Nat) : (s.proveNext n).bayAt n = s.bayAt n := by
  unfold State.proveNext State.proofRun
  split
  · split
    · rfl
    · exact State.bayAt_modBay_ne _ _ _ _ (Nat.succ_ne_self n)
  · rfl

/-- The rail whose proof ends while FAST reads not over; `slow` is what SLOW reads (R421). -/
def RailSt.thawed (r : RailSt) (slow : Bool) : RailSt := { r with frozen := false, checked := false, fastOver := false, slowOver := slow }

/-- The end of a proof while FAST reads not over trips nothing (R421). -/
theorem State.proofEnds_bayAt {rail : Rail} (hf : ((s.bayAt n.val).rail rail).frozen = true)
    (hc : ((s.bayAt n.val).rail rail).checked = true) : (s.proofEnds n.val rail false).bayAt n.val =
      ((s.bayAt n.val).modRail rail fun r => r.thawed s.freeCheck.1).proved rail := by
  rw [State.proofEnds, hf, hc, if_neg (by decide)]
  dsimp only
  rw [Bool.false_and, if_neg Bool.false_ne_true, State.proveNext_bayAt, State.bayAt_modBay_self _ _ _ n.isLt]
  rfl

/-- The handles of SELFTEST touch no bay (R219). -/
theorem State.selfProof_bayAt (s : State) (n : Nat) (rail : Rail) (pass : Bool) (m : Nat) :
    (s.selfProof n rail pass).bayAt m = s.bayAt m := by
  refine foldl_frame (fun u : State => u.bayAt m) (fun u h => ?_) _ s
  split
  · dsimp only
    split
    · rfl
    · split
      · split <;> rfl
      · rfl
  · rfl

theorem State.proofRun_bayAt (h : (s.bayAt n.val).proofBusy = false) : (s.proofRun n.val).bayAt n.val =
    { s.bayAt n.val with main := { (s.bayAt n.val).main with wanted := true }, aux := { (s.bayAt n.val).aux with wanted := true } } := by
  rw [State.proofRun, h, if_neg Bool.false_ne_true, State.bayAt_modBay_self _ _ _ n.isLt]

/-! ### Samples (R409) -/

/-- A sample joins the points of a start under measurement, and changes nothing else of the bay (R444). -/
theorem Bay.foldPoint_eq (b : Bay) (now : Nat) (v : Int) : b.foldPoint now v = { b with points := (b.foldPoint now v).points } := by
  unfold Bay.foldPoint
  split
  · rfl
  · dsimp only
    split <;> rfl

theorem State.samples_bayAt (s : State) (isum : List Int) (vsum : List Nat) (n : BayNo) : (s.samples isum vsum).bayAt n.val =
    let b := (s.bayAt n.val).foldPoint s.cal.tick (s.bays.isumOf isum n.val .main)
    { b with
      seq := (b.seq + 1) % 256
      main := { b.main with isum := s.bays.isumOf isum n.val .main, vsum := vsum.getD (2 * n.val) 0 }
      aux := { b.aux with isum := s.bays.isumOf isum n.val .aux, vsum := vsum.getD (2 * n.val + 1) 0 } } := by
  simp [State.samples, State.bayAt, vget]

theorem State.samples_sums (s : State) (isum : List Int) (vsum : List Nat) (n : BayNo) :
    vget (s.samples isum vsum).bays.sumM n.val = 0 ∧ vget (s.samples isum vsum).bays.sumA n.val = 0 := by
  simp [State.samples, vget]

end

/-! ### The commands of lock-outs, proofs and samples -/

section
variable {s : State} (hr : s.sys.inReset = false)
include hr

theorem exec_lockItemServe : exec .lockItemServe s = .next s.serveLock := onLatch_of_running hr State.serveLock
theorem exec_sysLockSet (n : BayNo) : exec (.sysLockSet n) s = .next (s.writeLock n.val true) :=
  onLatch_of_running hr fun s => s.writeLock n.val true
theorem exec_sysLockClear (n : BayNo) : exec (.sysLockClear n) s = .next (s.writeLock n.val false) :=
  onLatch_of_running hr fun s => s.writeLock n.val false

variable (hu : s.sys.fieldUp = true) (n : BayNo) (rail : Rail)
include hu

theorem exec_gateOffLockout (f g : Bool) : exec (.gateOffLockout n f g) s = .next (s.gateOff n.val f g) :=
  onField_of_running hr hu fun s => s.gateOff n.val f g
theorem exec_shadowMismatch (parity : Bool) : exec (.shadowMismatch n rail parity) s = .next (s.shadowFails n.val rail parity) :=
  onField_of_running hr hu fun s => s.shadowFails n.val rail parity
theorem exec_proofStart : exec (.proofStart n rail) s = .next (s.proofBegins n.val rail) :=
  onField_of_running hr hu fun s => s.proofBegins n.val rail
theorem exec_proofCheck (f g : Bool) : exec (.proofCheck n rail f g) s = .next (s.proofChecked n.val rail f g) :=
  onField_of_running hr hu fun s => s.proofChecked n.val rail f g
theorem exec_proofRun : exec (.proofRun n) s = .next (s.proofRun n.val) := onField_of_running hr hu fun s => s.proofRun n.val
theorem exec_adcSampleComplete (isum : List Int) (vsum : List Nat) :
    exec (.adcSampleComplete isum vsum) s = .next (s.samples isum vsum) := onField_of_running hr hu fun s => s.samples isum vsum

/-- The end of a proof, and what SELFTEST makes of it, leave the bay as `State.proofEnds` does (R219, R421). -/
theorem exec_proofEnd (still : Bool) : ∃ u : State, exec (.proofEnd n rail still) s = .next u.runDue
    ∧ u.bayAt n.val = (s.proofEnds n.val rail still).bayAt n.val := by
  change ∃ u : State, execProofEnd n rail still s = _ ∧ _
  rw [execProofEnd, onField_of_running hr hu]
  refine ⟨_, rfl, ?_⟩
  split
  · exact State.selfProof_bayAt ..
  · rfl

end

/-- Settles O56: the lock-outs cite `State.lockOut_lockedBy`, and the steps of a proof and the samples read off the bay's equations. -/
theorem locksAndProofs : Obligations.LocksAndProofs := by
  intro s n rail f g isum vsum hr b lockedBy
  have hn := n.isLt
  have hlock {c : Instr} {v : State} {cause : Nat} (hc : exec c s = .next v) (hv : s.LockedBy n cause v) : lockedBy (exec c s) cause := by
    obtain ⟨u, rfl, hu⟩ := hv
    exact ⟨u, hc, hu⟩
  refine ⟨fun hu => ⟨fun h hfg => ?gateOff, fun h => ⟨?parity, ?copies⟩, fun h => ?waits, fun hf hd => ?begins,
    fun hf => ⟨?passes, fun hfg h => ?fails, fun hc => ?ends⟩, fun hm ha => ?run, ?samples⟩, fun it hit => ?item,
    fun h => ?set, fun h => ?clear⟩
  case gateOff =>
    refine hlock (exec_gateOffLockout hr hu n f g) (State.gateOff_lockedBy ?_ ?_ hfg) <;>
    rcases h with h | h | h | h | h <;> rw [h] <;> decide
  case parity => exact hlock (exec_shadowMismatch hr hu n rail true) (State.shadowFails_lockedBy h rail true)
  case copies => exact hlock (exec_shadowMismatch hr hu n rail false) (State.shadowFails_lockedBy h rail false)
  case waits => rw [exec_proofStart hr hu, State.proofBegins_waits (Bay.proofWaits_iff.mpr h)]
  case begins =>
    refine ⟨_, exec_proofStart hr hu n rail, ?_⟩
    rw [State.proofBegins_bayAt (Bay.proofWaits_of_free hf hd)]
    exact ⟨Bay.rail_modRail .., Bay.modRail_st ..⟩
  case passes => exact ⟨_, exec_proofCheck hr hu n rail true true, State.proofChecked_passes hf⟩
  case fails => exact hlock (exec_proofCheck hr hu n rail f g) (State.proofChecked_lockedBy hf hfg h)
  case ends =>
    obtain ⟨u, hexec, hbay⟩ := exec_proofEnd hr hu n rail false
    refine ⟨u, hexec, ?_⟩
    rw [hbay, State.proofEnds_bayAt hf hc, Bay.rail_proved, Bay.rail_modRail, Bay.proved_st, Bay.modRail_st]
    refine ⟨?_, fun hp => ?_, rfl⟩
    · split <;> rfl
    · rw [if_pos (show (RailSt.thawed _ _).proving = true from hp)]
  case run =>
    refine ⟨_, exec_proofRun hr hu n, ?_⟩
    rw [State.proofRun_bayAt (show b.proofBusy = false by rw [Bay.proofBusy, hm, ha]; rfl)]
    exact ⟨rfl, rfl⟩
  case samples =>
    refine ⟨_, exec_adcSampleComplete hr hu isum vsum, ?_⟩
    rw [State.samples_bayAt, Bay.foldPoint_eq]
    exact ⟨rfl, rfl, rfl, rfl, rfl, rfl, s.samples_sums isum vsum, rfl⟩
  case item =>
    refine ⟨_, (exec_lockItemServe hr).trans (congrArg _ (State.serveLock_eq hit)), s.serveItem_store it, ?_⟩
    rw [State.serveItem_eq]
    exact ⟨rfl, rfl⟩
  case set =>
    cases hu : s.sys.fieldUp with
    | true =>
      obtain ⟨u, hset, hl, hst⟩ := State.writeLock_sets h hu
      exact ⟨u, hl, fun _ => ⟨by rw [exec_sysLockSet hr, hset], hst⟩, nofun⟩
    | false =>
      exact ⟨_, (s.setLatch_locked n.val true hn).trans (if_pos rfl), nofun, fun _ => by
        rw [exec_sysLockSet hr, State.writeLock_sets_dark h hu]⟩
  case clear =>
    by_cases hup : s.sys.fieldUp = true ∧ b.st = .locked
    · obtain ⟨hu, hst⟩ := hup
      obtain ⟨u, hclear, hl, hrest⟩ := State.writeLock_clears h hu hst
      exact ⟨u, hl, fun _ _ => ⟨by rw [exec_sysLockClear hr, hclear], hrest⟩, fun hd => absurd (hu.symm.trans hd) (by decide)⟩
    · exact ⟨_, (s.setLatch_locked n.val false hn).trans (if_pos rfl), fun hu hst => absurd ⟨hu, hst⟩ hup, fun hd => by
        rw [exec_sysLockClear hr, State.writeLock_clears_dark h hd]⟩

end Sys2Proof.Machine

/-! SUPPORT. The statement of the envelope guard and the start planner. What a command makes of the envelope is said once, by an
equation of its operation; what a plan keeps is `State.placeAll_spec`, by induction on the bays still to be placed. -/

namespace Sys2Proof.Machine

/-! ### The guard (R432 to R437) -/

/-- The count of ms ticks changes its own five fields only (R433). -/
theorem Env.countSlot_eq (e : Env) (f : Bool) : e.countSlot f =
    { e with slotNo := (e.countSlot f).slotNo, msOver := (e.countSlot f).msOver, msClear := (e.countSlot f).msClear
             nowOver := (e.countSlot f).nowOver, nowClear := (e.countSlot f).nowClear } := by
  unfold Env.countSlot
  split <;> rfl

@[simp] theorem vget_ofFn {α : Type} [Inhabited α] {n : Nat} (f : Fin n → α) (i : Fin n) : vget (Vector.ofFn f) i.val = f i := by
  simp [vget]

section
variable {s : State}

@[simp] theorem State.notice_bays (s : State) (t : String) : (s.notice t).bays = s.bays := by rw [State.notice_eq]

theorem State.guardSlot_bays (s : State) (m a : List Int) : (s.guardSlot m a).bays =
    { s.bays with sumM := Vector.ofFn fun i => vget s.bays.sumM i.val + m.getD i.val 0
                  sumA := Vector.ofFn fun i => vget s.bays.sumA i.val + a.getD i.val 0
                  sumSlots := s.bays.sumSlots + 1 } := by
  rw [State.guardSlot, State.modEnv_bays]
  rfl

theorem State.assertHold_env (h : s.env.hold = false) : s.assertHold.env =
    { s.env with hold := true, holdEv := true, holds := satInc 65535 s.env.holds, replanDue := true } := by
  rw [State.assertHold, h, if_neg Bool.false_ne_true, State.notice_env, State.modEnv_env]

theorem State.assertHold_bays : s.assertHold.bays = s.bays := by
  unfold State.assertHold
  split
  · rfl
  · rw [State.notice_bays, State.modEnv_bays]

theorem State.guardClear_ends (h : s.env.hold = true) (hc : s.env.clearDue = true) :
    s.guardClear.env = { s.env with hold := false, replanDue := true } ∧ s.guardClear.bays = s.bays := by
  rw [State.guardClear, h, hc, if_pos (by rfl), State.notice_env, State.notice_bays]
  exact ⟨rfl, rfl⟩

theorem State.enterStarting_env (s : State) (n : Nat) : (s.enterStarting n).env =
    { s.env with heldQ := s.env.heldQ.filter (· ≠ n), order := n :: s.env.order.filter (· ≠ n), lastStart := some s.cal.tick } := by
  rw [State.enterStarting, State.showTag_env]
  rfl

theorem State.guardRelease_starts {n : Nat} {l : List Nat} (hq : s.env.heldQ = n :: l) (hh : s.env.hold = false)
    (hp : s.paceMet = true) :
    s.guardRelease = ((s.enterStarting n).modEnv fun e => { e with relEv := true, replanDue := true }).settle := by
  rw [State.guardRelease, hq, hh, hp]
  rfl

theorem State.guardShed_trips {n : Nat} {l : List Nat} (ho : s.env.order = n :: l) (hd : 2 ≤ s.env.shedRun) : s.guardShed =
    ((s.modEnv fun e => { e with shedRun := 0, shedEv := true, sheds := satInc 255 e.sheds }).trip n 3 .main).assertHold := by
  rw [State.guardShed, if_neg (Nat.not_lt.mpr hd), ho]

end

/-! ### Written starts (R452) -/

section
variable {s : State} {n : Nat}

/-- A legal START begins the bay, or queues it while the guard is holding, and touches neither the calendar nor the starts that
wait in the planner (R434). -/
theorem State.bayStart_legal (hn : n < 96) (h : s.startLegal n = true) :
    ((s.bayStart n).bayAt n).st = (if s.guardHolding then .held else .starting)
      ∧ (s.bayStart n).env.waiting = s.env.waiting ∧ (s.bayStart n).cal = s.cal := by
  cases hg : s.guardHolding with
  | true =>
    refine ⟨(State.bayStart_held hn h hg).1, ?_⟩
    rw [State.bayStart, h, hg, Bool.not_true, if_neg Bool.false_ne_true, if_pos rfl, State.showTag_eq]
    exact ⟨rfl, rfl⟩
  | false =>
    rw [State.bayStart_starts h hg, State.enterStarting_bayAt hn, State.enterStarting_env, State.enterStarting, State.showTag_eq]
    exact ⟨rfl, rfl, rfl⟩

/-- The state in which the planner has written START of bay `n`: the bay waits no longer, and this is the last start written. -/
def State.startWritten (s : State) (n : Nat) : State :=
  ((s.unplan n).bayStart n).modEnv fun e => { e with lastWritten := some ((s.unplan n).bayStart n).cal.tick }

theorem State.startWritten_spec (hn : n < 96) (h : s.startLegal n = true) :
    (s.startWritten n).env.lastWritten = some s.cal.tick ∧ n ∉ (s.startWritten n).env.waiting
      ∧ ((s.startWritten n).bayAt n).st = if s.guardHolding then .held else .starting := by
  obtain ⟨hst, hwait, hcal⟩ := State.bayStart_legal (s := s.unplan n) hn h
  refine ⟨congrArg (fun c : Calendar => some c.tick) hcal, ?_, hst⟩
  change n ∉ ((s.unplan n).bayStart n).env.waiting
  rw [hwait]
  simp [State.unplan]

/-- With its tick reached, a legal start is written. -/
theorem State.plannerStart_writes {p : Nat × Nat} (hp : (s.env.placed.find? fun p => p.1 = n) = some p)
    (hreach : (s.planTicks fun x => !x.planReached p.2).planReached p.2 = true)
    (hup : (s.planTicks fun x => !x.planReached p.2).plannerUp = true)
    (hl : (s.planTicks fun x => !x.planReached p.2).startLegal n = true) :
    s.plannerStart n = ((s.planTicks fun x => !x.planReached p.2).startWritten n).settle := by
  rw [State.plannerStart, hp]
  dsimp only
  rw [hreach, hup, hl, if_neg (by decide), if_pos rfl]
  simp only [Bool.not_true, Bool.or_false]
  rfl

end

/-! ### Placement (R448 to R450) -/

section
variable (s : State)

theorem State.fits_iff (l : List Draw) (u : Nat) (o c : List Nat) (x : Nat) : s.fits l u o c x = true ↔ ∀ k : Fin 64,
    (predicted l (x + 16 * k.val) + (c.getD k.val 0 : Nat)) * 10 + s.sdb.envMargin * 1000 + s.reserved l u o (x + 16 * k.val)
      ≤ s.sdb.envMain * 1000 := by
  rw [State.fits, List.all_eq_true, Fin.forall_iff]
  refine forall_congr' fun k => ?_
  rw [List.mem_range, decide_eq_true_iff]
  push_cast
  rw [Int.add_assoc]

/-- The first tick at which the next start may stand: after now, and 60 ticks after the last one, if any (R450). -/
def State.earliest (last : Option Nat) : Nat := max (s.cal.tick + 1) ((last.map fun k => k + 60).getD 0)

theorem State.tick_lt_earliest (last : Option Nat) : s.cal.tick < s.earliest last := Nat.le_max_left ..

theorem State.earliest_some (k : Nat) : k + 60 ≤ s.earliest (some k) := Nat.le_max_right ..

variable {s} {l : List Draw} {u : Nat} {o c : List Nat}

theorem State.findTick_ge {f t0 t : Nat} (h : s.findTick l u o c f t0 = some t) : t0 ≤ t := by
  induction f generalizing t0 with
  | zero => cases h
  | succ f ih =>
    rw [State.findTick] at h
    split at h
    · cases h
      exact Nat.le_refl _
    · split at h
      · cases h
      · exact Nat.le_of_succ_le (ih h)

/-- The search ends at the first tick of its range at which the start fits. -/
theorem State.findTick_first {f t0 t : Nat} (hf : t < t0 + f) (h0 : t0 ≤ t) (ht : t ≤ s.cal.tick + 3840) (hfit : s.fits l u o c t = true)
    (hno : ∀ x, t0 ≤ x → x < t → s.fits l u o c x = false) : s.findTick l u o c f t0 = some t := by
  induction f generalizing t0 with
  | zero => exact absurd hf (Nat.not_lt.mpr h0)
  | succ f ih =>
    rw [State.findTick]
    rcases Nat.eq_or_lt_of_le h0 with rfl | hlt
    · rw [if_pos hfit]
    · rw [hno t0 (Nat.le_refl _) hlt, if_neg Bool.false_ne_true, if_neg (by omega)]
      exact ih (by omega) hlt fun x hx => hno x (Nat.le_of_succ_le hx)

variable {last : Option Nat} {left rest : List Nat} {b : Nat}

theorem State.placeAll_cons (b : Nat) : s.placeAll l last left (b :: rest) =
    (s.findTick l (s.envTen b) ((left ++ rest).map s.envTen) (s.curve b) 4096 (s.earliest last)).elim
      (s.placeAll l last (left ++ [b]) rest)
      fun t => ((b, t) :: (s.placeAll (l ++ [s.placedDraw b t]) (some t) left rest).1,
        (s.placeAll (l ++ [s.placedDraw b t]) (some t) left rest).2) := by
  rw [State.placeAll.eq_def]
  cases last with
  | none =>
    rw [show s.earliest none = s.cal.tick + 1 from Nat.max_eq_left (Nat.zero_le _)]
    dsimp only
    cases s.findTick l (s.envTen b) ((left ++ rest).map s.envTen) (s.curve b) 4096 (s.cal.tick + 1) <;> rfl
  | some t =>
    rw [State.earliest, Option.map_some, Option.getD_some]
    dsimp only
    cases s.findTick l (s.envTen b) ((left ++ rest).map s.envTen) (s.curve b) 4096 (max (s.cal.tick + 1) (t + 60)) <;> rfl

/-- What a plan keeps: each bay is placed or left, no start stands before its earliest tick, and starts are 60 ticks apart. -/
theorem State.placeAll_spec (l : List Draw) (last : Option Nat) (left rest : List Nat) :
    (s.placeAll l last left rest).1.length + (s.placeAll l last left rest).2 = left.length + rest.length
      ∧ (∀ p ∈ (s.placeAll l last left rest).1, p.1 ∈ rest ∧ s.earliest last ≤ p.2)
      ∧ (s.placeAll l last left rest).1.Pairwise fun p q => p.2 + 60 ≤ q.2 := by
  induction rest generalizing l last left with
  | nil => simp [State.placeAll]
  | cons b rest ih =>
    rw [State.placeAll_cons]
    cases hf : s.findTick l (s.envTen b) ((left ++ rest).map s.envTen) (s.curve b) 4096 (s.earliest last) with
    | none =>
      obtain ⟨hlen, hmem, hsp⟩ := ih l last (left ++ [b])
      refine ⟨?_, fun p hp => ?_, hsp⟩
      · rw [Option.elim_none, hlen, List.length_append, List.length_cons, List.length_nil, List.length_cons]
        omega
      · obtain ⟨hin, hge⟩ := hmem p hp
        exact ⟨List.mem_cons_of_mem b hin, hge⟩
    | some t =>
      have ht := State.findTick_ge hf
      have hnext := s.earliest_some t
      obtain ⟨hlen, hmem, hsp⟩ := ih (l ++ [s.placedDraw b t]) (some t) left
      refine ⟨?_, fun p hp => ?_, List.pairwise_cons.mpr ⟨fun q hq => hnext.trans (hmem q hq).2, hsp⟩⟩
      · rw [Option.elim_some, List.length_cons, List.length_cons]
        omega
      · rcases List.mem_cons.mp hp with rfl | hp
        · exact ⟨List.mem_cons_self, ht⟩
        · obtain ⟨hin, hge⟩ := hmem p hp
          exact ⟨List.mem_cons_of_mem b hin, by omega⟩

/-- A replan stores the plan made from the bays that wait (R450, R453). -/
theorem State.replan_plans (hd : s.env.replanDue = true) (hup : s.plannerUp = true) :
    let r := s.placeAll s.draws s.env.lastWritten [] s.env.waiting
    s.replan.env = { s.env with placed := r.1, unplaced := r.2, replanDue := false
                                plan := s.draws ++ r.1.map fun p => s.placedDraw p.1 p.2 } ∧ s.replan.bays = s.bays := by
  rw [State.replan, hd, hup, if_neg (by decide)]
  dsimp only
  split
  · exact ⟨rfl, rfl⟩
  · rw [State.notice_env, State.notice_bays]
    exact ⟨rfl, rfl⟩

end

/-! ### Measured starts (R444, R445) -/

theorem State.length_curve (s : State) (n : Nat) : (s.curve n).length = 64 := by
  unfold State.curve
  dsimp only
  split
  · rw [List.length_map, List.length_range]
  · rfl

theorem length_recordBytes (points : List Byte) (starts learned tick : Nat) : (recordBytes points starts learned tick).length = 192 := by
  simp [recordBytes, leBytes_length]

theorem padBytes_of_length {n : Nat} {l : List Byte} (h : l.length = n) : padBytes n l = l := by
  rw [padBytes, ← h, List.take_left]

/-- The entries of a list with their places are those of its range of places. -/
theorem map_zipIdx_eq_map_range {α : Type} (f : Nat → Nat → α) (l : List Nat) :
    (l.zipIdx.map fun p => f p.1 p.2) = (List.range l.length).map fun i => f (l.getD i 0) i :=
  List.ext_getElem (by simp) fun i hi _ => by
    rw [List.length_map, List.length_zipIdx] at hi
    simp [hi]

/-- The bytes of the new points of bay `n`'s profile after a measured start (R445). -/
def State.newPoints (s : State) (n shunt : Nat) (points : List (Int × Nat)) : List Byte :=
  (List.range 64).flatMap fun i => leBytes 2 (newPoint ((s.curve n).getD i 0) (points.getD i (0, 0)) shunt)

theorem State.updateProfile_pendingLines (s : State) (n shunt : Nat) (points : List (Int × Nat)) :
    let r := recordBytes (s.newPoints n shunt points) (satInc 65535 (s.profileStarts n)) 1 s.cal.tick
    (s.updateProfile n shunt points).fur.pendingLines = s.fur.pendingLines
      ++ [(profileLine n, r.take 64, 0), (profileLine n + 1, (r.drop 64).take 64, 0), (profileLine n + 2, r.drop 128, 0)] := by
  intro r
  have hlen : r.length = 192 := length_recordBytes ..
  have hnew : ((s.curve n).zipIdx.map fun p => newPoint p.1 (points.getD p.2 (0, 0)) shunt).flatMap (fun v => leBytes 2 v)
      = s.newPoints n shunt points := by
    rw [map_zipIdx_eq_map_range fun x i => newPoint x (points.getD i (0, 0)) shunt, State.length_curve, List.flatMap_map]
    rfl
  rw [State.updateProfile, hnew]
  change ((s.fur.pendingLines ++ [(profileLine n, padBytes 64 (r.take 64), 0)]) ++ [(profileLine n + 1, padBytes 64 ((r.drop 64).take 64), 0)])
    ++ [(profileLine n + 2, padBytes 64 (r.drop 128), 0)] = _
  rw [padBytes_of_length (by simp [hlen]), padBytes_of_length (by simp [hlen]), padBytes_of_length (by simp [hlen]),
    List.append_assoc, List.append_assoc]
  rfl

theorem BState.driven_of_on_or_starting {b : BState} (h : b = .on ∨ b = .starting) : b.driven = true := by
  rcases h with rfl | rfl <;> rfl

theorem State.profileUpdate_eq {s : State} {n t : Nat} (hm : (s.bayAt n).measure = some t) (ht : t + 1024 ≤ s.cal.tick)
    (hd : (s.bayAt n).st.driven = true) : s.profileUpdate n =
      ((s.updateProfile n (s.shunt n .main) (s.bayAt n).points).modBay n fun b => { b with measure := none, points := [] }).settle := by
  rw [State.profileUpdate, hm]
  dsimp only
  rw [hd, decide_eq_false (Nat.not_lt.mpr ht)]
  rfl

theorem newPoint_unsampled (old sh : Nat) (sum : Int) : newPoint old (sum, 0) sh = old := if_pos rfl

/-- A point that 16 bits hold is the weighted mean of R445. -/
theorem newPoint_sampled {old count sh : Nat} {sum : Int} (hc : 0 < count) (h0 : 0 ≤ (3 * (old : Int) + pointMean sum count sh + 2) / 4)
    (h1 : (3 * (old : Int) + pointMean sum count sh + 2) / 4 < 65536) :
    (newPoint old (sum, count) sh : Int) = (3 * (old : Int) + pointMean sum count sh + 2) / 4 := by
  rw [newPoint, if_neg (Nat.ne_of_gt hc)]
  dsimp only
  rw [if_pos (by simp [h0, h1]), Int.toNat_of_nonneg h0]

/-! ### The commands of the guard and the planner -/

section
variable {s : State} (hr : s.sys.inReset = false) (hu : s.sys.fieldUp = true)
include hr hu

theorem exec_guardSlot (m a : List Int) : exec (.guardSlot m a) s = .next (s.guardSlot m a) :=
  onField_of_running hr hu fun s => s.guardSlot m a
theorem exec_guardHold : exec .guardHold s = .next s.guardHold := onField_of_running hr hu State.guardHold
theorem exec_guardHoldClear : exec .guardHoldClear s = .next s.guardClear := onField_of_running hr hu State.guardClear
theorem exec_guardRelease : exec .guardRelease s = .next s.guardRelease := onField_of_running hr hu State.guardRelease
theorem exec_guardShed : exec .guardShed s = .next s.guardShed := onField_of_running hr hu State.guardShed
theorem exec_plannerStart (n : BayNo) : exec (.plannerStart n) s = .next (s.ticked (s.lcTicks.plannerStart n.val)) :=
  onField_of_running hr hu fun s => s.ticked (s.lcTicks.plannerStart n.val)
theorem exec_replan : exec .replan s = .next s.replan := onField_of_running hr hu State.replan
theorem exec_profileUpdate (n : BayNo) : exec (.profileUpdate n) s = .next (s.profileUpdate n.val) :=
  onField_of_running hr hu fun s => s.profileUpdate n.val
theorem exec_envPeakRead : exec .envPeakRead s = .next (s.modEnv fun e => { e with peakM := 0, peakA := 0 }) :=
  onField_of_running hr hu fun s => (s.readEnvPort 5).2

end

/-- Settles O57: the guard by the equations of its events, a written start by `State.startWritten_spec`, a plan by
`State.placeAll_spec` and `State.findTick_first`, and a measured start by `State.updateProfile_pendingLines`. -/
theorem guardAndPlanner : Obligations.GuardAndPlanner := by
  intro s n m a hr hu e tm ta
  have hn := n.isLt
  refine ⟨?slot, fun hh hd => ?hold, fun hh hc => ?clear, fun k l hq hh hp => ?release, fun k l ho hd => ?shed,
    fun p hp => ?start, fun hd hup => ?replan, fun l t o c x => s.fits_iff l t.val o c x,
    fun t hm ht hst => ?profile, fun old count sh sum => ⟨newPoint_unsampled old sh sum, fun hc h0 h1 => newPoint_sampled hc h0 h1⟩,
    exec_envPeakRead hr hu⟩
  case slot =>
    refine ⟨_, exec_guardSlot hr hu m a, ?_⟩
    rw [State.guardSlot_bays, State.guardSlot, State.modEnv_env, Env.countSlot_eq]
    refine ⟨rfl, rfl, rfl, rfl, rfl, rfl, rfl, rfl, rfl, fun j => ?_⟩
    exact ⟨vget_ofFn _ j, vget_ofFn _ j⟩
  case hold =>
    refine ⟨_, exec_guardHold hr hu, ?_⟩
    rw [State.guardHold, if_pos hd, State.assertHold_env hh, State.assertHold_bays]
    exact ⟨rfl, rfl, rfl, rfl⟩
  case clear =>
    obtain ⟨henv, hbays⟩ := State.guardClear_ends hh hc
    refine ⟨_, exec_guardHoldClear hr hu, ?_⟩
    rw [henv]
    exact ⟨rfl, rfl, hbays⟩
  case release =>
    refine ⟨_, by rw [exec_guardRelease hr hu, State.guardRelease_starts hq hh hp], ?_⟩
    rw [State.modEnv_bayAt, State.enterStarting_bayAt k.isLt, State.modEnv_env, State.enterStarting_env]
    exact ⟨rfl, rfl, rfl, by simp⟩
  case shed =>
    refine ⟨s.modEnv fun e => { e with shedRun := 0, shedEv := true, sheds := satInc 255 e.sheds }, ?_, rfl, rfl, rfl, rfl⟩
    rw [exec_guardShed hr hu, State.guardShed_trips ho hd]
  case start =>
    intro w hreach hup hl
    exact ⟨w.startWritten n.val, by rw [exec_plannerStart hr hu, State.plannerStart_writes hp hreach hup hl],
      State.startWritten_spec hn hl⟩
  case replan =>
    obtain ⟨henv, hbays⟩ := State.replan_plans hd hup
    obtain ⟨hlen, hmem, hspaced⟩ := State.placeAll_spec (s := s) s.draws e.lastWritten [] e.waiting
    refine ⟨_, exec_replan hr hu, ?_⟩
    rw [henv]
    refine ⟨rfl, rfl, hbays, ?_, fun p hp => ?_, hspaced, rfl, fun b l t hw => ?_⟩
    · rw [← Nat.zero_add e.waiting.length]
      exact hlen
    · obtain ⟨hin, hge⟩ := hmem p hp
      refine ⟨hin, (s.tick_lt_earliest _).trans_le hge, fun k hk => ?_⟩
      rw [show e.lastWritten = some k from hk] at hge
      exact (s.earliest_some k).trans hge
    · intro t0 fits h0 ht hfit hno
      have hfind : s.findTick s.draws (s.envTen b) (([] ++ l).map s.envTen) (s.curve b) 4096 (s.earliest e.lastWritten) = some t :=
        State.findTick_first (by have := s.tick_lt_earliest e.lastWritten; omega) h0 ht hfit hno
      dsimp only
      rw [show s.env.waiting = b :: l from hw, State.placeAll_cons, hfind, Option.elim_some, List.head?_cons]
  case profile =>
    refine ⟨_, by rw [exec_profileUpdate hr hu, State.profileUpdate_eq hm ht (BState.driven_of_on_or_starting hst)], ?_⟩
    rw [State.bayAt_modBay_self _ _ _ hn]
    exact ⟨rfl, rfl, State.updateProfile_pendingLines ..⟩

end Sys2Proof.Machine

/-! SUPPORT. The statements of the Oluique instructions: what an instruction that issues does to its thread, by the form of the
instruction. -/

namespace Sys2Proof.Machine

/-! ### What an instruction that issues leaves -/

/-- What is done to a thread matters only at the thread as it stands. -/
theorem State.executed_congr {u : State} {t : Nat} {f g : Thread → Thread} (h : f (u.th t) = g (u.th t)) :
    u.executed t f = u.executed t g := by
  simp only [State.executed, State.modTh, State.modSow, vmod]
  rw [show vget u.sow.threads t = u.th t from rfl, h]

section
variable {s u : State} {k : CoreId} {t : Nat} (h : Issues s k t u)
include h

/-- An instruction that only changes its thread goes on at the next address. -/
theorem Issues.onThread (f : Thread → Thread) : Machine.oluique s k always (Machine.onThread f) = .next (u.executed t f) := h.oluique rfl

/-- The same, said of the thread as it stands. -/
theorem Issues.executes {f g : Thread → Thread} (hf : f (u.th t) = g (u.th t)) :
    Machine.oluique s k always (Machine.onThread f) = .next (u.executed t g) :=
  (h.onThread f).trans (congrArg _ (State.executed_congr hf))

theorem Issues.went {body : State → Nat → Did} {v : State} (hb : body u t = .went v) :
    Machine.oluique s k always body = .next (v.wentOn t (u.th t).pc) := by
  rw [h.oluique rfl, hb]; rfl

theorem Issues.jumped {body : State → Nat → Did} {v : State} {a : Nat} (hb : body u t = .jumped v a) :
    Machine.oluique s k always body = .next (v.goPc t (u.th t).pc a) := by
  rw [h.oluique rfl, hb]; rfl

theorem Issues.trapped {body : State → Nat → Did} {c : Nat} {d : Word} (hb : body u t = .trapped c d) :
    Machine.oluique s k always body = .next (u.trap t k.val c (u.th t).pc (u.th t).pc d) := by
  rw [h.oluique rfl, hb]; rfl

theorem Issues.left {body : State → Nat → Did} {v : State} (hb : body u t = .left v) :
    Machine.oluique s k always body = .next v := by
  rw [h.oluique rfl, hb]; rfl

end

/-! ### Integers (R547) -/

theorem addCarry_eq (a b : Word) (c : Bool) : addCarry a b c =
    (a + b + BitVec.ofNat 32 (bitNat c), decide (2 ^ 32 ≤ a.toNat + b.toNat + bitNat c)) := by
  simp [addCarry, wordOf, BitVec.ofNat_add]

theorem subBorrow_eq (a b : Word) (c : Bool) : subBorrow a b c =
    (a - b - BitVec.ofNat 32 (bitNat c), decide (a.toNat < b.toNat + bitNat c)) := by
  have hc : bitNat c ≤ 1 := by cases c <;> decide
  refine Prod.ext (BitVec.eq_of_toNat_eq ?_) rfl
  simp only [subBorrow, wordOf, BitVec.toNat_sub, BitVec.toNat_ofNat]
  have := a.isLt
  have := b.isLt
  omega

theorem addCarry_false (a b : Word) : addCarry a b false = (a + b, decide (2 ^ 32 ≤ a.toNat + b.toNat)) :=
  Prod.ext ((congrArg Prod.fst (addCarry_eq a b false)).trans (BitVec.add_zero _)) rfl

theorem subBorrow_false (a b : Word) : subBorrow a b false = (a - b, decide (a.toNat < b.toNat)) :=
  Prod.ext ((congrArg Prod.fst (subBorrow_eq a b false)).trans (BitVec.sub_zero _)) rfl

/-- Settles O8: each form is its operation on the register file and c, which `addCarry_eq` and `subBorrow_eq` give. -/
theorem carryArithmetic : Obligations.CarryArithmetic := by
  intro s u k t rd ra rb h
  refine ⟨h.executes ?add, h.executes ?addc, h.executes ?sub, h.executes ?subc⟩
  case add => simp only [rc, Bool.false_and, addCarry_false, Thread.putReg, Thread.setFlag, tsC]
  case addc => simp only [rc, Bool.true_and, addCarry_eq, Thread.putReg, Thread.setFlag, Thread.flag, tsC]
  case sub => simp only [rc, Bool.false_and, subBorrow_false, Thread.putReg, Thread.setFlag, tsC]
  case subc => simp only [rc, Bool.true_and, subBorrow_eq, Thread.putReg, Thread.setFlag, Thread.flag, tsC]

theorem truthWord_slt (a b : Word) : truthWord (a.slt b) = if a.toInt < b.toInt then 1#32 else 0#32 := by
  by_cases h : a.toInt < b.toInt <;> simp [truthWord, BitVec.slt, h, bitNat, wordOf]

theorem truthWord_ult (a b : Word) : truthWord (a.ult b) = if a.toNat < b.toNat then 1#32 else 0#32 := by
  by_cases h : a.toNat < b.toNat <;> simp [truthWord, BitVec.ult, h, bitNat, wordOf]

/-- Settles O9: each form writes rd with its operation; the comparisons are `truthWord_slt` and `truthWord_ult`. -/
theorem registerForms : Obligations.RegisterForms := by
  intro s u k t rd ra rb n imm h put
  refine ⟨h.onThread _, h.onThread _, h.onThread _, h.onThread _, h.onThread _, h.onThread _, ?slt, ?sltu, h.onThread _,
    h.onThread _, h.onThread _, h.onThread _, h.onThread _, h.onThread _, h.onThread _, h.onThread _, h.onThread _, ?slti,
    h.onThread _⟩
  all_goals exact h.executes (by simp only [rr, ru, truthWord_slt, truthWord_ult, immS, Thread.putReg])

theorem vget_regPut (regs : Vector Word 32) (rd r : Reg) (v : Word) :
    vget (regPut regs rd v) r = if r = rd ∧ rd.val ≠ 0 then v else vget regs r := by
  by_cases h0 : rd.val = 0
  · simp [regPut, h0]
  · rw [regPut, if_neg h0, vget_vset]
    exact if_congr (by rw [Fin.val_inj, eq_comm]; exact and_congr_right fun _ => iff_of_true rd.isLt h0) rfl rfl

/-- Settles O10: a register reads as its entry of the file, g0 as 0. -/
theorem registerZero : Obligations.RegisterZero := by
  intro h rd r v
  refine ⟨rfl, ?_⟩
  by_cases h0 : r.val = 0
  · have hr : ¬ (r = rd ∧ rd.val ≠ 0) := fun ⟨e, hn⟩ => hn (e ▸ h0)
    rw [if_neg hr, Thread.reg, Thread.reg, if_pos h0, if_pos h0]
  · simp only [Thread.reg, if_neg h0, Thread.putReg, vget_regPut]

/-! ### Control (R562 to R569) -/

/-- A branch goes to its target where its comparison holds, otherwise to the next address. -/
theorem Issues.branched {s u : State} {k : CoreId} {t : Nat} (h : Issues s k t u) {test : Word → Word → Bool} {ra rb : Reg}
    {off : BitVec 16} {taken : Prop} [Decidable taken] (ht : test ((u.th t).reg ra) ((u.th t).reg rb) = decide taken) :
    Machine.oluique s k always (branch test ra rb off) = .next (u.goPc t (u.th t).pc
      (if taken then ((((u.th t).pc : Int) + 4 * off.toInt) % 16777216).toNat else nextPc (u.th t).pc)) := by
  by_cases hc : taken
  · rw [if_pos hc]
    exact h.jumped (by simp [branch, ht, hc, branchTarget])
  · rw [if_neg hc]
    exact h.went (by simp [branch, ht, hc])

/-- Settles O14: the six branches are one form, `Issues.branched`, each with its comparison. -/
theorem branches : Obligations.Branches := by
  intro s u k t ra rb off h
  refine ⟨h.branched (Bool.beq_eq_decide_eq _ _), h.branched ?_, h.branched rfl, h.branched ?_, h.branched rfl, h.branched ?_⟩
  · rw [bne, Bool.beq_eq_decide_eq, ← decide_not]
  · rw [BitVec.slt, ← decide_not]
    exact decide_eq_decide.2 Int.not_lt
  · rw [BitVec.ult, ← decide_not]
    exact decide_eq_decide.2 Nat.not_lt

/-- A call with room on the return stack pushes the next address and transfers. -/
theorem Issues.called {s u : State} {k : CoreId} {t : Nat} (h : Issues s k t u) (target : Thread → Nat)
    (hd : (u.th t).rsd ≠ 12 ∨ (u.th t).ts.getLsbD 19 = true) : Machine.oluique s k always (callTo target) =
      .next ((u.modTh t fun h => h.push (nextPc h.pc)).goPc t (u.th t).pc (target (u.th t))) :=
  h.jumped (by rcases hd with hd | hd <;> simp [callTo, Thread.flag, tsRsw, hd, -BitVec.getLsbD_eq_getElem])

/-- A call at depth 12 with rsw 0 traps RSOVF. -/
theorem Issues.callOverflows {s u : State} {k : CoreId} {t : Nat} (h : Issues s k t u) (target : Thread → Nat)
    (hd : (u.th t).rsd = 12) (hw : (u.th t).ts.getLsbD 19 = false) : Machine.oluique s k always (callTo target) =
      .next (u.trap t k.val 5 (u.th t).pc (u.th t).pc 12#32) :=
  h.trapped (by simp only [callTo, Thread.flag, tsRsw, hd, hw]; rfl)

/-- Settles O15: a jump transfers, a call is `Issues.called` or `Issues.callOverflows`, and RET looks at the depth likewise. -/
theorem jumpsAndCalls : Obligations.JumpsAndCalls := by
  intro s u k t ra off h
  refine ⟨h.jumped rfl, h.jumped rfl, fun hd => ⟨h.called _ hd, h.called _ hd⟩, fun hd => h.jumped (if_neg ?pops),
    fun hd hw => ⟨h.callOverflows _ hd hw, h.callOverflows _ hd hw⟩, fun hd hw => h.trapped (if_pos ?underflows)⟩
  case pops => rcases hd with hd | hd <;> simp [Thread.flag, tsRsw, hd, -BitVec.getLsbD_eq_getElem]
  case underflows => simp [Thread.flag, tsRsw, hd, hw, -BitVec.getLsbD_eq_getElem]

/-- A bit of TS after TSW: bits 3 to 15 stand on LC, which does not have them. -/
theorem tsMerge_getLsbD (t : Nat) (ts : BitVec 20) (a b : Word) {i : Nat} (hi : i < 20) : (tsMerge t ts a b).getLsbD i =
    if b.getLsbD i = true ∧ ¬ (120 ≤ t ∧ 3 ≤ i ∧ i < 16) then a.getLsbD i else ts.getLsbD i := by
  have hlc : (0xF0007#20)[i] = !decide (3 ≤ i ∧ i < 16) := by revert hi; revert i; decide
  have hall : (0xFFFFF#20)[i] = true := by revert hi; revert i; decide
  simp only [tsMerge, lcTsMask, BitVec.getLsbD_eq_getElem hi]
  by_cases ht : 120 ≤ t <;> by_cases hm : 3 ≤ i ∧ i < 16 <;> cases hb : b.getLsbD i <;>
    simp [ht, hm, hb, hlc, hall]

/-- Settles O16: each form changes only its thread, TSW by `tsMerge_getLsbD`. -/
theorem statusForms : Obligations.StatusForms := by
  intro s u k t rd ra rb imm h
  refine ⟨h.onThread id, h.went rfl, ⟨fun h => { h with ts := tsMerge t h.ts (h.reg ra) (h.reg rb) }, h.went rfl, fun x => ?_⟩,
    h.trapped rfl⟩
  exact ⟨rfl, fun i hi => tsMerge_getLsbD t x.ts _ _ hi⟩

end Sys2Proof.Machine

/-! SUPPORT. Loads, stores and accesses of the instruction space: what they read, what they store, what they leave, where they
trap. -/

namespace Sys2Proof.Machine

/-! ### Values of units -/

theorem leNat_lt (l : List Byte) : leNat l < 256 ^ l.length := by
  induction l with
  | nil => simp [leNat]
  | cons b l ih =>
    have := b.isLt
    simp only [leNat, List.length_cons, Nat.pow_succ]
    omega

theorem Mem.gets_length (d : Nat → Byte) (m : Mem) (a n : Nat) : (Mem.gets d m a n).length = n := by
  induction n generalizing a with
  | zero => rfl
  | succ n ih => simp [Mem.gets, ih]

theorem State.readData_lt (s : State) (x : DataAt) (n : Nat) : s.readData x n < 256 ^ n := by
  have h (m : Mem) (a : Nat) : Mem.unit zeroByte m a n < 256 ^ n := by
    simpa [Mem.unit, Mem.gets_length] using leNat_lt (Mem.gets zeroByte m a n)
  cases x <;> exact h _ _

theorem signedOf_eq_toInt (n v : Nat) (hn : 0 < n) (h : v < 2 ^ n) : signedOf n v = (BitVec.ofNat n v).toInt := by
  obtain ⟨m, rfl⟩ : ∃ m, n = m + 1 := ⟨n - 1, by omega⟩
  rw [BitVec.toInt_eq_toNat_cond, BitVec.toNat_ofNat, Nat.mod_eq_of_lt h, signedOf, Nat.add_sub_cancel]
  have h2 : 2 ^ (m + 1) = 2 * 2 ^ m := Nat.pow_succ'
  by_cases hv : v < 2 ^ m
  · rw [if_pos hv, if_pos (by omega)]
  · rw [if_neg hv, if_neg (by omega)]

/-- Sign extension of a value of `n` bytes is that of its bit vector. -/
theorem signExt_eq {n v : Nat} (hn : 0 < n) (h : v < 256 ^ n) : signExt n v = (BitVec.ofNat (8 * n) v).signExtend 32 := by
  rw [signExt, signedOf_eq_toInt (8 * n) v (by omega) (by rwa [Nat.pow_mul])]
  rfl

/-! ### Loads -/

theorem dataAccess_of_some {n : Nat} {ra : Reg} {imm : BitVec 16} {f : State → Nat → DataAt → Did} {u : State} {t : Nat}
    {x : DataAt} (ha : ((u.th t).reg ra + imm.signExtend 32).toNat % n = 0)
    (hx : u.dataAt t ((u.th t).reg ra + imm.signExtend 32).toNat = some x) : dataAccess n ra imm f u t = f u t x := by
  simp only [dataAccess, effective, immS, ha, hx, ne_eq, not_true_eq_false, if_false]

theorem dataAccess_of_misaligned {n : Nat} {ra : Reg} {imm : BitVec 16} {f : State → Nat → DataAt → Did} {u : State} {t : Nat}
    (ha : ((u.th t).reg ra + imm.signExtend 32).toNat % n ≠ 0) :
    dataAccess n ra imm f u t = .trapped 14 (wordOf ((u.th t).reg ra + imm.signExtend 32).toNat) := if_pos ha

theorem dataAccess_of_none {n : Nat} {ra : Reg} {imm : BitVec 16} {f : State → Nat → DataAt → Did} {u : State} {t : Nat}
    (ha : ((u.th t).reg ra + imm.signExtend 32).toNat % n = 0)
    (hx : u.dataAt t ((u.th t).reg ra + imm.signExtend 32).toNat = none) :
    dataAccess n ra imm f u t = .trapped 3 (wordOf ((u.th t).reg ra + imm.signExtend 32).toNat) := by
  simp only [dataAccess, effective, immS, ha, hx, ne_eq, not_true_eq_false, if_false]

theorem instrAccess_of_some {ra : Reg} {imm : BitVec 16} {f : State → Nat → Nat → InstrAt → Did} {u : State} {t : Nat}
    {x : InstrAt} (ha : ((u.th t).reg ra + imm.signExtend 32).toNat % 4 = 0)
    (hx : u.instrAt t ((u.th t).reg ra + imm.signExtend 32).toNat = some x) :
    instrAccess ra imm f u t = f u t ((u.th t).reg ra + imm.signExtend 32).toNat x := by
  simp only [instrAccess, effective, immS, ha, hx, ne_eq, not_true_eq_false, if_false]

theorem instrAccess_of_misaligned {ra : Reg} {imm : BitVec 16} {f : State → Nat → Nat → InstrAt → Did} {u : State} {t : Nat}
    (ha : ((u.th t).reg ra + imm.signExtend 32).toNat % 4 ≠ 0) :
    instrAccess ra imm f u t = .trapped 14 (wordOf ((u.th t).reg ra + imm.signExtend 32).toNat) := if_pos ha

section
variable {s u : State} {k : CoreId} {t : Nat} (h : Issues s k t u) {rd ra : Reg} {imm : BitVec 16}
include h

/-- A load of an aligned address in the data space has its value come after one delay slot. -/
theorem Issues.loaded {n : Nat} (ext : Nat → Word) {x : DataAt} (ha : ((u.th t).reg ra + imm.signExtend 32).toNat % n = 0)
    (hx : u.dataAt t ((u.th t).reg ra + imm.signExtend 32).toNat = some x) : Machine.oluique s k always (load n ext rd ra imm) =
      .next (u.executed t fun h => { h with delayed := h.delayed ++ [⟨rd.val, ext (u.readData x n), 1⟩] }) :=
  h.went (dataAccess_of_some ha hx)

/-- The same of a signed load. -/
theorem Issues.loadedSigned {n : Nat} (hn : 0 < n) {x : DataAt} (ha : ((u.th t).reg ra + imm.signExtend 32).toNat % n = 0)
    (hx : u.dataAt t ((u.th t).reg ra + imm.signExtend 32).toNat = some x) :
    Machine.oluique s k always (load n (signExt n) rd ra imm) = .next (u.executed t fun h =>
      { h with delayed := h.delayed ++ [⟨rd.val, (BitVec.ofNat (8 * n) (u.readData x n)).signExtend 32, 1⟩] }) := by
  rw [h.loaded _ ha hx, signExt_eq hn (u.readData_lt x n)]

end

/-- Settles O11: a load is `Issues.loaded`, with its extension; IRD reads the word of the instruction space. -/
theorem loads : Obligations.Loads := by
  intro s u k t rd ra imm x y h
  exact ⟨fun ha hx => h.loaded _ ha hx, fun ha hx => ⟨h.loadedSigned (by decide) ha hx, h.loaded _ ha hx⟩,
    fun hx => ⟨h.loadedSigned (by decide) (Nat.mod_one _) hx, h.loaded _ (Nat.mod_one _) hx⟩,
    fun ha hy => h.went (instrAccess_of_some ha hy)⟩

/-! ### Where accesses trap -/

theorem State.dataAt_lc (s : State) {t a : Nat} (ht : 120 ≤ t) (ha : 0x4000 ≤ a) : s.dataAt t a = none := by
  simp [State.dataAt, ht, Nat.not_lt.2 ha]

theorem State.dataAt_above (s : State) {t a : Nat} (ht : t < 24) (ha : 0x10100000 ≤ a) : s.dataAt t a = none := by
  have h1 : ¬ 120 ≤ t := by omega
  have h2 : ¬ a < 0x10100000 := by omega
  have h3 : ¬ a < 0x40000 := by omega
  have h4 : isPlot t = false := by simp [isPlot]; omega
  simp [State.dataAt, h1, h2, h3, h4]

/-- An aligned IWR by a plot traps ISPACE, wherever it leads. -/
theorem Issues.plotStoresNoInstr {s u : State} {k : CoreId} {t : Nat} (h : Issues s k t u) {rs ra : Reg} {imm : BitVec 16}
    (ha : ((u.th t).reg ra + imm.signExtend 32).toNat % 4 = 0) (hp : isPlot t = true) : exec (.iwr k rs ra imm) s =
      .next (u.trap t k.val 4 (u.th t).pc (u.th t).pc (BitVec.ofNat 32 ((u.th t).reg ra + imm.signExtend 32).toNat)) := by
  refine h.trapped ?_
  cases hx : u.instrAt t ((u.th t).reg ra + imm.signExtend 32).toNat with
  | none => simp only [instrAccess, effective, immS, ha, hx, ne_eq, not_true_eq_false, if_false]; rfl
  | some x => rw [instrAccess_of_some ha hx, if_pos hp]; rfl

/-- Settles O13: ALIGN comes before the space is looked at, then the place decides. -/
theorem accessTraps : Obligations.AccessTraps := by
  intro s u k t rd ra imm h
  refine ⟨fun ha => ?words, fun ha => ?halves, fun ha hx => ?outside, h.plotStoresNoInstr, u.dataAt_lc, u.dataAt_above⟩
  case words =>
    have hd (f) : Machine.oluique s k always (dataAccess 4 ra imm f) = _ := h.trapped (dataAccess_of_misaligned ha)
    have hi (f) : Machine.oluique s k always (instrAccess ra imm f) = _ := h.trapped (instrAccess_of_misaligned ha)
    exact ⟨hd _, hd _, hd _, hi _, hi _⟩
  case halves =>
    have hd (f) : Machine.oluique s k always (dataAccess 2 ra imm f) = _ := h.trapped (dataAccess_of_misaligned ha)
    exact ⟨hd _, hd _, hd _⟩
  case outside =>
    have hd (f) : Machine.oluique s k always (dataAccess 4 ra imm f) = _ := h.trapped (dataAccess_of_none ha hx)
    exact ⟨hd _, hd _⟩

/-! ### Stores -/

/-- What stands before an instruction's own effect touches the Sower's part alone: threads, and the caches. -/
theorem State.landList_frame (s : State) (k t : Nat) (l : List Inter) (h : (s.landList k t l).2 = false) :
    (s.landList k t l).1 = { s with sow := { s.sow with threads := (s.landList k t l).1.sow.threads } } := by
  induction l generalizing s with
  | nil => rfl
  | cons i l ih =>
    unfold State.landList at h ⊢
    dsimp only at h ⊢
    split at h
    next => simp at h
    next hi => rw [if_neg hi]; exact (ih _ h).trans rfl

theorem State.touchCache_frame (s : State) (k : Nat) (x : InstrAt) :
    s.touchCache k x = { s with sow := { s.sow with cores := (s.touchCache k x).sow.cores } } := by
  unfold State.touchCache
  split
  · split <;> rfl
  · rfl

theorem Issues.frame {s u : State} {k : CoreId} {t : Nat} (h : Issues s k t u) :
    u = { s with sow := { s.sow with threads := u.sow.threads, cores := u.sow.cores } } := by
  obtain ⟨-, hl, x, -, rfl⟩ := h
  have hw : s.written k.val t = { s with sow := { s.sow with threads := (s.written k.val t).sow.threads } } := by
    unfold State.written State.landInters
    rw [State.landList_frame s _ _ _ hl]
    rfl
  rw [State.touchCache_frame, hw]

section
variable {s u : State} {k : CoreId} {t : Nat} (h : Issues s k t u)
include h

theorem Issues.mems : u.mems = s.mems := by rw [h.frame]
theorem Issues.gran : u.gran = s.gran := by rw [h.frame]
theorem Issues.fur : u.fur = s.fur := by rw [h.frame]
theorem Issues.sdb : u.sdb = s.sdb := by rw [h.frame]

end

theorem DataAt.covers_sram {a n : Nat} {y : DataAt} (h : ¬ (DataAt.sram a).covers n y) (b : Nat) (hy : y = .sram b) :
    b < a ∨ a + n ≤ b := by subst hy; simp [DataAt.covers] at h; omega

theorem DataAt.covers_granary {a n : Nat} {y : DataAt} (h : ¬ (DataAt.granary a).covers n y) (b : Nat) (hy : y = .granary b) :
    b < a ∨ a + n ≤ b := by subst hy; simp [DataAt.covers] at h; omega

theorem DataAt.covers_latch {a n : Nat} {y : DataAt} (h : ¬ (DataAt.latch a).covers n y) (b : Nat) (hy : y = .latch b) :
    b < a ∨ a + n ≤ b := by subst hy; simp [DataAt.covers] at h; omega

/-- A unit reads as it was stored. -/
theorem State.readData_writeData (s : State) (hm : s.memOk) (x : DataAt) (n v : Nat) :
    (s.writeData x n v).readData x n = v % 256 ^ n := by
  obtain ⟨hd, -, hl, -, -, hg, -⟩ := hm
  cases x with
  | sram a => exact Mem.unit_putUnit _ _ a n v hd
  | granary a => exact Mem.unit_putUnit _ _ a n v hg
  | latch a => exact Mem.unit_putUnit _ _ a n v hl

/-- A byte that the stored unit does not cover reads as before. -/
theorem State.readData_writeData_out (s : State) (hm : s.memOk) {x y : DataAt} {n v : Nat} (h : ¬ x.covers n y) :
    (s.writeData x n v).readData y 1 = s.readData y 1 := by
  obtain ⟨hd, -, hl, -, -, hg, -⟩ := hm
  have byte (m : Mem) (a b : Nat) (hw : Mem.wf zeroByte m = true) (hb : ¬ (a ≤ b ∧ b < a + n)) :
      Mem.unit zeroByte (Mem.putUnit zeroByte m a n v) b 1 = Mem.unit zeroByte m b 1 := by
    simp only [Mem.unit, Mem.gets, Mem.get_putUnit_out zeroByte m a n v b hw (by omega)]
  cases x <;> cases y
  case sram.sram a b => exact byte _ a b hd h
  case granary.granary a b => exact byte _ a b hg h
  case latch.latch a b => exact byte _ a b hl h
  all_goals rfl

/-- A store touches no instruction memory and neither of the nonvolatile ones. -/
theorem State.writeData_frame (s : State) (x : DataAt) (n v : Nat) : (s.writeData x n v).mems.plotRam = s.mems.plotRam
    ∧ (s.writeData x n v).mems.iram = s.mems.iram ∧ (s.writeData x n v).fur = s.fur ∧ (s.writeData x n v).sdb = s.sdb := by
  cases x <;> exact ⟨rfl, rfl, rfl, rfl⟩

theorem State.readData_congr {s v : State} (hm : v.mems = s.mems) (hg : v.gran = s.gran) (x : DataAt) (n : Nat) :
    v.readData x n = s.readData x n := by cases x <;> simp only [State.readData, hm, hg]

theorem State.memOk_congr {s v : State} (hm : v.mems = s.mems) (hg : v.gran = s.gran) (hf : v.fur = s.fur) (hs : v.sdb = s.sdb) :
    v.memOk ↔ s.memOk := by simp only [State.memOk, hm, hg, hf, hs]

/-- What a store leaves in every memory, whatever it does to its thread. -/
theorem Issues.stored {s u v : State} {k : CoreId} {t : Nat} (h : Issues s k t u) (hm : s.memOk) {x : DataAt} {n w : Nat}
    (hv : v.mems = (u.writeData x n w).mems) (hg : v.gran = (u.writeData x n w).gran) (hf : v.fur = u.fur) (hs : v.sdb = u.sdb) :
    v.readData x n = w % 256 ^ n ∧ (∀ y, ¬ x.covers n y → v.readData y 1 = s.readData y 1) ∧ v.mems.plotRam = s.mems.plotRam
      ∧ v.mems.iram = s.mems.iram ∧ v.fur.mem = s.fur.mem ∧ v.sdb.mem = s.sdb.mem := by
  have hu : u.memOk := (State.memOk_congr h.mems h.gran h.fur h.sdb).2 hm
  obtain ⟨hp, hi, -, -⟩ := u.writeData_frame x n w
  refine ⟨?_, fun y hy => ?_, by rw [hv, hp, h.mems], by rw [hv, hi, h.mems], by rw [hf, h.fur], by rw [hs, h.sdb]⟩
  · rw [State.readData_congr hv hg, u.readData_writeData hu]
  · rw [State.readData_congr hv hg, u.readData_writeData_out hu hy, State.readData_congr h.mems h.gran]

/-- The line of a cache that has been dropped stands in neither way of its set. -/
theorem cacheDrop_absent (l : Nat) (c : List (Nat × Option Nat × Option Nat)) :
    ∀ p ∈ cacheDrop l c, p.1 = l % 64 → p.2.1 ≠ some (l / 64) ∧ p.2.2 ≠ some (l / 64) := by
  have way (w : Option Nat) : dropTag (l / 64) w ≠ some (l / 64) := by unfold dropTag; split <;> simp_all
  intro p hp hl
  obtain ⟨q, -, rfl⟩ := List.mem_map.1 hp
  by_cases hq : q.1 = l % 64
  · simp only [if_pos hq]
    exact ⟨way _, way _⟩
  · rw [if_neg hq] at hl
    exact absurd hl hq

/-- A change made to each core of a list once. -/
theorem State.core_foldl_modCore (f : Core → Core) (l : List Nat) (hl : l.Nodup) (s : State) {j : Nat} (hj : j < 7) :
    (l.foldl (fun s k => s.modCore k f) s).core j = if j ∈ l then f (s.core j) else s.core j := by
  induction l generalizing s with
  | nil => rfl
  | cons k l ih =>
    obtain ⟨hk, hl⟩ := List.nodup_cons.1 hl
    rw [List.foldl_cons, ih hl]
    by_cases hjk : k = j
    · subst hjk
      rw [if_neg hk, State.core_modCore_self _ _ _ hj, if_pos List.mem_cons_self]
    · rw [State.core_modCore_ne _ _ _ _ hjk]
      simp only [List.mem_cons, Ne.symm hjk, false_or]

/-- A line that is dropped leaves each field core with its cache without that line. -/
theorem State.dropTagged_cache (s : State) (l : Nat) (j : Fin 6) :
    ((s.dropTagged l).core j.val).cache = cacheDrop l (s.core j.val).cache := by
  have hj : j.val ∈ List.range 6 := List.mem_range.2 j.isLt
  rw [State.dropTagged, State.core_foldl_modCore _ _ List.nodup_range s (by omega), if_pos hj]

@[simp] theorem State.dropTagged_mems (s : State) (l : Nat) : (s.dropTagged l).mems = s.mems :=
  foldl_frame State.mems (f := fun s k => s.modCore k fun c => { c with cache := cacheDrop l c.cache }) (fun _ _ => rfl) _ s

@[simp] theorem State.dropTagged_gran (s : State) (l : Nat) : (s.dropTagged l).gran = s.gran :=
  foldl_frame State.gran (f := fun s k => s.modCore k fun c => { c with cache := cacheDrop l c.cache }) (fun _ _ => rfl) _ s

/-- What IWR stores in plot RAM, and what it leaves. -/
theorem Issues.plotRamStored {s u : State} {k : CoreId} {t : Nat} (h : Issues s k t u) (hm : s.memOk) (c : Nat) (w : Word) :
    ∃ v : State, u.writeInstr (.plotRam c) w = some v ∧ v.readInstr (.plotRam c) = w ∧ v.mems.data = s.mems.data
      ∧ v.mems.latch = s.mems.latch ∧ v.mems.iram = s.mems.iram ∧ v.gran = s.gran
      ∧ (∀ b, b < c ∨ c + 4 ≤ b → Mem.get zeroByte v.mems.plotRam b = Mem.get zeroByte s.mems.plotRam b)
      ∧ ∀ j : Fin 6, (v.core j.val).cache = cacheDrop ((0x40000 + c) / 64) (u.core j.val).cache := by
  obtain ⟨-, hp, -⟩ := hm
  have hw : w.toNat % 256 ^ 4 = w.toNat := Nat.mod_eq_of_lt w.isLt
  refine ⟨_, rfl, ?_, ?_, ?_, ?_, ?_, fun b hb => ?_, fun j => State.dropTagged_cache _ _ j⟩
  all_goals simp only [State.dropLine, InstrAt.line, State.readInstr, State.dropTagged_mems, State.dropTagged_gran, h.mems, h.gran]
  · rw [Mem.unit_putUnit _ _ _ _ _ hp, hw, wordOf_toNat]
  · rw [Mem.get_putUnit_out _ _ _ _ _ _ hp hb]

/-- What IWR stores in latch instruction RAM, and what it leaves. -/
theorem Issues.latchRamStored {s u : State} {k : CoreId} {t : Nat} (h : Issues s k t u) (hm : s.memOk) (c : Nat) (w : Word) :
    ∃ v : State, u.writeInstr (.latchRam c) w = some v ∧ v.readInstr (.latchRam c) = w ∧ v.mems.data = s.mems.data
      ∧ v.mems.latch = s.mems.latch ∧ v.mems.plotRam = s.mems.plotRam ∧ v.gran = s.gran
      ∧ (∀ b, b < c ∨ c + 4 ≤ b → Mem.get Config.latchIram v.mems.iram b = Mem.get Config.latchIram s.mems.iram b)
      ∧ ∀ j : Fin 6, (v.core j.val).cache = (u.core j.val).cache := by
  obtain ⟨-, -, -, hi, -⟩ := hm
  have hw : w.toNat % 256 ^ 4 = w.toNat := Nat.mod_eq_of_lt w.isLt
  refine ⟨_, rfl, ?_, ?_, ?_, ?_, h.gran, fun b hb => ?_, fun j => rfl⟩
  all_goals simp only [State.readInstr, h.mems]
  · rw [Mem.unit_putUnit _ _ _ _ _ hi, hw, wordOf_toNat]
  · rw [Mem.get_putUnit_out _ _ _ _ _ _ hi hb]

/-- Settles O12: the store of a unit, `Issues.stored`, serves the four forms; IWR goes by the memory that it writes. -/
theorem stores : Obligations.Stores := by
  refine ⟨fun s u k t rs ra imm x hm h => ?data, fun s u k t rs ra imm x c hm h => ?instr⟩
  case data =>
    intro a w stored hx
    have kept {n v : Nat} {y : State} (hv : v % 256 ^ n = w % 256 ^ n) (hmem : y.mems = (u.writeData x n v).mems)
        (hg : y.gran = (u.writeData x n v).gran) (hf : y.fur = (u.writeData x n v).fur)
        (hs : y.sdb = (u.writeData x n v).sdb) : stored y n := by
      obtain ⟨-, -, hfu, hsu⟩ := u.writeData_frame x n v
      obtain ⟨hread, hrest⟩ := h.stored hm hmem hg (hf.trans hfu) (hs.trans hsu)
      exact ⟨hread.trans hv, hrest⟩
    have hw : w % 256 ^ 4 = w := Nat.mod_eq_of_lt ((u.th t).reg rs).isLt
    refine ⟨fun ha => ⟨?_, kept rfl rfl rfl rfl rfl⟩, fun ha => ⟨h.went (dataAccess_of_some ha hx), ?_⟩,
      ⟨h.went (dataAccess_of_some (Nat.mod_one _) hx), ?_⟩, fun ha => ⟨h.went (dataAccess_of_some ha hx), kept rfl rfl rfl rfl rfl⟩⟩
    · rw [← hw]
      exact h.went (dataAccess_of_some ha hx)
    · exact kept (Nat.mod_mod _ _) rfl rfl rfl rfl
    · exact kept (Nat.mod_mod _ _) rfl rfl rfl rfl
  case instr =>
    intro a ha hp hx hc
    have hbody {v : State} (hv : u.writeInstr x ((u.th t).reg rs) = some v) :
        exec (.iwr k rs ra imm) s = .next (v.wentOn t (u.th t).pc) := by
      refine h.went ?_
      rw [instrAccess_of_some ha hx, if_neg (by simp [hp]), hv]
    rcases hc with rfl | rfl
    · obtain ⟨v, hv, hread, hd, hl, hi, hg, hout, hcache⟩ := h.plotRamStored hm c ((u.th t).reg rs)
      refine ⟨_, hbody hv, hread, hd, hl, congrArg _ hg, fun b hb => hout b (hb rfl), fun b _ => by rw [← hi]; rfl,
        fun j => ⟨nofun, fun _ => ⟨hcache j, ?_⟩⟩⟩
      rw [show ((v.wentOn t (u.th t).pc).core j.val).cache = _ from hcache j]
      exact cacheDrop_absent _ _
    · obtain ⟨v, hv, hread, hd, hl, hp, hg, hout, hcache⟩ := h.latchRamStored hm c ((u.th t).reg rs)
      exact ⟨_, hbody hv, hread, hd, hl, congrArg _ hg, fun b _ => by rw [← hp]; rfl, fun b hb => hout b (hb rfl),
        fun j => ⟨fun _ => hcache j, nofun⟩⟩

end Sys2Proof.Machine

/-! SUPPORT. The statements of the arithmetic units: the interlocked result that an instruction makes, or the trap that it takes. -/

namespace Sys2Proof.Machine

/-! ### Interlocked results (R506) -/

/-- An instruction that makes an interlocked result leaves it among the thread's outstanding ones. -/
theorem Issues.made {s u : State} {k : CoreId} {t : Nat} (h : Issues s k t u) {undef : Nat → Option Word}
    {body : State → Nat → Did} {f g : Thread → Inter} (hu : undef t = none) (hb : body u t = making f u t)
    (hf : f (u.th t) = g (u.th t)) :
    Machine.oluique s k undef body = .next (u.executed t fun h => { h with inter := h.inter ++ [g h] }) := by
  rw [h.oluique hu, hb]
  exact congrArg _ (State.executed_congr (f := fun h => h.interlock (f h)) (by simp only [Thread.interlock, hf]))

/-- An instruction that traps at issue, where its encoding is assigned. -/
theorem Issues.trappedAt {s u : State} {k : CoreId} {t : Nat} (h : Issues s k t u) {undef : Nat → Option Word}
    {body : State → Nat → Did} {c : Nat} {d : Word} (hu : undef t = none) (hb : body u t = .trapped c d) :
    Machine.oluique s k undef body = .next (u.trap t k.val c (u.th t).pc (u.th t).pc d) := by
  rw [h.oluique hu, hb]
  rfl

theorem oddPair_even {rd : Reg} (hrd : rd.val % 2 = 0) (w : Word) (t : Nat) : oddPair rd w t = none := by
  simp [oddPair, undefIf, hrd]

/-! ### Products (R586, R587) -/

theorem mulSigned_eq (a b : Word) : mulSigned a b = a.signExtend 64 * b.signExtend 64 := BitVec.ofInt_mul ..

theorem mulUnsigned_eq (a b : Word) : mulUnsigned a b = a.setWidth 64 * b.setWidth 64 := by
  rw [mulUnsigned, BitVec.ofNat_mul, BitVec.ofNat_toNat, BitVec.ofNat_toNat]

theorem setWidth_signExtend_word (a : Word) : (a.signExtend 64).setWidth 32 = a := by
  ext i hi
  rw [BitVec.getElem_setWidth, BitVec.getLsbD_signExtend, if_pos hi, BitVec.getLsbD_eq_getElem hi, decide_eq_true (by omega),
    Bool.true_and]

theorem lowWord_mul_signExtend (a b : Word) : lowWord (a.signExtend 64 * b.signExtend 64) = a * b := by
  rw [lowWord, BitVec.setWidth_mul _ _ (by decide), setWidth_signExtend_word, setWidth_signExtend_word]

theorem lowWord_mul_setWidth (a b : Word) : lowWord (a.setWidth 64 * b.setWidth 64) = a * b := by
  simp [lowWord, BitVec.setWidth_mul]

/-- Settles O18: each form makes its result, whose words are those of the product of 64 bits. -/
theorem multiplies : Obligations.Multiplies := by
  intro s u k t rd ra rb h
  refine ⟨h.made rfl rfl ?_, h.made rfl rfl ?_, h.made rfl rfl ?_, fun he => ⟨h.made (oddPair_even he _ t) rfl ?_,
    h.made (oddPair_even he _ t) rfl ?_⟩⟩
  all_goals simp only [plainInter, mulSigned_eq, mulUnsigned_eq, lowWord_mul_signExtend, lowWord_mul_setWidth, highWord,
    Option.map_none, Option.map_some]

/-! ### Quotients and remainders (R588 to R590) -/

theorem divSigned_eq (a b : Word) : divSigned a b = if b = 0#32 then 0xFFFFFFFF#32 else a.sdiv b := by
  refine if_congr Iff.rfl rfl (BitVec.eq_of_toInt_eq ?_)
  rw [BitVec.toInt_ofInt, BitVec.toInt_sdiv]

theorem divUnsigned_eq (a b : Word) : divUnsigned a b = if b = 0#32 then 0xFFFFFFFF#32 else a / b := by
  refine if_congr Iff.rfl rfl (BitVec.eq_of_toNat_eq ?_)
  rw [wordOf, BitVec.toNat_ofNat, BitVec.toNat_udiv, Nat.mod_eq_of_lt]
  exact (Nat.div_le_self _ _).trans_lt a.isLt

theorem remSigned_eq (a b : Word) : remSigned a b = a.srem b := by
  unfold remSigned
  split
  next h => rw [h, BitVec.srem_zero]
  next => rw [← BitVec.toInt_srem, BitVec.ofInt_toInt]

theorem remUnsigned_eq (a b : Word) : remUnsigned a b = a % b := by
  unfold remUnsigned
  split
  next h => rw [h, BitVec.umod_zero]
  next =>
    refine BitVec.eq_of_toNat_eq ?_
    rw [wordOf, BitVec.toNat_ofNat, BitVec.toNat_umod, Nat.mod_eq_of_lt]
    exact (Nat.mod_le _ _).trans_lt a.isLt

section
variable {s u : State} {k : CoreId} {t : Nat} (h : Issues s k t u) {rd ra rb : Reg}
include h

/-- A divide makes its quotient or remainder, but with dze 1 and a divisor of 0. -/
theorem Issues.divided {f : Word → Word → Word} (hd : (u.th t).reg rb ≠ 0#32 ∨ (u.th t).ts.getLsbD 16 = false) {v : Word}
    (hv : f ((u.th t).reg ra) ((u.th t).reg rb) = v) : Machine.oluique s k always (divTo f rd ra rb) = .next (u.executed t fun h =>
      { h with inter := h.inter ++ [{ unit := .div, rd := rd.val, lo := v, hi := none, dc := none, dinv := false,
                                      flags := 0#5, pc := h.pc }] }) := by
  refine h.made rfl (if_neg ?_) (by simp only [plainInter, hv])
  rcases hd with hd | hd <;> simp [Thread.flag, tsDze, hd, -BitVec.getLsbD_eq_getElem]

/-- With dze 1, a divisor of 0 traps IDIVZ. -/
theorem Issues.dividedByZero (f : Word → Word → Word) (hb : (u.th t).reg rb = 0#32) (hd : (u.th t).ts.getLsbD 16 = true) :
    Machine.oluique s k always (divTo f rd ra rb) = .next (u.trap t k.val 7 (u.th t).pc (u.th t).pc ((u.th t).reg ra)) :=
  h.trapped (if_pos (by simp [Thread.flag, tsDze, hb, hd, -BitVec.getLsbD_eq_getElem]))

end

/-- Settles O19: each form is `Issues.divided` or `Issues.dividedByZero`. -/
theorem divides : Obligations.Divides := by
  intro s u k t rd ra rb h
  refine ⟨fun hd => ⟨h.divided hd (divSigned_eq _ _), h.divided hd (divUnsigned_eq _ _), h.divided hd (remSigned_eq _ _),
    h.divided hd (remUnsigned_eq _ _)⟩, fun hb hd c hc => ?_⟩
  simp only [List.mem_cons, List.not_mem_nil, or_false] at hc
  rcases hc with rfl | rfl | rfl | rfl <;> exact h.dividedByZero _ hb hd

/-! ### Decimal forms (R592 to R596) -/

theorem bcdBad_toBcd (n v : Nat) : bcdBad n (toBcd n v) = false := by
  induction n generalizing v with
  | zero => rfl
  | succ n ih =>
    have h1 : (v % 10 + 16 * toBcd n (v / 10)) % 16 = v % 10 := by omega
    have h2 : (v % 10 + 16 * toBcd n (v / 10)) / 16 = toBcd n (v / 10) := by omega
    simp only [toBcd, bcdBad, h1, h2, ih, Bool.or_false, decide_eq_false_iff_not]
    omega

theorem bcdValue_toBcd (n v : Nat) (h : v < 10 ^ n) : bcdValue n (toBcd n v) = v := by
  induction n generalizing v with
  | zero => simp only [Nat.pow_zero] at h; simp only [bcdValue]; omega
  | succ n ih =>
    have h1 : (v % 10 + 16 * toBcd n (v / 10)) % 16 = v % 10 := by omega
    have h2 : (v % 10 + 16 * toBcd n (v / 10)) / 16 = toBcd n (v / 10) := by omega
    have h3 : v / 10 < 10 ^ n := by rw [Nat.pow_succ] at h; omega
    have h4 : v % 10 < 10 := by omega
    simp only [toBcd, bcdValue, h1, h2, ih _ h3, if_pos h4]
    omega

theorem toBcd_lt (n v : Nat) : toBcd n v < 16 ^ n := by
  induction n generalizing v with
  | zero => simp [toBcd]
  | succ n ih =>
    have := ih (v / 10)
    rw [toBcd, Nat.pow_succ]
    omega

theorem decWord_toNat (n : Nat) : (decWord n).toNat = toBcd 8 n := by
  rw [decWord, wordOf, BitVec.toNat_ofNat]
  exact Nat.mod_eq_of_lt (toBcd_lt 8 n)

theorem decAdd_eq (a b : Word) (c : Bool) : decAdd a b c =
    (decWord ((decOf a + decOf b + bitNat c) % 100000000), decide (100000000 ≤ decOf a + decOf b + bitNat c)) := rfl

theorem decSub_eq (a b : Word) (c : Bool) : decSub a b c =
    (decWord ((decOf a + 200000000 - (decOf b + bitNat c)) % 100000000), decide (decOf a < decOf b + bitNat c)) := rfl

theorem decAdd_false (a b : Word) :
    decAdd a b false = (decWord ((decOf a + decOf b) % 100000000), decide (100000000 ≤ decOf a + decOf b)) := by
  refine Prod.ext ?_ ?_ <;> simp [decAdd_eq, bitNat]

theorem decSub_false (a b : Word) :
    decSub a b false = (decWord ((decOf a + 200000000 - decOf b) % 100000000), decide (decOf a < decOf b)) := by
  refine Prod.ext ?_ ?_ <;> simp [decSub_eq, bitNat]

section
variable {u : State} {t : Nat} {ops : Thread → List Word} {f : Thread → Inter}

theorem decimal_of_valid (h : badOperand (ops (u.th t)) = none) : decimal ops f u t = making f u t := by
  simp only [decimal, h]

theorem decimal_of_dinve {w : Word} (h : badOperand (ops (u.th t)) = some w) (hd : (u.th t).ts.getLsbD 18 = true) :
    decimal ops f u t = .trapped 13 w := by
  simp only [decimal, h]
  exact if_pos hd

theorem decimal_of_invalid {w : Word} (h : badOperand (ops (u.th t)) = some w) (hd : (u.th t).ts.getLsbD 18 = false) :
    decimal ops f u t = making (fun h => { f h with dinv := true }) u t := by
  simp only [decimal, h]
  exact if_neg (by simp [Thread.flag, tsDinve, hd, -BitVec.getLsbD_eq_getElem])

end

theorem badOperand_two {a b : Word} (ha : bcdBad 8 a.toNat = false) (hb : bcdBad 8 b.toNat = false) : badOperand [a, b] = none := by
  simp [badOperand, ha, hb]

theorem badOperand_one {a : Word} (ha : bcdBad 8 a.toNat = false) : badOperand [a] = none := by simp [badOperand, ha]

theorem badOperand_first {a : Word} (l : List Word) (ha : bcdBad 8 a.toNat = true) : badOperand (a :: l) = some a := by
  simp [badOperand, ha]

theorem undefIf_of_not {b : Bool} (hb : b = false) (w : Word) (t : Nat) : undefIf b w t = none := by simp [undefIf, hb]

/-- Settles O20: on valid operands a form makes its result; an invalid one is looked at before anything else. -/
theorem decimals : Obligations.Decimals := by
  refine ⟨fun s u k t rd ra rb n h => ⟨fun ha hb => ?both, fun he => ?binary, fun ha => ?one, fun ha => ?invalid⟩,
    fun n hn => ⟨?value, ?valid⟩⟩
  case both =>
    have hv := badOperand_two ha hb
    refine ⟨h.made rfl (decimal_of_valid hv) ?_, h.made rfl (decimal_of_valid hv) ?_, h.made rfl (decimal_of_valid hv) ?_,
      h.made rfl (decimal_of_valid hv) ?_, fun he => h.made (oddPair_even he _ t) (decimal_of_valid hv) rfl⟩
    · simp only [Bool.false_and, decAdd_false, plainInter]
    · simp only [Thread.flag, tsDc, Bool.true_and, decAdd_eq, plainInter]
    · simp only [Bool.false_and, decSub_false, plainInter]
    · simp only [Thread.flag, tsDc, Bool.true_and, decSub_eq, plainInter]
  case binary => exact h.made (oddPair_even he _ t) rfl rfl
  case one =>
    have hv := badOperand_one ha
    refine ⟨h.made rfl (decimal_of_valid hv) rfl, fun hn => ?_⟩
    have hu (w : Word) := undefIf_of_not (decide_eq_false (Nat.not_lt.2 hn)) w t
    exact ⟨h.made (hu _) (decimal_of_valid hv) rfl, h.made (hu _) (decimal_of_valid hv) rfl⟩
  case invalid =>
    refine ⟨fun hd => ⟨h.trapped (decimal_of_dinve (badOperand_first _ ha) hd), h.trapped (decimal_of_dinve (badOperand_first _ ha) hd)⟩,
      fun hd => ⟨_, ?_, ?_, h.made rfl (decimal_of_invalid (badOperand_first _ ha) hd) (g := fun _ => _) rfl⟩⟩ <;> rfl
  case value =>
    rw [decOf, decWord_toNat]
    exact bcdValue_toBcd 8 n hn
  case valid =>
    rw [decWord_toNat]
    exact bcdBad_toBcd 8 n

/-! ### Float forms (R597 to R606) -/

/-- Settles O21: on a field core each form makes its result, on LC it is unassigned and traps UNDEF. -/
theorem floats : Obligations.Floats := by
  intro s u k t rd ra rb rc h
  refine ⟨fun ht => ?field, fun ht c hc => ?lc⟩
  case field =>
    have hu (w : Word) : notOnLc w t = none := if_neg (by omega)
    exact ⟨h.made (hu _) rfl rfl, h.made (hu _) rfl rfl, h.made (hu _) rfl rfl, h.made (hu _) rfl rfl, h.made (hu _) rfl rfl,
      h.made (hu _) rfl rfl, h.made (hu _) rfl rfl, h.made (hu _) rfl rfl, h.made (hu _) rfl rfl, h.made (hu _) rfl rfl,
      h.made (hu _) rfl rfl, h.made (hu _) rfl rfl, h.made (hu _) rfl rfl, h.made (hu _) rfl rfl, h.made (hu _) rfl rfl⟩
  case lc =>
    have hu (w : Word) : notOnLc w t = some w := if_pos ht
    simp only [List.mem_cons, List.not_mem_nil, or_false] at hc
    rcases hc with rfl | rfl | rfl | rfl | rfl | rfl | rfl | rfl | rfl | rfl | rfl | rfl | rfl | rfl | rfl <;>
      exact ⟨_, rfl, h.undefined (hu _)⟩

end Sys2Proof.Machine

/-! SUPPORT. The statements of traps and of outstanding results: what each part of a trap leaves, and how results are written. -/

namespace Sys2Proof.Machine

/-! ### What the parts of a trap leave -/

section
variable (s : State) (k event t q flow detail : Nat)

@[simp] theorem State.trace_mems : (s.trace k event t q flow detail).mems = s.mems := by rw [State.trace_eq]
@[simp] theorem State.trace_gran : (s.trace k event t q flow detail).gran = s.gran := by rw [State.trace_eq]
@[simp] theorem State.trace_plots : (s.trace k event t q flow detail).plots = s.plots := by rw [State.trace_eq]
@[simp] theorem State.trace_threads : (s.trace k event t q flow detail).sow.threads = s.sow.threads := by rw [State.trace_eq]
@[simp] theorem State.trace_store : (s.trace k event t q flow detail).sow.store = s.sow.store := by rw [State.trace_eq]
@[simp] theorem State.trace_fenced : (s.trace k event t q flow detail).sow.fenced = s.sow.fenced := by rw [State.trace_eq]
@[simp] theorem State.trace_spill : (s.trace k event t q flow detail).sow.spill = s.sow.spill := by rw [State.trace_eq]
@[simp] theorem State.trace_nextAge : (s.trace k event t q flow detail).sow.nextAge = s.sow.nextAge := by rw [State.trace_eq]

end

section
variable (s : State) (q : Nat)

@[simp] theorem State.raised_th (t : Nat) : (s.raised q).th t = s.th t := by unfold State.raised; split <;> rfl
@[simp] theorem State.raised_gran : (s.raised q).gran = s.gran := by unfold State.raised; split <;> rfl
@[simp] theorem State.raised_plots : (s.raised q).plots = s.plots := by unfold State.raised; split <;> rfl

@[simp] theorem State.visible_th (w : List Word) (t : Nat) : (s.visible q w).th t = s.th t := State.raised_th ..
@[simp] theorem State.visible_gran (w : List Word) : (s.visible q w).gran = s.gran := State.raised_gran ..
@[simp] theorem State.visible_plots (w : List Word) : (s.visible q w).plots = s.plots := State.raised_plots ..

end

/-- A freed core touches the cores and the heartbeat counters. -/
theorem State.freeCore_eq (s : State) (k : Nat) :
    s.freeCore k = { s with hng := (s.freeCore k).hng, sow := { s.sow with cores := (s.freeCore k).sow.cores } } := by
  unfold State.freeCore
  split <;> rfl

@[simp] theorem State.freeCore_th (s : State) (k t : Nat) : (s.freeCore k).th t = s.th t := by rw [State.freeCore_eq]; rfl

/-- The item that a thread turns out to have held touches the bays' work, the open handles, the store and the thread's item. -/
theorem State.caught_eq (s : State) (t : Nat) : ∃ (sys : Sys) (bays : Bays) (hnd : Handles) (store : List Item) (it : Option Item),
    s.caught t = ({ s with sys := sys, bays := bays, hnd := hnd, sow := { s.sow with store := store } } : State).modTh t
      fun h => { h with item := it } := by
  have hid : s = s.modTh t fun h => { h with item := (s.th t).item } := by
    have hv : vmod s.sow.threads t (fun h => { h with item := (s.th t).item }) = s.sow.threads := by
      simp only [vmod, State.th, vset]
      refine Vector.ext fun i hi => ?_
      rw [Vector.getElem_setIfInBounds]
      split
      next h => subst h; simp [vget, hi]
      next => rfl
    simp only [State.modTh, State.modSow, hv]
  unfold State.caught
  dsimp only
  split
  · exact ⟨_, _, _, _, _, hid⟩
  · split
    · exact ⟨_, _, _, _, _, rfl⟩
    · exact ⟨_, _, _, _, (s.th t).item, congrArg (fun u : State => u.draw.2) hid⟩

/-- After the thread has lost its item, a fenced hold touches the bays' work, the fenced flows and the trace alone. -/
theorem State.fence_frame {γ : Type} (π : State → γ) {t : Nat} (hheld : ∀ u : State, π (u.dropHeld t) = π u)
    (hfenced : ∀ (u : State) (l : List (Nat × Item × Nat)), π (u.modSow fun w => { w with fenced := w.fenced ++ l }) = π u)
    (htrace : ∀ (u : State) (k event x q flow detail : Nat), π (u.trace k event x q flow detail) = π u)
    (s : State) (k : Nat) (parked : Bool) : π (s.fence t k parked)
      = π (s.modTh t fun h => { h with item := none, yieldAge := none, took := h.item }) := by
  have hd (u : State) : π (if parked then u else u.dropHeld t) = π u := by
    split
    · rfl
    · exact hheld u
  unfold State.fence
  dsimp only
  split
  · exact hd _
  · split
    · exact hd _
    · exact (htrace ..).trans ((hfenced ..).trans (hd _))

theorem State.fence_th (s : State) {t : Nat} (ht : t < 128) (k : Nat) (parked : Bool) :
    (s.fence t k parked).th t = { s.th t with item := none, yieldAge := none, took := (s.th t).item } :=
  (State.fence_frame (fun u => u.th t) (fun _ => rfl) (fun _ _ => rfl) (fun u k e x q f d => State.trace_th u k e x q f d t) s k parked).trans
    (State.th_modTh_self _ _ _ ht)

@[simp] theorem State.fence_mems (s : State) (t k : Nat) (parked : Bool) : (s.fence t k parked).mems = s.mems :=
  State.fence_frame State.mems (fun _ => rfl) (fun _ _ => rfl) State.trace_mems s k parked

@[simp] theorem State.fence_gran (s : State) (t k : Nat) (parked : Bool) : (s.fence t k parked).gran = s.gran :=
  State.fence_frame State.gran (fun _ => rfl) (fun _ _ => rfl) State.trace_gran s k parked

@[simp] theorem State.fence_plots (s : State) (t k : Nat) (parked : Bool) : (s.fence t k parked).plots = s.plots :=
  State.fence_frame State.plots (fun _ => rfl) (fun _ _ => rfl) State.trace_plots s k parked

@[simp] theorem State.fence_spill (s : State) (t k : Nat) (parked : Bool) : (s.fence t k parked).sow.spill = s.sow.spill :=
  State.fence_frame (fun u => u.sow.spill) (fun _ => rfl) (fun _ _ => rfl) State.trace_spill s k parked

@[simp] theorem State.freeCore_mems (s : State) (k : Nat) : (s.freeCore k).mems = s.mems := by rw [State.freeCore_eq]
@[simp] theorem State.freeCore_gran (s : State) (k : Nat) : (s.freeCore k).gran = s.gran := by rw [State.freeCore_eq]
@[simp] theorem State.freeCore_plots (s : State) (k : Nat) : (s.freeCore k).plots = s.plots := by rw [State.freeCore_eq]
@[simp] theorem State.freeCore_spill (s : State) (k : Nat) : (s.freeCore k).sow.spill = s.sow.spill := by rw [State.freeCore_eq]

/-- A fault item stands in its queue, or in the spill where that has no room; threads, cores and memories stand. -/
theorem State.faultItem_spec (s : State) (k q : Nat) (w : List Word) (h : s.sow.spill.length < 16) :
    ((∃ it ∈ (s.faultItem k q w).sow.store, it.words = w ∧ it.q = q) ∨ (q, w) ∈ (s.faultItem k q w).sow.spill)
      ∧ (∀ t, (s.faultItem k q w).th t = s.th t) ∧ (∀ j, (s.faultItem k q w).core j = s.core j)
      ∧ (s.faultItem k q w).mems = s.mems ∧ (s.faultItem k q w).gran = s.gran ∧ (s.faultItem k q w).plots = s.plots := by
  unfold State.faultItem
  split_ifs
  · exact ⟨.inl (s.mem_visible_store q w), fun t => by simp, fun j => by simp, by simp, by simp, by simp⟩
  · exact ⟨.inr (List.mem_append_right _ List.mem_cons_self), fun _ => rfl, fun _ => rfl, rfl, rfl, rfl⟩

/-- The thread at a trap, its results written, and with the item it turns out to hold. -/
def State.atTrap (s : State) (t save : Nat) : State := (s.modTh t fun h => { h.settle with inter := [], pc := save }).caught t

/-- The park of a thread on core `k` by a trap, before its fault item. -/
def State.parkAt (c : State) (t k code : Nat) : State :=
  let h := c.th t
  let d := ((c.trace k 7 t ((h.item.map Item.q).getD 0) ((h.item.map Item.flowField).getD 0) code).dropOpen t).fence t k (code = 15)
  let v := (d.modTh t fun h => { h with st := .faulted, trap := code, stopping := false }).freeCore k
  if code = 15 then { v with jtag := { v.jtag with breakTid := t } } else v

theorem State.trap_eq (s : State) (t k code pc save : Nat) (d : Word) :
    s.trap t k code pc save d = ((s.atTrap t save).parkAt t k code).faultItem k
      ((s.atTrap t save).th t).faultQ [header 3 0 (plotOf t) (0xFE00 + code), wordOf (t + 256 * k), wordOf pc, d] := rfl

/-- What the thread is at its trap, and what stands. -/
theorem State.atTrap_spec (s : State) {t : Nat} (ht : t < 128) (save : Nat) :
    (∃ it, (s.atTrap t save).th t = { s.th t with
        regs := landAll (s.th t).regs (s.th t).delayed, delayed := [], inter := [], pc := save, item := it })
      ∧ (s.atTrap t save).sow.spill = s.sow.spill ∧ (s.atTrap t save).mems = s.mems ∧ (s.atTrap t save).gran = s.gran
      ∧ (s.atTrap t save).plots = s.plots := by
  obtain ⟨_, _, _, _, it, hc⟩ := State.caught_eq (s.modTh t fun h => { h.settle with inter := [], pc := save }) t
  unfold State.atTrap
  rw [hc]
  refine ⟨⟨it, ?_⟩, rfl, rfl, rfl, rfl⟩
  rw [State.th_modTh_self _ _ _ ht]
  exact (congrArg (fun h : Thread => { h with item := it })
    (State.th_modTh_self s t (fun h => { h.settle with inter := [], pc := save }) ht) :)

theorem State.dropOpen_th (s : State) {t : Nat} (ht : t < 128) :
    (s.dropOpen t).th t = { s.th t with openItem := none, wait := none } :=
  State.th_modTh_self s _ _ ht

@[simp] theorem State.modTh_spill (s : State) (t : Nat) (f : Thread → Thread) : (s.modTh t f).sow.spill = s.sow.spill := rfl
@[simp] theorem State.dropOpen_spill (s : State) (t : Nat) : (s.dropOpen t).sow.spill = s.sow.spill := rfl
@[simp] theorem State.dropOpen_mems (s : State) (t : Nat) : (s.dropOpen t).mems = s.mems := rfl
@[simp] theorem State.dropOpen_gran (s : State) (t : Nat) : (s.dropOpen t).gran = s.gran := rfl
@[simp] theorem State.dropOpen_plots (s : State) (t : Nat) : (s.dropOpen t).plots = s.plots := rfl

/-- The record of the debug port of a parked thread hides in no field that a trap's statement names. -/
theorem State.breakTid_eq (v : State) (c : Prop) [Decidable c] (t : Nat) :
    ∃ j, (if c then { v with jtag := { v.jtag with breakTid := t } } else v) = { v with jtag := j } := by
  split
  · exact ⟨_, rfl⟩
  · exact ⟨_, rfl⟩

/-- What the park of a thread does to it and to its core, and what it leaves. -/
theorem State.parkAt_spec (c : State) {t : Nat} (ht : t < 128) (k code : Nat) :
    (c.parkAt t k code).th t = { c.th t with
        st := .faulted, item := none, yieldAge := none, openItem := none, wait := none, trap := code
        took := (c.th t).item, stopping := false }
      ∧ ((c.parkAt t k code).core k).run = none ∧ (c.parkAt t k code).sow.spill = c.sow.spill
      ∧ (c.parkAt t k code).mems = c.mems ∧ (c.parkAt t k code).gran = c.gran
      ∧ (c.parkAt t k code).plots = c.plots := by
  unfold State.parkAt
  extract_lets h d v
  have hd : d.th t = { c.th t with openItem := none, wait := none, item := none, yieldAge := none, took := (c.th t).item } := by
    unfold d
    rw [State.fence_th _ ht, State.dropOpen_th _ ht, State.trace_th]
  have hv : v.th t = { d.th t with st := .faulted, trap := code, stopping := false } := by
    unfold v
    rw [State.freeCore_th, State.th_modTh_self _ _ _ ht]
  have hrun : (v.core k).run = none := by
    unfold v
    rw [State.freeCore_run, if_pos rfl]
  obtain ⟨j, hj⟩ := v.breakTid_eq (code = 15) t
  rw [hj]
  refine ⟨?_, hrun, ?_, ?_, ?_, ?_⟩
  · change v.th t = _
    rw [hv, hd]
  · change v.sow.spill = _
    simp [v, d]
  · change v.mems = _
    simp [v, d]
  · change v.gran = _
    simp [v, d]
  · change v.plots = _
    simp [v, d]

/-- Settles O17: the park of the thread and the post of its fault item, each by what it leaves. -/
theorem trapParks : Obligations.TrapParks := by
  intro u t k code pc d ht hk hspill
  obtain ⟨⟨it, hat⟩, hsp, hmems, hgran, hplots⟩ := u.atTrap_spec ht pc
  obtain ⟨hpark, hrun, hsp', hmems', hgran', hplots'⟩ := (u.atTrap t pc).parkAt_spec ht k code
  obtain ⟨hitem, hths, hcores, hm, hg, hp⟩ := ((u.atTrap t pc).parkAt t k code).faultItem_spec k (u.th t).faultQ
    [header 3 0 (plotOf t) (0xFE00 + code), wordOf (t + 256 * k), wordOf pc, d] (by rw [hsp', hsp]; exact hspill)
  have htrap := u.trap_eq t k code pc pc d
  rw [show ((u.atTrap t pc).th t).faultQ = (u.th t).faultQ by rw [hat]] at htrap
  dsimp only
  rw [htrap, hths, hcores, hpark, hat, hm, hg, hp, hmems', hgran', hplots', hmems, hgran, hplots]
  exact ⟨rfl, rfl, rfl, rfl, rfl, rfl, rfl, rfl, hrun, hitem, rfl, rfl, rfl⟩

/-! ### Outstanding results -/

/-- The flags, dc and dinv that a result writes, in the words of R593, R596 and R605. -/
theorem Thread.landInter_eq (h : Thread) (i : Inter) (l : List Inter) : { h.landInter i with inter := l } = { h with
    inter := l
    regs := (match i.hi with
      | some w => regPut (regPut h.regs i.rd i.lo) (i.rd + 1) w
      | none => regPut h.regs i.rd i.lo)
    ts := ((if i.dinv then putBit (i.dc.elim h.ts fun b => putBit h.ts 1 b) 17 true
      else i.dc.elim h.ts fun b => putBit h.ts 1 b) ||| (i.flags.setWidth 20 <<< 6)) } := by
  rcases i with ⟨_, _, _, _ | _, _ | _, _, _, _⟩ <;> rfl

/-- The float trap's code names the highest flag that is raised and enabled. -/
theorem floatCode_spec : ∀ x : BitVec 5, x ≠ 0#5 → 8 ≤ floatCode x ∧ floatCode x ≤ 12 ∧ x.getLsbD (12 - floatCode x) = true
    ∧ ∀ j < 5, 12 - floatCode x < j → x.getLsbD j = false := by
  decide

/-- A load's value stands in the second instruction after it, and not in the first. -/
theorem Thread.delay_one_slot (h : Thread) (rd : Nat) (v : Word) (hd : h.delayed = []) :
    let first := (h.delay rd v 1).landDue.ageDelayed
    first.regs = h.regs ∧ first.landDue.ageDelayed.regs = regPut h.regs rd v ∧ first.landDue.ageDelayed.delayed = [] := by
  simp [Thread.delay, Thread.landDue, Thread.ageDelayed, landDelayed, hd]

/-- Settles O23: by whether an interlocked result is outstanding, and whether it traps. -/
theorem resultsWritten : Obligations.ResultsWritten := by
  refine ⟨fun s k t i l hrun => ⟨fun hno hdue => ?_, fun hin hflags => ?_, fun hin hflags => ?_⟩,
    fun h rd v hd => h.delay_one_slot rd.val v hd⟩
  · have hany : ((s.th t).delayed.any fun d => d.slots = 0) = true := by
      obtain ⟨d, hd, h0⟩ := hdue
      exact List.any_eq_true.2 ⟨d, hd, decide_eq_true h0⟩
    change execDelayedResultWrite k s = _
    unfold execDelayedResultWrite
    rw [hrun]
    simp only [hany, State.landInters, hno, State.landList]
    rfl
  · have hno : i.traps (s.th t) = false := decide_eq_false (not_not_intro hflags)
    change execInterlockedResult k s = _
    unfold execInterlockedResult
    rw [hrun]
    simp only [hin, hno, Thread.landInter_eq]
    rfl
  · have htraps : i.traps (s.th t) = true := decide_eq_true hflags
    obtain ⟨hlo, hhi, hset, habove⟩ := floatCode_spec _ hflags
    refine ⟨floatCode (i.flags &&& (s.th t).fen), hlo, hhi, hset, fun j hj => ?_, ?_⟩
    · by_cases h5 : j < 5
      · exact habove j h5 hj
      · exact BitVec.getLsbD_of_ge _ _ (Nat.le_of_not_lt h5)
    · change execInterlockedResult k s = _
      unfold execInterlockedResult
      rw [hrun]
      simp only [hin, htraps, State.landList]
      rfl

end Sys2Proof.Machine

/-! SUPPORT. What every command keeps: the queue of the waiting commands and the canonical form of the memories. -/

namespace Sys2Proof.Machine

/-- The state that a command leaves keeps the queue and the form of the memories. -/
def ResKept (s : State) (r : Res) : Prop := ∀ t, r = .next t → Keeps s t

/-! ### The families of commands -/

section
variable {s t : State}

theorem Keeps.up {u : State} (h : Keeps s u) (l : List Fn) : Keeps s { u with up := l } := h

theorem Keeps.gran {u : State} (h : Keeps s u) {g : Granary} (hg : g.mem = u.gran.mem) : Keeps s { u with gran := g } :=
  h.of_eq rfl rfl hg rfl rfl

theorem kept_goOn (h : Keeps s t) : ResKept s (goOn t) := by
  rintro _ ⟨⟩
  exact h

theorem kept_onField {f : State → State} (h : Keeps s (f s)) : ResKept s (onField s f) := kept_goOn (Keeps.ite h (.refl s))

theorem kept_onLatch {f : State → State} (h : Keeps s (f s)) : ResKept s (onLatch s f) := kept_goOn (Keeps.ite (.refl s) h)

theorem kept_onPanel {f : State → State} (h : Keeps s (f s)) : ResKept s (onPanel s f) := kept_onLatch (Keeps.ite h (.refl s))

theorem kept_verb {q : Src} {c : Instr} {body : State → State} (h : ∀ v, Keeps s v → Keeps s (body v)) : ResKept s (verb s q c body) :=
  kept_goOn (State.runLine_keeps (.refl s) q c _ body h)

theorem kept_oluique {k : CoreId} {undef : Nat → Option Word} {body : State → Nat → Did}
    (h : ∀ v t, Keeps s v → (body v t).Kept s) : ResKept s (oluique s k undef body) :=
  kept_goOn (State.issue_keeps (.refl s) k.val undef body h)

theorem kept_dispatching {r : Res} (h : ResKept s r) : ResKept s (dispatching r) := by
  intro t ht
  cases r with
  | next u => cases ht; exact State.commitX_keeps (h u rfl)
  | fault => cases ht
  | refused => cases ht

/-- The head's notice of its ring. -/
theorem headRing_kept (s : State) : Keeps s (match s.ring.st with
    | .broken => (s.announce .ring "RING 0 BROKEN").notice ("^RING BROKEN AFTER " ++ posText s.breakPos)
    | .ok => s.announce .ring ("RING 0 COUNT " ++ decText s.ring.count)
    | .overflow => (s.announce .ring ("RING 0 COUNT " ++ decText s.ring.count)).notice "^RING OVERFLOW"
    | _ => s) := by
  split
  · exact State.notice_keeps (State.announce_keeps (.refl s) ..) ..
  · exact State.announce_keeps (.refl s) ..
  · exact State.notice_keeps (State.announce_keeps (.refl s) ..) ..
  · exact .refl s

/-- Another unit's notice of its ring. -/
theorem tailRing_kept (s : State) : Keeps s (match s.ring.number with
    | some n => s.announce .ring ("RING " ++ decText n)
    | none => if s.ring.st = .overflow then s.announce .ring "RING OVERFLOW" else s) := by
  split
  · exact State.announce_keeps (.refl s) ..
  · exact Keeps.ite (State.announce_keeps (.refl s) ..) (.refl s)

/-- PROVE is a line whose challenge is dropped after it. -/
theorem execProve_kept (q : Src) (groups : List (BitVec 16)) : ResKept s (execProve q groups s) := by
  have hrun : Keeps s (s.runLine q (.prove q groups) (fun s => s.formOk q.ses.val (.prove q groups)) fun s =>
      match s.proves q.ses.val groups with
      | some t =>
        if s.placeFree q.ses.val t then (s.modSes q.ses.val fun x => { x with proved := some t }).reply q ("PROVED T" ++ decText t)
        else s.busy q
      | none => s) := by
    refine State.runLine_keeps (.refl s) _ _ _ _ fun _ h => ?_
    split
    · exact Keeps.ite (State.reply_keeps (State.modSes_keeps h ..) ..) (State.busy_keeps h ..)
    · exact h
  exact kept_goOn (Keeps.ite (State.modSes_keeps hrun ..) hrun)

end

/-! ### The bodies of the Oluique instructions -/

section
variable {s v : State} {t : Nat}

theorem onThread_kept (f : Thread → Thread) (v : State) (t : Nat) (h : Keeps s v) : (onThread f v t).Kept s :=
  State.modTh_keeps h ..

theorem making_kept (f : Thread → Inter) (v : State) (t : Nat) (h : Keeps s v) : (making f v t).Kept s := State.modTh_keeps h ..

theorem decimal_kept (ops : Thread → List Word) (f : Thread → Inter) (v : State) (t : Nat) (h : Keeps s v) :
    (decimal ops f v t).Kept s := by
  unfold decimal
  dsimp only
  split
  · split
    · trivial
    · exact making_kept _ _ _ h
  · exact making_kept _ _ _ h

theorem divTo_kept (f : Word → Word → Word) (rd ra rb : Reg) (v : State) (t : Nat) (h : Keeps s v) : (divTo f rd ra rb v t).Kept s := by
  unfold divTo
  dsimp only
  split
  · trivial
  · exact making_kept _ _ _ h

theorem floatTo_kept (f : Bool → Nat → Thread → FRes) (rd : Reg) (v : State) (t : Nat) (h : Keeps s v) :
    (floatTo f rd v t).Kept s := State.modTh_keeps h ..

theorem branch_kept (test : Word → Word → Bool) (ra rb : Reg) (off : BitVec 16) (v : State) (t : Nat) (h : Keeps s v) :
    (branch test ra rb off v t).Kept s := by
  unfold branch
  dsimp only
  split
  · exact h
  · exact h

theorem callTo_kept (target : Thread → Nat) (v : State) (t : Nat) (h : Keeps s v) : (callTo target v t).Kept s := by
  unfold callTo
  dsimp only
  split
  · trivial
  · exact State.modTh_keeps h ..

theorem ret_kept (v : State) (t : Nat) (h : Keeps s v) : (if (v.th t).rsd = 0 && !(v.th t).flag tsRsw then Did.trapped 6 0#32
    else .jumped (v.modTh t Thread.pop) (v.th t).top).Kept s := by
  split
  · trivial
  · exact State.modTh_keeps h ..

theorem dataAccess_kept {n : Nat} {ra : Reg} {imm : BitVec 16} {f : State → Nat → DataAt → Did}
    (hf : ∀ v t x, Keeps s v → (f v t x).Kept s) (v : State) (t : Nat) (h : Keeps s v) : (dataAccess n ra imm f v t).Kept s := by
  unfold dataAccess
  dsimp only
  split
  · trivial
  · split
    · trivial
    · exact hf _ _ _ h

theorem instrAccess_kept {ra : Reg} {imm : BitVec 16} {f : State → Nat → Nat → InstrAt → Did}
    (hf : ∀ v t a x, Keeps s v → (f v t a x).Kept s) (v : State) (t : Nat) (h : Keeps s v) : (instrAccess ra imm f v t).Kept s := by
  unfold instrAccess
  dsimp only
  split
  · trivial
  · split
    · trivial
    · exact hf _ _ _ _ h

theorem load_kept (n : Nat) (ext : Nat → Word) (rd ra : Reg) (imm : BitVec 16) (v : State) (t : Nat) (h : Keeps s v) :
    (load n ext rd ra imm v t).Kept s :=
  dataAccess_kept (by exact fun _ _ _ h => State.modTh_keeps h ..) v t h

theorem store_kept (n : Nat) (rs ra : Reg) (imm : BitVec 16) (v : State) (t : Nat) (h : Keeps s v) :
    (store n rs ra imm v t).Kept s :=
  dataAccess_kept (by exact fun _ _ _ h => State.writeData_keeps h ..) v t h

/-- IWR writes the word where its space lets it, and traps elsewhere. -/
theorem iwr_kept {a : Nat} {x : InstrAt} {w : Word} (h : Keeps s v) : (if isPlot t then Did.trapped 4 (wordOf a)
    else match v.writeInstr x w with
      | some s' => .went s'
      | none => .trapped 4 (wordOf a)).Kept s := by
  split
  · trivial
  · split
    next s' hw => exact State.writeInstr_keeps h x w hw
    next => trivial

theorem postBody_kept (k : CoreId) (rs ra : Reg) (imm : BitVec 16) (last : Bool) (v : State) (t : Nat) (h : Keeps s v) :
    (postBody k rs ra imm last v t).Kept s := by
  unfold postBody
  dsimp only
  split
  · exact State.transfer_keeps h ..
  · exact State.post_keeps h ..

/-- IN asks for its access once the core's earlier writes have taken effect, where nothing refuses it. -/
theorem portIn_kept (k : CoreId) (rd ra : Reg) (imm : BitVec 16) (v : State) (t : Nat) (h : Keeps s v) :
    (if v.refuses k.val t (portNumber ((v.th t).reg ra) imm) false then Did.trapped 2 (wordOf (portNumber ((v.th t).reg ra) imm))
    else .left ((v.drainAll k.val).accessed
      (insAccess k.val t (.read (portNumber ((v.th t).reg ra) imm) rd.val)))).Kept s := by
  split
  · trivial
  · exact State.accessed_keeps (State.drainAll_keeps h ..) ..

/-- OUT is refused, waits in the core's buffer, or asks for its access. -/
theorem portOut_kept (k : CoreId) (rs ra : Reg) (imm : BitVec 16) (v : State) (t : Nat) (h : Keeps s v) :
    (if v.refuses k.val t (portNumber ((v.th t).reg ra) imm) true then
      Did.trapped 2 (wordOf (portNumber ((v.th t).reg ra) imm + 65536))
    else if k.val < 6 && fieldPort (portNumber ((v.th t).reg ra) imm) then
      .went (v.buffer k.val t (portNumber ((v.th t).reg ra) imm) ((v.th t).reg rs))
    else .left ((v.drainAll k.val).accessed
      (insAccess k.val t (.write (portNumber ((v.th t).reg ra) imm) ((v.th t).reg rs))))).Kept s := by
  split
  · trivial
  · split
    · exact State.buffer_keeps h ..
    · exact State.accessed_keeps (State.drainAll_keeps h ..) ..

end

/-! ### Every command -/

section
variable {s : State}

theorem execPowerOn_kept : ResKept s (execPowerOn s) := kept_goOn (State.coldStart_keeps (.refl s) ..)
theorem execBrownout_kept (holdUp : Bool) : ResKept s (execBrownout holdUp s) :=
  kept_goOn (State.coldStart_keeps (.refl s) ..)
theorem execResetPin_kept : ResKept s (execResetPin s) := kept_goOn (State.coldStart_keeps (.refl s) ..)
theorem execTestmodeHigh_kept : ResKept s (execTestmodeHigh s) :=
  kept_goOn (State.coldStart_keeps (State.draw_keeps (.refl s)) ..)
theorem execClockLoss_kept : ResKept s (execClockLoss s) := kept_goOn (State.coldStart_keeps (.refl s) ..)
theorem execResetRelease_kept (head cts : Bool) : ResKept s (execResetRelease head cts s) :=
  kept_goOn (Keeps.ite (.refl s) (State.modRing_keeps (State.modCon_keeps (State.modSys_keeps (.refl s) ..) ..) ..))
theorem execReadyLine_kept : ResKept s (execReadyLine s) :=
  kept_goOn (Keeps.ite (.refl s) (State.startPass_keeps (State.announce_keeps (State.modSes_keeps (State.modCal_keeps
    (Keeps.foldl _ _ (.refl s) fun _ _ h => State.setQueue_keeps h ..) ..) ..) ..)))
theorem execReadyFace_kept : ResKept s (execReadyFace s) :=
  kept_goOn (Keeps.ite (.refl s) (State.render_keeps (State.modFace_keeps (State.announce_keeps (.refl s) ..) ..)))
theorem execReadySeedbank_kept : ResKept s (execReadySeedbank s) :=
  kept_goOn (Keeps.ite (.refl s) (State.modRing_keeps (State.announce_keeps (State.loadSeedbank_keeps (.refl s)) ..) ..))
theorem execReadyFurrow_kept : ResKept s (execReadyFurrow s) :=
  kept_goOn (Keeps.ite (.refl s) (State.announce_keeps (State.rankOpens_keeps (State.loadJournal_keeps (.refl s))) ..))
theorem execReadyCalendar_kept : ResKept s (execReadyCalendar s) :=
  kept_goOn (Keeps.ite (.refl s) (State.announce_keeps (State.modCal_keeps (State.rebase_keeps (.refl s) ..) ..) ..))
theorem execReadyRing_kept : ResKept s (execReadyRing s) :=
  kept_goOn (Keeps.ite (.refl s) (Keeps.ite (headRing_kept s) (tailRing_kept s)))
theorem execRingAloneTimeout_kept : ResKept s (execRingAloneTimeout s) :=
  kept_goOn (Keeps.ite (.refl s) (State.sendOwn_keeps (State.announce_keeps (State.modRing_keeps (.refl s) ..) ..) ..))
theorem execReadyReplay_kept : ResKept s (execReadyReplay s) :=
  kept_goOn (Keeps.ite (.refl s) (State.announce_keeps (Keeps.up (State.coldReplay_keeps (Keeps.up (State.loadLedger_keeps
    (State.restoreLocks_keeps (.refl s))) ..)) ..) ..))
theorem execReadyKeys_kept : ResKept s (execReadyKeys s) :=
  kept_goOn (Keeps.ite (.refl s) (Keeps.ite (State.showTags_keeps (State.announce_keeps (.refl s) ..)) (State.modKeys_keeps
    (.refl s) ..)))
theorem execFieldEnHoldEnd_kept : ResKept s (execFieldEnHoldEnd s) :=
  kept_goOn (Keeps.ite (.refl s) (State.modSys_keeps (.refl s) ..))
theorem execWakeStart_kept : ResKept s (execWakeStart s) :=
  kept_goOn (by split; exacts [(.refl s), (State.runDue_keeps (State.accrue_keeps (State.modSys_keeps (.refl s) ..) ..))])
theorem execFieldPgRise_kept : ResKept s (execFieldPgRise s) :=
  kept_goOn (Keeps.ite (State.modSys_keeps (.refl s) ..) (.refl s))
theorem execFieldPgDropInLock_kept : ResKept s (execFieldPgDropInLock s) :=
  kept_goOn (Keeps.ite (State.modSys_keeps (.refl s) ..) (.refl s))
theorem execFieldPgTimeout_kept : ResKept s (execFieldPgTimeout s) :=
  kept_goOn (Keeps.ite (State.wakeFails_keeps (.refl s) ..) (.refl s))
theorem execPllLock_kept : ResKept s (execPllLock s) := kept_goOn (Keeps.ite (State.modSys_keeps (.refl s) ..) (.refl s))
theorem execPllNoLock_kept : ResKept s (execPllNoLock s) :=
  kept_goOn (Keeps.ite (State.wakeFails_keeps (.refl s) ..) (.refl s))
theorem execFieldResetRelease_kept : ResKept s (execFieldResetRelease s) :=
  kept_goOn (Keeps.ite (State.releaseField_keeps (.refl s)) (.refl s))
theorem execReadyField_kept (romOk : Bool) : ResKept s (execReadyField romOk s) :=
  kept_goOn (Keeps.ite (.refl s) (Keeps.ite (Keeps.ite (State.replayField_keeps (.refl s)) (State.fieldReady_keeps
    (State.replayField_keeps (.refl s)))) (State.wakeFails_keeps (State.needField_keeps (State.isDown_keeps (.refl
    s) ..)) ..)))
theorem execReadySower_kept : ResKept s (execReadySower s) :=
  kept_goOn (Keeps.ite (.refl s) (State.announceField_keeps (State.modSow_keeps (State.writeGroups_keeps
    (State.setFieldQueues_keeps (State.lcTicks_keeps (.refl s)))) ..) ..))
theorem execReadyGranary_kept : ResKept s (execReadyGranary s) :=
  kept_goOn (Keeps.ite (.refl s) (State.announceField_keeps (Keeps.gran (.refl s) (by simp)) ..))
theorem execReadyBaysRow_kept (r : Fin 12) : ResKept s (execReadyBaysRow r s) :=
  kept_goOn (Keeps.ite (.refl s) (State.runDue_keeps (State.modSys_keeps (State.announceField_keeps (.refl s) ..) ..)))
theorem execReadyEnvelope_kept : ResKept s (execReadyEnvelope s) :=
  kept_goOn (Keeps.ite (.refl s) (State.announceField_keeps (State.guardWords_keeps (.refl s)) ..))
theorem execReadyLedger_kept : ResKept s (execReadyLedger s) :=
  kept_goOn (Keeps.ite (.refl s) (State.announceField_keeps (.refl s) ..))
theorem execReadyTenancy_kept : ResKept s (execReadyTenancy s) :=
  kept_goOn (Keeps.ite (.refl s) (State.runDue_keeps (State.wakesDone_keeps (State.announceField_keeps
    (State.writeBayGrants_keeps (.refl s)) ..))))
theorem execReadyPlot_kept (p : Ten) : ResKept s (execReadyPlot p s) :=
  kept_goOn (Keeps.ite (.refl s) (Keeps.ite (State.runDue_keeps (State.isDown_keeps (State.modPlot_keeps (.refl s) ..) ..))
    (State.runDue_keeps (State.tellWoken_keeps (State.announceField_keeps (State.startPlot_keeps (.refl s) ..) ..) ..))))
theorem execFieldLostPg_kept : ResKept s (execFieldLostPg s) :=
  kept_goOn (Keeps.ite (State.fieldLost_keeps (.refl s) ..) (.refl s))
theorem execFieldLostPll_kept : ResKept s (execFieldLostPll s) :=
  kept_goOn (Keeps.ite (State.fieldLost_keeps (.refl s) ..) (.refl s))
theorem execRestDispatch_kept : ResKept s (execRestDispatch s) :=
  kept_onField (by split; exacts [(State.restBegins_keeps (.refl s) ..), (.refl s)])
theorem execRestPlotsIdle_kept : ResKept s (execRestPlotsIdle s) :=
  kept_onField (Keeps.ite (State.restEnds_keeps (.refl s)) (.refl s))
theorem execRestPlotTimeout_kept : ResKept s (execRestPlotTimeout s) :=
  kept_onField (Keeps.ite (State.restEnds_keeps (Keeps.foldl _ _ (.refl s) fun _ _ h => State.stopBusy_keeps h ..)) (.refl s))
theorem execHingeTransferRequest_kept (lat : Option Access) (fld : List (Fin 6 × Access))
    : ResKept s (execHingeTransferRequest lat fld s) :=
  kept_onLatch (State.atCycle_keeps (State.drainCores_keeps (.refl s) ..) ..)
theorem execHingeHeldGrant_kept : ResKept s (execHingeHeldGrant s) := kept_onLatch (State.heldGrant_keeps (.refl s))
theorem execMailboxClaim_kept (who : Who) (box : Box) : ResKept s (execMailboxClaim who box s) :=
  kept_goOn (State.wrote_keeps (.refl s) ..)
theorem execMailboxPost_kept (who : Who) (box : Box) (count : BitVec 5) : ResKept s (execMailboxPost who box count s) :=
  kept_goOn (State.wrote_keeps (.refl s) ..)
theorem execMailboxRelease_kept (who : Who) (box : Box) : ResKept s (execMailboxRelease who box s) :=
  kept_goOn (State.wrote_keeps (.refl s) ..)
theorem execMailboxWordWrite_kept (who : Who) (box : Box) (i : Fin 16) (w : Word)
    : ResKept s (execMailboxWordWrite who box i w s) :=
  kept_goOn (State.wrote_keeps (.refl s) ..)
theorem execMailboxForceFree_kept (box : Box) : ResKept s (execMailboxForceFree box s) :=
  kept_goOn (State.wrote_keeps (.refl s) ..)
theorem execHingeNotifyPost_kept (box : Box) : ResKept s (execHingeNotifyPost box s) :=
  kept_onField (by split; exacts [(Keeps.ite (State.modHng_keeps (State.visible_keeps (State.served_keeps (.refl
    s) ..) ..) ..) (.refl s)), (.refl s)])
theorem execHeartbeatTouch_kept (k : Fin 6) : ResKept s (execHeartbeatTouch k s) := kept_goOn (State.wrote_keeps (.refl s) ..)
theorem execHeartbeatExpiry_kept (k : Fin 6) : ResKept s (execHeartbeatExpiry k s) :=
  kept_onField (Keeps.ite (.refl s) (Keeps.ite (State.modCore_keeps (.refl s) ..) (State.expire_keeps (.refl s) ..)))
theorem execCoreFaultRecovery_kept (k : Fin 6) : ResKept s (execCoreFaultRecovery k s) :=
  kept_onLatch (Keeps.ite (Keeps.ite (State.fieldRestart_keeps (State.endsInRestart_keeps (State.tellFault_keeps
    (State.heartServed_keeps (.refl s) ..) ..) ..) ..) (State.recoverInPlace_keeps (State.endsInRestart_keeps
    (State.tellFault_keeps (State.heartServed_keeps (.refl s) ..) ..) ..) ..)) (Keeps.ite (State.tellFault_keeps
    (State.heartServed_keeps (.refl s) ..) ..) (.refl s)))
theorem execRecoveryTimeout_kept : ResKept s (execRecoveryTimeout s) :=
  kept_onField (by split; exacts [(State.fieldRestart_keeps (State.tellFault_keeps (State.heartServed_keeps (.refl
    s) ..) ..) ..), (.refl s)])
theorem execThreadFaultRecovery_kept : ResKept s (execThreadFaultRecovery s) :=
  kept_onLatch (State.threadRecovery_keeps (.refl s))
theorem execConsoleChar_kept (c : Byte) (framingError : Bool) : ResKept s (execConsoleChar c framingError s) :=
  kept_onLatch (State.consoleChar_keeps (.refl s) ..)
theorem execConsCtsChange_kept (level : Bool) : ResKept s (execConsCtsChange level s) :=
  kept_onLatch (State.modCon_keeps (.refl s) ..)
theorem execMalformedLine_kept (ses : Fin 16) : ResKept s (execMalformedLine ses s) :=
  kept_goOn (State.malformed_keeps (.refl s) ..)
theorem execForwardAddressedLine_kept (n : Byte) (text : String) : ResKept s (execForwardAddressedLine n text s) :=
  kept_goOn (State.addressed_keeps (.refl s) _ _ fun _ h => Keeps.ite (State.runsHere_keeps h ..) (Keeps.ite
    (State.pushFrame_keeps h ..) (State.ignore_keeps h ..)))
theorem execBroadcastLine_kept (text : String) : ResKept s (execBroadcastLine text s) :=
  kept_goOn (State.addressed_keeps (.refl s) _ _ fun _ h => State.runsHere_keeps (Keeps.ite (State.pushFrame_keeps h ..)
    h) ..)
theorem execOutputQueueRoom_kept (chars : Nat) : ResKept s (execOutputQueueRoom chars s) :=
  kept_onLatch (Keeps.ite (.refl s) (State.dueRuns_keeps (State.readOn_keeps (State.tellLost_keeps (State.releaseHeld_keeps
    (State.modCon_keeps (.refl s) ..) ..)))))
theorem execSessionIdleTimeout_kept (ses : Fin 16) : ResKept s (execSessionIdleTimeout ses s) :=
  kept_onLatch (Keeps.ite (State.endSession_keeps (.refl s) ..) (.refl s))
theorem execState_kept (q : Src) : ResKept s (execState q s) := kept_verb fun _ h => State.reply_keeps h ..
theorem execWake_kept (q : Src) : ResKept s (execWake q s) := kept_verb fun _ h => State.open__keeps h ..
theorem execRest_kept (q : Src) : ResKept s (execRest q s) := kept_verb fun _ h => State.open__keeps h ..
theorem execBayOn_kept (q : Src) (bays : List BayNo) : ResKept s (execBayOn q bays s) :=
  kept_verb fun _ h => State.openBays_keeps h ..
theorem execBayOff_kept (q : Src) (bays : List BayNo) : ResKept s (execBayOff q bays s) :=
  kept_verb fun _ h => State.openBays_keeps h ..
theorem execBayOnItem_kept (n : BayNo) : ResKept s (execBayOnItem n s) := kept_goOn (State.dispatchWork_keeps (.refl s) ..)
theorem execBayOffItem_kept (n : BayNo) : ResKept s (execBayOffItem n s) := kept_goOn (State.dispatchWork_keeps (.refl s) ..)
theorem execBayLocateOn_kept (q : Src) (n : BayNo) : ResKept s (execBayLocateOn q n s) :=
  kept_verb fun _ h => State.reply_keeps (State.setLocate_keeps h ..) ..
theorem execBayLocateOff_kept (q : Src) (n : BayNo) : ResKept s (execBayLocateOff q n s) :=
  kept_verb fun _ h => State.reply_keeps (State.setLocate_keeps h ..) ..
theorem execLocateMarkTimeout_kept (n : BayNo) : ResKept s (execLocateMarkTimeout n s) :=
  kept_onLatch (by split; exacts [(Keeps.ite (State.setLocate_keeps (.refl s) ..) (.refl s)), (.refl s)])
theorem execBayUnlock_kept (q : Src) (n : BayNo) (proofM proofA : Bool) : ResKept s (execBayUnlock q n proofM proofA s) :=
  kept_verb fun _ h => Keeps.ite (State.modBays_keeps (State.putLock_keeps (State.unlockProofs_keeps h ..) ..) ..)
    (State.reply_keeps (State.unlockProofs_keeps h ..) ..)
theorem execBayInfo_kept (q : Src) (bays : List BayNo) : ResKept s (execBayInfo q bays s) :=
  kept_verb fun _ h => State.countLeft_keeps (State.lines_keeps h ..) ..
theorem execEnvelope_kept (q : Src) : ResKept s (execEnvelope q s) := kept_verb fun _ h => State.reply_keeps h ..
theorem execEnvelopeSet_kept (q : Src) (word : EnvWord) (v : DecVal) : ResKept s (execEnvelopeSet q word v s) :=
  kept_verb fun _ h => State.open__keeps h ..
theorem execProfile_kept (q : Src) (n : BayNo) : ResKept s (execProfile q n s) := kept_verb fun _ h => State.lines_keeps h ..
theorem execProfileForget_kept (q : Src) (bays : List BayNo) : ResKept s (execProfileForget q bays s) :=
  kept_verb fun _ h => State.open__keeps h ..
theorem execProfileForgetItem_kept (n : BayNo) : ResKept s (execProfileForgetItem n s) :=
  kept_goOn (State.dispatchWork_keeps (.refl s) ..)
theorem execScan_kept (q : Src) : ResKept s (execScan q s) := kept_verb fun _ h => State.reply_keeps h ..
theorem execScanRow_kept (q : Src) (r : Fin 16) : ResKept s (execScanRow q r s) := kept_verb fun _ h => State.reply_keeps h ..
theorem execKeys_kept (q : Src) (bays : List BayNo) : ResKept s (execKeys q bays s) :=
  kept_verb fun _ h => State.lines_keeps h ..
theorem execKeysPanel_kept (q : Src) : ResKept s (execKeysPanel q s) := kept_verb fun _ h => State.reply_keeps h ..
theorem execKeysGeneral_kept (q : Src) : ResKept s (execKeysGeneral q s) := kept_verb fun _ h => State.reply_keeps h ..
theorem execTag_kept (q : Src) (bays : List BayNo) (colour : Colour) (pattern : Pattern)
    : ResKept s (execTag q bays colour pattern s) :=
  kept_verb fun _ h => State.open__keeps h ..
theorem execTagAuto_kept (q : Src) (bays : List BayNo) : ResKept s (execTagAuto q bays s) :=
  kept_verb fun _ h => State.open__keeps h ..
theorem execFace_kept (q : Src) : ResKept s (execFace q s) := kept_verb fun _ h => State.reply_keeps h ..
theorem execFaceText_kept (q : Src) (text : String) : ResKept s (execFaceText q text s) :=
  kept_verb fun _ h => State.open__keeps h ..
theorem execFaceTextOff_kept (q : Src) : ResKept s (execFaceTextOff q s) := kept_verb fun _ h => State.open__keeps h ..
theorem execFaceView_kept (q : Src) (view : View) : ResKept s (execFaceView q view s) :=
  kept_verb fun _ h => State.open__keeps h ..
theorem execKeypadHoldTimeout_kept : ResKept s (execKeypadHoldTimeout s) :=
  kept_onLatch (Keeps.ite (State.modFace_keeps (.refl s) ..) (.refl s))
theorem execFan_kept (q : Src) : ResKept s (execFan q s) := kept_verb fun _ h => State.lines_keeps h ..
theorem execFanDuty_kept (q : Src) (fans : List (Fin 8)) (p : Fin 101) : ResKept s (execFanDuty q fans p s) :=
  kept_verb fun _ h => State.reply_keeps (Keeps.foldl _ _ h fun _ _ h => State.modFan_keeps h ..) ..
theorem execFanAuto_kept (q : Src) (fans : List (Fin 8)) : ResKept s (execFanAuto q fans s) :=
  kept_verb fun _ h => State.reply_keeps (State.fansAuto_keeps (Keeps.foldl _ _ h fun _ _ h => State.modFan_keeps h ..)) ..
theorem execFanAbsentTimeout_kept (n : Fin 8) : ResKept s (execFanAbsentTimeout n s) :=
  kept_onField (Keeps.ite (.refl s) (State.modFan_keeps (.refl s) ..))
theorem execFanTachSecond_kept (pulses : Vector (BitVec 16) 8) : ResKept s (execFanTachSecond pulses s) :=
  kept_onField (Keeps.ite (Keeps.foldl _ _ (State.modFans_keeps (.refl s) ..) fun _ _ h => State.tach_keeps h ..) (.refl s))
theorem execFanStall_kept (n : Fin 8) : ResKept s (execFanStall n s) := kept_onField (State.fanStalls_keeps (.refl s) ..)
theorem execThermistorConversion_kept (i : Fin 17) (code : BitVec 12) : ResKept s (execThermistorConversion i code s) :=
  kept_onField (State.converted_keeps (.refl s) ..)
theorem execTemp_kept (q : Src) : ResKept s (execTemp q s) := kept_verb fun _ h => State.lines_keeps h ..
theorem execLine_kept (q : Src) : ResKept s (execLine q s) := kept_verb fun _ h => State.reply_keeps h ..
theorem execLineBaud_kept (q : Src) (b : Nat) : ResKept s (execLineBaud q b s) :=
  kept_verb fun _ h => State.replyRate_keeps (State.modCon_keeps h ..) ..
theorem execLineXonOn_kept (q : Src) : ResKept s (execLineXonOn q s) :=
  kept_verb fun _ h => State.reply_keeps (State.modCon_keeps h ..) ..
theorem execLineXonOff_kept (q : Src) : ResKept s (execLineXonOff q s) :=
  kept_verb fun _ h => State.reply_keeps (State.modCon_keeps h ..) ..
theorem execBaudApply_kept : ResKept s (execBaudApply s) := kept_onLatch (State.modCon_keeps (.refl s) ..)
theorem execEcho_kept (q : Src) : ResKept s (execEcho q s) := kept_verb fun _ h => State.reply_keeps h ..
theorem execEchoOn_kept (q : Src) : ResKept s (execEchoOn q s) :=
  kept_verb fun _ h => State.reply_keeps (State.modSes_keeps h ..) ..
theorem execEchoOff_kept (q : Src) : ResKept s (execEchoOff q s) :=
  kept_verb fun _ h => State.reply_keeps (State.modSes_keeps h ..) ..
theorem execWho_kept (q : Src) : ResKept s (execWho q s) := kept_verb fun _ h => State.reply_keeps h ..
theorem execWhoAll_kept (q : Src) : ResKept s (execWhoAll q s) := kept_verb fun _ h => State.lines_keeps h ..
theorem execOpenT_kept (q : Src) (t : Ten) : ResKept s (execOpenT q t s) :=
  kept_verb fun _ h => State.later_keeps (State.reply_keeps (State.modSes_keeps (State.draw_keeps h) ..) ..) ..
theorem execChallengeLapse_kept (ses : Fin 16) : ResKept s (execChallengeLapse ses s) :=
  kept_onLatch (Keeps.ite (State.modSes_keeps (.refl s) ..) (.refl s))
theorem execClose_kept (q : Src) : ResKept s (execClose q s) :=
  kept_verb fun _ h => Keeps.ite (State.reply_keeps (State.modSes_keeps h ..) ..) (Keeps.ite (State.later_keeps
    (State.reply_keeps (State.modSes_keeps h ..) ..) ..) (State.endSession_keeps (State.reply_keeps (State.modSes_keeps
    h ..) ..) ..))
theorem execKey_kept (q : Src) (t : Ten) : ResKept s (execKey q t s) := kept_verb fun _ h => State.reply_keeps h ..
theorem execKeySet_kept (q : Src) (t : Ten) (key : BitVec 256) : ResKept s (execKeySet q t key s) :=
  kept_verb fun _ h => State.open__keeps h ..
theorem execKeyClear_kept (q : Src) (t : Ten) : ResKept s (execKeyClear q t s) := kept_verb fun _ h => State.open__keeps h ..
theorem execTenancy_kept (q : Src) (t : Ten) : ResKept s (execTenancy q t s) := kept_verb fun _ h => State.reply_keeps h ..
theorem execTenancyGroup_kept (q : Src) (t : Ten) (g : Nat) : ResKept s (execTenancyGroup q t g s) :=
  kept_verb fun _ h => State.store_keeps h ..
theorem execTenancyShare_kept (q : Src) (t : Ten) (v : DecVal) : ResKept s (execTenancyShare q t v s) :=
  kept_verb fun _ h => State.store_keeps h ..
theorem execTenancyAllot_kept (q : Src) (t : Ten) (v : DecVal) : ResKept s (execTenancyAllot q t v s) :=
  kept_verb fun _ h => State.store_keeps h ..
theorem execTenancyWeight_kept (q : Src) (g w : Nat) : ResKept s (execTenancyWeight q g w s) :=
  kept_verb fun _ h => State.store_keeps h ..
theorem execTenancySettingApply_kept : ResKept s (execTenancySettingApply s) :=
  kept_onLatch (State.settingsApply_keeps (.refl s))
theorem execAssign_kept (q : Src) (bays : List BayNo) (t : Ten) : ResKept s (execAssign q bays t s) :=
  kept_verb fun _ h => State.store_keeps h ..
theorem execAssignNone_kept (q : Src) (bays : List BayNo) : ResKept s (execAssignNone q bays s) :=
  kept_verb fun _ h => State.store_keeps h ..
theorem execQuota_kept (q : Src) (t : Ten) : ResKept s (execQuota q t s) := kept_verb fun _ h => State.reply_keeps h ..
theorem execQuotaPool_kept (q : Src) (t : Ten) (p k : Nat) : ResKept s (execQuotaPool q t p k s) :=
  kept_verb fun _ h => State.store_keeps h ..
theorem execLedger_kept (q : Src) (t : Ten) : ResKept s (execLedger q t s) := kept_verb fun _ h => State.lines_keeps h ..
theorem execLedgerGaps_kept (q : Src) (t : Ten) : ResKept s (execLedgerGaps q t s) :=
  kept_verb fun _ h => State.lines_keeps h ..
theorem execLedgerEpoch_kept (q : Src) (t : Ten) : ResKept s (execLedgerEpoch q t s) :=
  kept_verb fun _ h => State.open__keeps h ..
theorem execTime_kept (q : Src) : ResKept s (execTime q s) := kept_verb fun _ h => State.reply_keeps h ..
theorem execTimeSet_kept (q : Src) (n : Word) : ResKept s (execTimeSet q n s) :=
  kept_verb fun _ h => State.reply_keeps (State.setTime_keeps h ..) ..
theorem execPlot_kept (q : Src) : ResKept s (execPlot q s) := kept_verb fun _ h => State.lines_keeps h ..
theorem execPlotTenancy_kept (q : Src) (t : Ten) : ResKept s (execPlotTenancy q t s) :=
  kept_verb fun _ h => State.reply_keeps h ..
theorem execPlotLoad_kept (q : Src) (t : Ten) (a : Nat) : ResKept s (execPlotLoad q t a s) :=
  kept_verb fun _ h => State.open__keeps h ..
theorem execPlotUnload_kept (q : Src) (t : Ten) : ResKept s (execPlotUnload q t s) :=
  kept_verb fun _ h => State.open__keeps h ..
theorem execXVerb_kept (q : Src) (name text : String) : ResKept s (execXVerb q name text s) :=
  kept_verb fun _ h => by split; exacts [(State.open__keeps h ..), h]
theorem execXCompletion_kept : ResKept s (execXCompletion s) :=
  kept_onField (State.runDue_keeps (State.xComplete_keeps (.refl s)))
theorem execPlotWakeRequest_kept : ResKept s (execPlotWakeRequest s) := kept_onField (State.plotAsks_keeps (.refl s))
theorem execPlotWakeDue_kept (t : Ten) : ResKept s (execPlotWakeDue t s) := kept_onLatch (State.plotDue_keeps (.refl s) ..)
theorem execDeferredResourceClaim_kept : ResKept s (execDeferredResourceClaim s) :=
  kept_goOn (Keeps.ite (.refl s) (State.runDue_keeps (State.retryX_keeps (.refl s))))
theorem execRing_kept (q : Src) : ResKept s (execRing q s) := kept_verb fun _ h => State.reply_keeps h ..
theorem execRingEnum_kept (q : Src) : ResKept s (execRingEnum q s) :=
  kept_verb fun _ h => State.startPass_keeps (State.reply_keeps h ..)
theorem execRingTermOn_kept (q : Src) : ResKept s (execRingTermOn q s) := kept_verb fun _ h => State.store_keeps h ..
theorem execRingTermOff_kept (q : Src) : ResKept s (execRingTermOff q s) := kept_verb fun _ h => State.store_keeps h ..
theorem execTrace_kept (q : Src) : ResKept s (execTrace q s) := kept_verb fun _ h => State.reply_keeps h ..
theorem execTraceCoresOn_kept (q : Src) (cores : List CoreId) : ResKept s (execTraceCoresOn q cores s) :=
  kept_verb fun _ h => State.reply_keeps (State.setTraced_keeps h ..) ..
theorem execTraceCoresOff_kept (q : Src) (cores : List CoreId) : ResKept s (execTraceCoresOff q cores s) :=
  kept_verb fun _ h => State.reply_keeps (State.setTraced_keeps h ..) ..
theorem execTraceModeStop_kept (q : Src) : ResKept s (execTraceModeStop q s) :=
  kept_verb fun _ h => State.reply_keeps (State.modSow_keeps h ..) ..
theorem execTraceModeWrap_kept (q : Src) : ResKept s (execTraceModeWrap q s) :=
  kept_verb fun _ h => State.reply_keeps (State.modSow_keeps h ..) ..
theorem execTraceClear_kept (q : Src) : ResKept s (execTraceClear q s) :=
  kept_verb fun _ h => State.reply_keeps (State.modSow_keeps h ..) ..
theorem execTraceDump_kept (q : Src) (k : Nat) : ResKept s (execTraceDump q k s) :=
  kept_verb fun _ h => State.later_keeps (State.lines_keeps h ..) ..
theorem execStatsQ_kept (q : Src) (n : Fin 64) : ResKept s (execStatsQ q n s) :=
  kept_verb fun _ h => State.reply_keeps (State.timed_keeps h ..) ..
theorem execStatsCore_kept (q : Src) (n : CoreId) : ResKept s (execStatsCore q n s) :=
  kept_verb fun _ h => State.reply_keeps (State.timed_keeps h ..) ..
theorem execStatsClear_kept (q : Src) : ResKept s (execStatsClear q s) :=
  kept_verb fun _ h => State.reply_keeps (State.zeroStats_keeps h ..) ..
theorem execGranary_kept (q : Src) : ResKept s (execGranary q s) := kept_verb fun _ h => State.reply_keeps h ..
theorem execGranaryUse_kept (q : Src) (r : Fin 32) : ResKept s (execGranaryUse q r s) :=
  kept_verb fun _ h => State.reply_keeps h ..
theorem execGranaryModeSingle_kept (q : Src) : ResKept s (execGranaryModeSingle q s) :=
  kept_verb fun _ h => State.store_keeps h ..
theorem execGranaryModeSized_kept (q : Src) : ResKept s (execGranaryModeSized q s) :=
  kept_verb fun _ h => State.store_keeps h ..
theorem execFurrow_kept (q : Src) : ResKept s (execFurrow q s) := kept_verb fun _ h => State.reply_keeps h ..
theorem execSeedbank_kept (q : Src) : ResKept s (execSeedbank q s) := kept_verb fun _ h => State.reply_keeps h ..
theorem execSelftest_kept (q : Src) : ResKept s (execSelftest q s) := kept_verb fun _ h => State.open__keeps h ..
theorem execResetField_kept (q : Src) : ResKept s (execResetField q s) :=
  kept_verb fun _ h => Keeps.ite (State.later_keeps (State.reply_keeps h ..) ..) (State.fieldRestart_keeps (State.reply_keeps
    h ..) ..)
theorem execHandle_kept (q : Src) (h : HRef) : ResKept s (execHandle q h s) :=
  kept_verb fun _ h => by split; exacts [(State.reply_keeps h ..), (by split; exacts [(State.deliver_keeps (State.reply_keeps
    (State.more_keeps h ..) ..) ..), (State.reply_keeps h ..)])]
theorem execHandles_kept (q : Src) : ResKept s (execHandles q s) := kept_verb fun _ h => State.lines_keeps h ..
theorem execHandlesOrphan_kept (q : Src) : ResKept s (execHandlesOrphan q s) := kept_verb fun _ h => State.lines_keeps h ..
theorem execCancel_kept (q : Src) (r : HRef) : ResKept s (execCancel q r s) :=
  kept_verb fun _ h => State.reply_keeps (State.cancelLine_keeps h ..) ..
theorem execCompletionHeldSend_kept : ResKept s (execCompletionHeldSend s) := kept_goOn (State.sendHeld_keeps (.refl s))
theorem execJournalWriteStart_kept : ResKept s (execJournalWriteStart s) := kept_goOn (State.journalStart_keeps (.refl s))
theorem execRecordDurable_kept (verified : Bool) : ResKept s (execRecordDurable verified s) :=
  kept_goOn (Keeps.ite (.refl s) (State.restGoes_keeps (State.recordEnds_keeps (.refl s) ..)))
theorem execFurRead_kept : ResKept s (execFurRead s) := kept_goOn (State.furCmd_keeps (.refl s) ..)
theorem execFurWrite_kept : ResKept s (execFurWrite s) := kept_goOn (State.furCmd_keeps (.refl s) ..)
theorem execFurrowOpDone_kept (verified : Bool) : ResKept s (execFurrowOpDone verified s) :=
  kept_goOn (Keeps.ite (.refl s) (State.restGoes_keeps (State.furrowDone_keeps (.refl s) ..)))
theorem execRingSolFrame_kept (mark : Bool) (dest src ses : Byte) (text : String) (left : Fin 65)
    : ResKept s (execRingSolFrame mark dest src ses text left s) :=
  kept_onLatch (State.lineFrame_keeps (.refl s) ..)
theorem execRingSobFrame_kept (mark : Bool) (dest src ses : Byte) (text : String) (left : Fin 65)
    : ResKept s (execRingSobFrame mark dest src ses text left s) :=
  kept_onLatch (State.lineFrame_keeps (.refl s) ..)
theorem execRingSorFrame_kept (mark : Bool) (dest src ses : Byte) (text : String) (left : Fin 65)
    : ResKept s (execRingSorFrame mark dest src ses text left s) :=
  kept_onLatch (State.lineFrame_keeps (.refl s) ..)
theorem execRingEnumFrame_kept (pass next : Byte) (full ovr : Bool) : ResKept s (execRingEnumFrame pass next full ovr s) :=
  kept_onLatch (Keeps.ite (State.passReturns_keeps (State.modRing_keeps (State.leftOver_keeps (.refl s)) ..) ..)
    (State.enumerate_keeps (State.leftOver_keeps (.refl s)) ..))
theorem execRingBrkFrame_kept (reporter : Byte) (numbered : Bool) (hops : Byte)
    : ResKept s (execRingBrkFrame reporter numbered hops s) :=
  kept_onLatch (Keeps.ite (State.breaks_keeps (State.modRing_keeps (State.leftOver_keeps (.refl s)) ..) ..)
    (State.modRing_keeps (State.leftOver_keeps (.refl s)) ..))
theorem execRingJoinFrame_kept : ResKept s (execRingJoinFrame s) :=
  kept_onLatch (Keeps.ite (State.startPass_keeps (State.modRing_keeps (State.leftOver_keeps (.refl s)) ..))
    (State.modRing_keeps (State.leftOver_keeps (.refl s)) ..))
theorem execRingAbt_kept (forwarded : Bool) : ResKept s (execRingAbt forwarded s) :=
  kept_onLatch (State.modRing_keeps (.refl s) ..)
theorem execRingFramingError_kept (forwarded : Bool) : ResKept s (execRingFramingError forwarded s) :=
  kept_onLatch (State.modRing_keeps (.refl s) ..)
theorem execRingOverrun_kept (forwarded : Bool) : ResKept s (execRingOverrun forwarded s) :=
  kept_onLatch (State.modRing_keeps (.refl s) ..)
theorem execRingHoldInput_kept (hold : Bool) : ResKept s (execRingHoldInput hold s) :=
  kept_onLatch (State.modRing_keeps (.refl s) ..)
theorem execRingTxFrameStart_kept : ResKept s (execRingTxFrameStart s) := kept_onLatch (State.txStart_keeps (.refl s))
theorem execEnumPassTimeout_kept : ResKept s (execEnumPassTimeout s) :=
  kept_onLatch (Keeps.ite (.refl s) (Keeps.ite (State.sendPass_keeps (.refl s) ..) (Keeps.ite (State.breaks_keeps
    (State.modRing_keeps (.refl s) ..) ..) (Keeps.ite (State.modRing_keeps (.refl s) ..) (State.breaks_keeps
    (State.modRing_keeps (.refl s) ..) ..)))))
theorem execEnumBrokenRetry_kept : ResKept s (execEnumBrokenRetry s) :=
  kept_onLatch (Keeps.ite (State.startPass_keeps (.refl s)) (.refl s))
theorem execUpstreamDead_kept : ResKept s (execUpstreamDead s) :=
  kept_onLatch (Keeps.ite (.refl s) (Keeps.ite (State.breaks_keeps (State.report_keeps (State.modRing_keeps (.refl s) ..)) ..)
    (State.modRing_keeps (State.report_keeps (State.modRing_keeps (.refl s) ..)) ..)))
theorem execUpstreamAlive_kept : ResKept s (execUpstreamAlive s) := kept_onLatch (State.modRing_keeps (.refl s) ..)
theorem execBreakReportRepeat_kept : ResKept s (execBreakReportRepeat s) :=
  kept_onLatch (Keeps.ite (State.report_keeps (.refl s)) (.refl s))
theorem execJoinRepeat_kept : ResKept s (execJoinRepeat s) :=
  kept_onLatch (Keeps.ite (State.sendOwn_keeps (.refl s) ..) (.refl s))
theorem execRingBypass_kept (on : Bool) : ResKept s (execRingBypass on s) := kept_onLatch (State.modRing_keeps (.refl s) ..)
theorem execRngEnumWrite_kept : ResKept s (execRngEnumWrite s) := kept_onLatch (State.startPass_keeps (.refl s))
theorem execRngRxRead_kept : ResKept s (execRngRxRead s) := kept_onLatch (State.modRing_keeps (.refl s) ..)
theorem execRngTxSymbol_kept (sym : BitVec 9) : ResKept s (execRngTxSymbol sym s) :=
  kept_onLatch (State.writeTx_keeps (.refl s) ..)
theorem execRngTxCancel_kept : ResKept s (execRngTxCancel s) := kept_onLatch (State.cancelTx_keeps (.refl s))
theorem execKeyswitchFault_kept : ResKept s (execKeyswitchFault s) := kept_onLatch (State.switchFault_keeps (.refl s))
theorem execSdbRead_kept : ResKept s (execSdbRead s) := kept_goOn (Keeps.ite (.refl s) (State.sdbCmd_keeps (.refl s) ..))
theorem execSdbWrite_kept : ResKept s (execSdbWrite s) := kept_goOn (Keeps.ite (.refl s) (State.sdbCmd_keeps (.refl s) ..))
theorem execSeedbankOpDone_kept (verified : Bool) : ResKept s (execSeedbankOpDone verified s) :=
  kept_goOn (Keeps.ite (.refl s) (State.seedbankDone_keeps (.refl s) ..))
theorem execCalendarTick_kept : ResKept s (execCalendarTick s) := kept_onLatch (State.calendarTick_keeps (.refl s))
theorem execTickItemPost_kept : ResKept s (execTickItemPost s) := kept_onLatch (State.tickItemPost_keeps (.refl s))
theorem execCalendarSave_kept (verified : Bool) : ResKept s (execCalendarSave verified s) :=
  kept_goOn (State.calendarSave_keeps (.refl s) ..)
theorem execUtcAdvance_kept : ResKept s (execUtcAdvance s) :=
  kept_onLatch (Keeps.ite (State.modCal_keeps (.refl s) ..) (.refl s))
theorem execLedgerTick_kept : ResKept s (execLedgerTick s) :=
  kept_goOn (State.ticked_keeps (State.ledgerTick_keeps (.refl s)))
theorem execIntervalEnd_kept : ResKept s (execIntervalEnd s) :=
  kept_goOn (State.ticked_keeps (State.intervalEnd_keeps (.refl s)))
theorem execCheckpointDurable_kept (verified : Bool) : ResKept s (execCheckpointDurable verified s) :=
  kept_goOn (State.restGoes_keeps (State.checkpointDone_keeps (.refl s) ..))
theorem execCalTickLoRead_kept (t : Tid) : ResKept s (execCalTickLoRead t s) :=
  kept_onLatch (State.readTickLo_keeps (.refl s) ..)
theorem execCalLoad_kept (lo : Word) (hi : BitVec 16) : ResKept s (execCalLoad lo hi s) :=
  kept_onLatch (State.loadCount_keeps (State.modCal_keeps (.refl s) ..) ..)
theorem execCalUtcSet_kept (v : Word) : ResKept s (execCalUtcSet v s) := kept_onLatch (State.setUtc_keeps (.refl s) ..)
theorem execBayStart_kept (n : BayNo) : ResKept s (execBayStart n s) :=
  kept_onField (State.settle_keeps (State.bayStart_keeps (.refl s) ..))
theorem execBayStop_kept (n : BayNo) : ResKept s (execBayStop n s) :=
  kept_onField (State.settle_keeps (State.bayStop_keeps (.refl s) ..))
theorem execGateGood_kept (n : BayNo) (rail : Rail) : ResKept s (execGateGood n rail s) :=
  kept_onField (State.gateGood_keeps (.refl s) ..)
theorem execBlankWindowEnd_kept (n : BayNo) (rail : Rail) : ResKept s (execBlankWindowEnd n rail s) :=
  kept_onField (State.blankEnd_keeps (.refl s) ..)
theorem execFastOver_kept (n : BayNo) (rail : Rail) : ResKept s (execFastOver n rail s) :=
  kept_onField (State.fastOver_keeps (.refl s) ..)
theorem execSlowTrip_kept (n : BayNo) (rail : Rail) : ResKept s (execSlowTrip n rail s) :=
  kept_onField (State.slowTrip_keeps (.refl s) ..)
theorem execGateTimeout_kept (n : BayNo) (rail : Rail) : ResKept s (execGateTimeout n rail s) :=
  kept_onField (State.gateTimeout_keeps (.refl s) ..)
theorem execGatesBelow1v_kept (n : BayNo) : ResKept s (execGatesBelow1v n s) :=
  kept_onField (State.gatesDown_keeps (.refl s) ..)
theorem execGateOffLockout_kept (n : BayNo) (mainUp auxUp : Bool) : ResKept s (execGateOffLockout n mainUp auxUp s) :=
  kept_onField (State.gateOff_keeps (.refl s) ..)
theorem execShadowMismatch_kept (n : BayNo) (rail : Rail) (parity : Bool) : ResKept s (execShadowMismatch n rail parity s) :=
  kept_onField (State.shadowFails_keeps (.refl s) ..)
theorem execLockItemServe_kept : ResKept s (execLockItemServe s) :=
  kept_goOn (Keeps.ite (.refl s) (State.serveLock_keeps (.refl s)))
theorem execProofStart_kept (n : BayNo) (rail : Rail) : ResKept s (execProofStart n rail s) :=
  kept_onField (State.proofBegins_keeps (.refl s) ..)
theorem execProofCheck_kept (n : BayNo) (rail : Rail) (fastOver slowOver : Bool)
    : ResKept s (execProofCheck n rail fastOver slowOver s) :=
  kept_onField (State.proofChecked_keeps (.refl s) ..)
theorem execProofEnd_kept (n : BayNo) (rail : Rail) (stillOver : Bool) : ResKept s (execProofEnd n rail stillOver s) :=
  kept_onField (State.runDue_keeps (Keeps.ite (State.selfProof_keeps (State.proofEnds_keeps (.refl s) ..) ..)
    (State.proofEnds_keeps (.refl s) ..)))
theorem execProofRun_kept (n : BayNo) : ResKept s (execProofRun n s) := kept_onField (State.proofRun_keeps (.refl s) ..)
theorem execAdcSampleComplete_kept (isum : List Int) (vsum : List Nat) : ResKept s (execAdcSampleComplete isum vsum s) :=
  kept_onField (State.samples_keeps (.refl s) ..)
theorem execSysLockSet_kept (n : BayNo) : ResKept s (execSysLockSet n s) :=
  kept_goOn (Keeps.ite (.refl s) (State.writeLock_keeps (.refl s) ..))
theorem execSysLockClear_kept (n : BayNo) : ResKept s (execSysLockClear n s) :=
  kept_goOn (Keeps.ite (.refl s) (State.writeLock_keeps (.refl s) ..))
theorem execGuardSlot_kept (mainCodes auxCodes : List Int) : ResKept s (execGuardSlot mainCodes auxCodes s) :=
  kept_onField (State.guardSlot_keeps (.refl s) ..)
theorem execGuardHold_kept : ResKept s (execGuardHold s) := kept_onField (State.guardHold_keeps (.refl s))
theorem execGuardHoldClear_kept : ResKept s (execGuardHoldClear s) := kept_onField (State.guardClear_keeps (.refl s))
theorem execGuardRelease_kept : ResKept s (execGuardRelease s) := kept_onField (State.guardRelease_keeps (.refl s))
theorem execGuardShed_kept : ResKept s (execGuardShed s) := kept_onField (State.guardShed_keeps (.refl s))
theorem execPlannerStart_kept (n : BayNo) : ResKept s (execPlannerStart n s) :=
  kept_onField (State.ticked_keeps (State.plannerStart_keeps (State.lcTicks_keeps (.refl s)) ..))
theorem execReplan_kept : ResKept s (execReplan s) := kept_onField (State.replan_keeps (.refl s))
theorem execProfileUpdate_kept (n : BayNo) : ResKept s (execProfileUpdate n s) :=
  kept_onField (State.profileUpdate_keeps (.refl s) ..)
theorem execEnvPeakRead_kept : ResKept s (execEnvPeakRead s) := kept_onField (State.readEnvPort_keeps (.refl s) ..)
theorem execScanFrameStart_kept (contacts : Vector (BitVec 32) 16) : ResKept s (execScanFrameStart contacts s) :=
  kept_onLatch (State.frameStart_keeps (.refl s) ..)
theorem execShiftStallResume_kept : ResKept s (execShiftStallResume s) := kept_onLatch (State.stallResume_keeps (.refl s))
theorem execScanFrameComplete_kept : ResKept s (execScanFrameComplete s) := kept_onLatch (State.frameDone_keeps (.refl s))
theorem execScanSwap_kept : ResKept s (execScanSwap s) := kept_onLatch (State.modKeys_keeps (.refl s) ..)
theorem execScanStepWrite_kept (i : Fin 64) (w : Word) : ResKept s (execScanStepWrite i w s) :=
  kept_onLatch (State.modKeys_keeps (.refl s) ..)
theorem execScanArm_kept : ResKept s (execScanArm s) := kept_onLatch (State.modKeys_keeps (.refl s) ..)
theorem execScanDisarm_kept : ResKept s (execScanDisarm s) := kept_onLatch (State.disarm_keeps (.refl s))
theorem execKeyEventServe_kept : ResKept s (execKeyEventServe s) := kept_onLatch (State.serveKeyEvent_keeps (.refl s))
theorem execKeyLocate_kept (n : BayNo) : ResKept s (execKeyLocate n s) := kept_onPanel (State.locateKey_keeps (.refl s) ..)
theorem execKeyLever_kept (n : BayNo) : ResKept s (execKeyLever n s) := kept_onLatch (State.leverClosed_keeps (.refl s) ..)
theorem execKeypadBay_kept (digits : List (Fin 10)) : ResKept s (execKeypadBay digits s) :=
  kept_onPanel (State.keypadBay_keeps (.refl s) ..)
theorem execKeypadTenancy_kept (digits : List (Fin 10)) : ResKept s (execKeypadTenancy digits s) :=
  kept_onPanel (State.keypadTenancy_keeps (.refl s) ..)
theorem execKeypadUpDown_kept (up : Bool) : ResKept s (execKeypadUpDown up s) :=
  kept_onPanel (State.keypadStep_keeps (.refl s) ..)
theorem execKeypadLocate_kept : ResKept s (execKeypadLocate s) := kept_onPanel (State.keypadLocate_keeps (.refl s))
theorem execKeypadView_kept : ResKept s (execKeypadView s) := kept_onPanel (State.keypadShow_keeps (.refl s) ..)
theorem execKeypadClear_kept : ResKept s (execKeypadClear s) := kept_onPanel (State.modFace_keeps (.refl s) ..)
theorem execPanelWake_kept : ResKept s (execPanelWake s) := kept_onPanel (State.panelWake_keeps (.refl s))
theorem execPanelRest_kept : ResKept s (execPanelRest s) := kept_onPanel (State.panelRest_keeps (.refl s))
theorem execPanelDot_kept (held : Bool) : ResKept s (execPanelDot held s) := kept_onPanel (State.setDot_keeps (.refl s) ..)
theorem execErrTimeout_kept : ResKept s (execErrTimeout s) :=
  kept_onLatch (Keeps.ite (State.modFace_keeps (.refl s) ..) (.refl s))
theorem execFaceCommit_kept : ResKept s (execFaceCommit s) := kept_onLatch (State.modFace_keeps (.refl s) ..)
theorem execFaceFrameStart_kept : ResKept s (execFaceFrameStart s) := kept_onLatch (State.faceFrame_keeps (.refl s))
theorem execFaceRender_kept : ResKept s (execFaceRender s) :=
  kept_onLatch (Keeps.ite (State.render_keeps (.refl s)) (.refl s))
theorem execFaceViewRotate_kept : ResKept s (execFaceViewRotate s) :=
  kept_onLatch (Keeps.ite (State.modFace_keeps (.refl s) ..) (.refl s))
theorem execNop_kept (k : CoreId) : ResKept s (execNop k s) := kept_oluique (onThread_kept _)
theorem execAdd_kept (k : CoreId) (rd ra rb : Reg) : ResKept s (execAdd k rd ra rb s) := kept_oluique (onThread_kept _)
theorem execSub_kept (k : CoreId) (rd ra rb : Reg) : ResKept s (execSub k rd ra rb s) := kept_oluique (onThread_kept _)
theorem execAddc_kept (k : CoreId) (rd ra rb : Reg) : ResKept s (execAddc k rd ra rb s) := kept_oluique (onThread_kept _)
theorem execSubc_kept (k : CoreId) (rd ra rb : Reg) : ResKept s (execSubc k rd ra rb s) := kept_oluique (onThread_kept _)
theorem execAnd_kept (k : CoreId) (rd ra rb : Reg) : ResKept s (execAnd k rd ra rb s) := kept_oluique (onThread_kept _)
theorem execOr_kept (k : CoreId) (rd ra rb : Reg) : ResKept s (execOr k rd ra rb s) := kept_oluique (onThread_kept _)
theorem execXor_kept (k : CoreId) (rd ra rb : Reg) : ResKept s (execXor k rd ra rb s) := kept_oluique (onThread_kept _)
theorem execShl_kept (k : CoreId) (rd ra rb : Reg) : ResKept s (execShl k rd ra rb s) := kept_oluique (onThread_kept _)
theorem execShr_kept (k : CoreId) (rd ra rb : Reg) : ResKept s (execShr k rd ra rb s) := kept_oluique (onThread_kept _)
theorem execSar_kept (k : CoreId) (rd ra rb : Reg) : ResKept s (execSar k rd ra rb s) := kept_oluique (onThread_kept _)
theorem execSlt_kept (k : CoreId) (rd ra rb : Reg) : ResKept s (execSlt k rd ra rb s) := kept_oluique (onThread_kept _)
theorem execSltu_kept (k : CoreId) (rd ra rb : Reg) : ResKept s (execSltu k rd ra rb s) := kept_oluique (onThread_kept _)
theorem execClz_kept (k : CoreId) (rd ra : Reg) : ResKept s (execClz k rd ra s) := kept_oluique (onThread_kept _)
theorem execPopc_kept (k : CoreId) (rd ra : Reg) : ResKept s (execPopc k rd ra s) := kept_oluique (onThread_kept _)
theorem execShli_kept (k : CoreId) (rd ra : Reg) (n : Fin 32) : ResKept s (execShli k rd ra n s) :=
  kept_oluique (onThread_kept _)
theorem execShri_kept (k : CoreId) (rd ra : Reg) (n : Fin 32) : ResKept s (execShri k rd ra n s) :=
  kept_oluique (onThread_kept _)
theorem execSari_kept (k : CoreId) (rd ra : Reg) (n : Fin 32) : ResKept s (execSari k rd ra n s) :=
  kept_oluique (onThread_kept _)
theorem execAddi_kept (k : CoreId) (rd ra : Reg) (imm : BitVec 16) : ResKept s (execAddi k rd ra imm s) :=
  kept_oluique (onThread_kept _)
theorem execAndi_kept (k : CoreId) (rd ra : Reg) (imm : BitVec 16) : ResKept s (execAndi k rd ra imm s) :=
  kept_oluique (onThread_kept _)
theorem execOri_kept (k : CoreId) (rd ra : Reg) (imm : BitVec 16) : ResKept s (execOri k rd ra imm s) :=
  kept_oluique (onThread_kept _)
theorem execXori_kept (k : CoreId) (rd ra : Reg) (imm : BitVec 16) : ResKept s (execXori k rd ra imm s) :=
  kept_oluique (onThread_kept _)
theorem execSlti_kept (k : CoreId) (rd ra : Reg) (imm : BitVec 16) : ResKept s (execSlti k rd ra imm s) :=
  kept_oluique (onThread_kept _)
theorem execLui_kept (k : CoreId) (rd : Reg) (imm : BitVec 16) : ResKept s (execLui k rd imm s) :=
  kept_oluique (onThread_kept _)
theorem execLdw_kept (k : CoreId) (rd ra : Reg) (imm : BitVec 16) : ResKept s (execLdw k rd ra imm s) :=
  kept_oluique (load_kept _ _ _ _ _)
theorem execLdh_kept (k : CoreId) (rd ra : Reg) (imm : BitVec 16) : ResKept s (execLdh k rd ra imm s) :=
  kept_oluique (load_kept _ _ _ _ _)
theorem execLdhu_kept (k : CoreId) (rd ra : Reg) (imm : BitVec 16) : ResKept s (execLdhu k rd ra imm s) :=
  kept_oluique (load_kept _ _ _ _ _)
theorem execLdb_kept (k : CoreId) (rd ra : Reg) (imm : BitVec 16) : ResKept s (execLdb k rd ra imm s) :=
  kept_oluique (load_kept _ _ _ _ _)
theorem execLdbu_kept (k : CoreId) (rd ra : Reg) (imm : BitVec 16) : ResKept s (execLdbu k rd ra imm s) :=
  kept_oluique (load_kept _ _ _ _ _)
theorem execStw_kept (k : CoreId) (rs ra : Reg) (imm : BitVec 16) : ResKept s (execStw k rs ra imm s) :=
  kept_oluique (store_kept _ _ _ _)
theorem execSth_kept (k : CoreId) (rs ra : Reg) (imm : BitVec 16) : ResKept s (execSth k rs ra imm s) :=
  kept_oluique (store_kept _ _ _ _)
theorem execStb_kept (k : CoreId) (rs ra : Reg) (imm : BitVec 16) : ResKept s (execStb k rs ra imm s) :=
  kept_oluique (store_kept _ _ _ _)
theorem execXchw_kept (k : CoreId) (rd ra : Reg) (imm : BitVec 16) : ResKept s (execXchw k rd ra imm s) :=
  kept_oluique (dataAccess_kept (by exact fun _ _ _ h => State.modTh_keeps (State.writeData_keeps h ..) ..))
theorem execPortIn_kept (k : CoreId) (rd ra : Reg) (imm : BitVec 16) : ResKept s (execPortIn k rd ra imm s) :=
  kept_oluique (portIn_kept _ _ _ _)
theorem execPortOut_kept (k : CoreId) (rs ra : Reg) (imm : BitVec 16) : ResKept s (execPortOut k rs ra imm s) :=
  kept_oluique (portOut_kept _ _ _ _)
theorem execPortWriteDrain_kept (k : Fin 6) : ResKept s (execPortWriteDrain k s) :=
  kept_onField (State.drainOne_keeps (.refl s) ..)
theorem execIrd_kept (k : CoreId) (rd ra : Reg) (imm : BitVec 16) : ResKept s (execIrd k rd ra imm s) :=
  kept_oluique (instrAccess_kept (by exact fun _ _ _ _ h => State.modTh_keeps h ..))
theorem execIwr_kept (k : CoreId) (rs ra : Reg) (imm : BitVec 16) : ResKept s (execIwr k rs ra imm s) :=
  kept_oluique (instrAccess_kept (by exact fun _ _ _ _ h => iwr_kept h))
theorem execBeq_kept (k : CoreId) (ra rb : Reg) (off : BitVec 16) : ResKept s (execBeq k ra rb off s) :=
  kept_oluique (branch_kept _ _ _ _)
theorem execBne_kept (k : CoreId) (ra rb : Reg) (off : BitVec 16) : ResKept s (execBne k ra rb off s) :=
  kept_oluique (branch_kept _ _ _ _)
theorem execBlt_kept (k : CoreId) (ra rb : Reg) (off : BitVec 16) : ResKept s (execBlt k ra rb off s) :=
  kept_oluique (branch_kept _ _ _ _)
theorem execBge_kept (k : CoreId) (ra rb : Reg) (off : BitVec 16) : ResKept s (execBge k ra rb off s) :=
  kept_oluique (branch_kept _ _ _ _)
theorem execBltu_kept (k : CoreId) (ra rb : Reg) (off : BitVec 16) : ResKept s (execBltu k ra rb off s) :=
  kept_oluique (branch_kept _ _ _ _)
theorem execBgeu_kept (k : CoreId) (ra rb : Reg) (off : BitVec 16) : ResKept s (execBgeu k ra rb off s) :=
  kept_oluique (branch_kept _ _ _ _)
theorem execJmp_kept (k : CoreId) (off : BitVec 26) : ResKept s (execJmp k off s) := kept_oluique fun _ _ h => h
theorem execCall_kept (k : CoreId) (off : BitVec 26) : ResKept s (execCall k off s) := kept_oluique (callTo_kept _)
theorem execJr_kept (k : CoreId) (ra : Reg) : ResKept s (execJr k ra s) := kept_oluique fun _ _ h => h
theorem execCallr_kept (k : CoreId) (ra : Reg) : ResKept s (execCallr k ra s) := kept_oluique (callTo_kept _)
theorem execRet_kept (k : CoreId) : ResKept s (execRet k s) := kept_oluique ret_kept
theorem execTsr_kept (k : CoreId) (rd : Reg) : ResKept s (execTsr k rd s) := kept_oluique fun _ _ h => State.modTh_keeps h ..
theorem execTsw_kept (k : CoreId) (ra rb : Reg) : ResKept s (execTsw k ra rb s) :=
  kept_oluique fun _ _ h => State.modTh_keeps h ..
theorem execFence_kept (k : CoreId) : ResKept s (execFence k s) := kept_oluique fun _ _ h => State.drainAll_keeps h ..
theorem execBrk_kept (k : CoreId) (imm : BitVec 16) : ResKept s (execBrk k imm s) := kept_oluique fun _ _ _ => trivial
theorem execSpillPost_kept (q : Fin 64) : ResKept s (execSpillPost q s) := kept_goOn (State.spillPost_keeps (.refl s) ..)
theorem execPost_kept (k : CoreId) (rs ra : Reg) (imm : BitVec 16) : ResKept s (execPost k rs ra imm s) :=
  kept_oluique (postBody_kept _ _ _ _ _)
theorem execPoste_kept (k : CoreId) (rs ra : Reg) (imm : BitVec 16) : ResKept s (execPoste k rs ra imm s) :=
  kept_oluique (postBody_kept _ _ _ _ _)
theorem execWaitspaceGrant_kept (q : Fin 64) : ResKept s (execWaitspaceGrant q s) :=
  kept_goOn (Keeps.ite (State.runDue_keeps (.refl s)) (State.grant_keeps (.refl s) ..))
theorem execNext_kept (k : CoreId) : ResKept s (execNext k s) :=
  kept_dispatching (kept_oluique fun _ _ h => State.next_keeps h ..)
theorem execDone_kept (k : CoreId) : ResKept s (execDone k s) := kept_oluique fun _ _ h => State.done_keeps h ..
theorem execYieldT_kept (k : CoreId) : ResKept s (execYieldT k s) := kept_oluique fun _ _ h => State.yield_keeps h ..
theorem execFlowseize_kept (k : CoreId) (rd ra : Reg) : ResKept s (execFlowseize k rd ra s) :=
  kept_oluique fun _ _ h => State.modTh_keeps (State.flowSeize_keeps h ..) ..
theorem execMul_kept (k : CoreId) (rd ra rb : Reg) : ResKept s (execMul k rd ra rb s) := kept_oluique (making_kept _)
theorem execMulhs_kept (k : CoreId) (rd ra rb : Reg) : ResKept s (execMulhs k rd ra rb s) := kept_oluique (making_kept _)
theorem execMulhu_kept (k : CoreId) (rd ra rb : Reg) : ResKept s (execMulhu k rd ra rb s) := kept_oluique (making_kept _)
theorem execMulws_kept (k : CoreId) (rd ra rb : Reg) : ResKept s (execMulws k rd ra rb s) := kept_oluique (making_kept _)
theorem execMulwu_kept (k : CoreId) (rd ra rb : Reg) : ResKept s (execMulwu k rd ra rb s) := kept_oluique (making_kept _)
theorem execDivs_kept (k : CoreId) (rd ra rb : Reg) : ResKept s (execDivs k rd ra rb s) := kept_oluique (divTo_kept _ _ _ _)
theorem execDivu_kept (k : CoreId) (rd ra rb : Reg) : ResKept s (execDivu k rd ra rb s) := kept_oluique (divTo_kept _ _ _ _)
theorem execRems_kept (k : CoreId) (rd ra rb : Reg) : ResKept s (execRems k rd ra rb s) := kept_oluique (divTo_kept _ _ _ _)
theorem execRemu_kept (k : CoreId) (rd ra rb : Reg) : ResKept s (execRemu k rd ra rb s) := kept_oluique (divTo_kept _ _ _ _)
theorem execDadd_kept (k : CoreId) (rd ra rb : Reg) : ResKept s (execDadd k rd ra rb s) := kept_oluique (decimal_kept _ _)
theorem execDaddc_kept (k : CoreId) (rd ra rb : Reg) : ResKept s (execDaddc k rd ra rb s) := kept_oluique (decimal_kept _ _)
theorem execDsub_kept (k : CoreId) (rd ra rb : Reg) : ResKept s (execDsub k rd ra rb s) := kept_oluique (decimal_kept _ _)
theorem execDsubc_kept (k : CoreId) (rd ra rb : Reg) : ResKept s (execDsubc k rd ra rb s) := kept_oluique (decimal_kept _ _)
theorem execDmulw_kept (k : CoreId) (rd ra rb : Reg) : ResKept s (execDmulw k rd ra rb s) := kept_oluique (decimal_kept _ _)
theorem execDcvb_kept (k : CoreId) (rd ra : Reg) : ResKept s (execDcvb k rd ra s) := kept_oluique (making_kept _)
theorem execDcvd_kept (k : CoreId) (rd ra : Reg) : ResKept s (execDcvd k rd ra s) := kept_oluique (decimal_kept _ _)
theorem execDshl_kept (k : CoreId) (rd ra : Reg) (n : Fin 32) : ResKept s (execDshl k rd ra n s) :=
  kept_oluique (decimal_kept _ _)
theorem execDshr_kept (k : CoreId) (rd ra : Reg) (n : Fin 32) : ResKept s (execDshr k rd ra n s) :=
  kept_oluique (decimal_kept _ _)
theorem execFadd_kept (k : CoreId) (rd ra rb : Reg) : ResKept s (execFadd k rd ra rb s) := kept_oluique (floatTo_kept _ _)
theorem execFsub_kept (k : CoreId) (rd ra rb : Reg) : ResKept s (execFsub k rd ra rb s) := kept_oluique (floatTo_kept _ _)
theorem execFmul_kept (k : CoreId) (rd ra rb : Reg) : ResKept s (execFmul k rd ra rb s) := kept_oluique (floatTo_kept _ _)
theorem execFdiv_kept (k : CoreId) (rd ra rb : Reg) : ResKept s (execFdiv k rd ra rb s) := kept_oluique (floatTo_kept _ _)
theorem execFsqrt_kept (k : CoreId) (rd ra : Reg) : ResKept s (execFsqrt k rd ra s) := kept_oluique (floatTo_kept _ _)
theorem execFmadd_kept (k : CoreId) (rd ra rb rc : Reg) : ResKept s (execFmadd k rd ra rb rc s) :=
  kept_oluique (floatTo_kept _ _)
theorem execFmin_kept (k : CoreId) (rd ra rb : Reg) : ResKept s (execFmin k rd ra rb s) := kept_oluique (floatTo_kept _ _)
theorem execFmax_kept (k : CoreId) (rd ra rb : Reg) : ResKept s (execFmax k rd ra rb s) := kept_oluique (floatTo_kept _ _)
theorem execFcmpeq_kept (k : CoreId) (rd ra rb : Reg) : ResKept s (execFcmpeq k rd ra rb s) := kept_oluique (floatTo_kept _ _)
theorem execFcmplt_kept (k : CoreId) (rd ra rb : Reg) : ResKept s (execFcmplt k rd ra rb s) := kept_oluique (floatTo_kept _ _)
theorem execFcmple_kept (k : CoreId) (rd ra rb : Reg) : ResKept s (execFcmple k rd ra rb s) := kept_oluique (floatTo_kept _ _)
theorem execFcvtws_kept (k : CoreId) (rd ra : Reg) : ResKept s (execFcvtws k rd ra s) := kept_oluique (floatTo_kept _ _)
theorem execFcvtsw_kept (k : CoreId) (rd ra : Reg) : ResKept s (execFcvtsw k rd ra s) := kept_oluique (floatTo_kept _ _)
theorem execFneg_kept (k : CoreId) (rd ra : Reg) : ResKept s (execFneg k rd ra s) := kept_oluique (floatTo_kept _ _)
theorem execFabs_kept (k : CoreId) (rd ra : Reg) : ResKept s (execFabs k rd ra s) := kept_oluique (floatTo_kept _ _)
theorem execDelayedResultWrite_kept (k : CoreId) : ResKept s (execDelayedResultWrite k s) :=
  kept_goOn (by split; exacts [(.refl s), (Keeps.ite (Keeps.ite (State.landInters_keeps (.refl s) ..) (State.modTh_keeps
    (State.landInters_keeps (.refl s) ..) ..)) (.refl s))])
theorem execInterlockedResult_kept (k : CoreId) : ResKept s (execInterlockedResult k s) :=
  kept_goOn (by split; exacts [(.refl s), (by split; exacts [(.refl s), (Keeps.ite (State.landList_keeps (.refl s) ..)
    (State.modTh_keeps (.refl s) ..))])])
theorem execDispatch_kept (k : CoreId) : ResKept s (execDispatch k s) :=
  kept_dispatching (kept_goOn (State.dispatchOn_keeps (.refl s) ..))
theorem execPrefetch_kept (k : CoreId) : ResKept s (execPrefetch k s) := kept_goOn (State.prefetchOn_keeps (.refl s) ..)
theorem execPreempt_kept (latch : Bool) : ResKept s (execPreempt latch s) :=
  kept_dispatching (kept_goOn (State.arrive_keeps (.refl s) ..))
theorem execThreadStop_kept (t : Tid) : ResKept s (execThreadStop t s) :=
  kept_goOn (Keeps.ite (State.stopThread_keeps (.refl s) ..) (.refl s))
theorem execThreadStart_kept (t : Tid) : ResKept s (execThreadStart t s) :=
  kept_goOn (Keeps.ite (State.startThread_keeps (.refl s) ..) (.refl s))
theorem execQueueFlush_kept (who : Who) (q : Fin 64) : ResKept s (execQueueFlush who q s) :=
  kept_goOn (State.wrote_keeps (.refl s) ..)
theorem execSowQWrite_kept (who : Who) (q : Fin 64) (v : Word) : ResKept s (execSowQWrite who q v s) :=
  kept_goOn (State.wrote_keeps (.refl s) ..)
theorem execSowModeWrite_kept (who : Who) (affinity : Bool) : ResKept s (execSowModeWrite who affinity s) :=
  kept_goOn (State.wroteOf_keeps (.refl s) ..)
theorem execSowWeightWrite_kept (who : Who) (g : Fin 8) (w : Byte) : ResKept s (execSowWeightWrite who g w s) :=
  kept_goOn (State.wrote_keeps (.refl s) ..)
theorem execSowDispatchWrite_kept (who : Who) (on : Bool) : ResKept s (execSowDispatchWrite who on s) :=
  kept_goOn (State.wroteOf_keeps (.refl s) ..)
theorem execSowPreemptWrite_kept (who : Who) (mask : BitVec 6) : ResKept s (execSowPreemptWrite who mask s) :=
  kept_goOn (State.wroteOf_keeps (.refl s) ..)
theorem execSowStatsSelect_kept (who : Who) (sel : BitVec 7) : ResKept s (execSowStatsSelect who sel s) :=
  kept_goOn (State.wrote_keeps (.refl s) ..)
theorem execSowStatsClear_kept (who : Who) : ResKept s (execSowStatsClear who s) :=
  kept_goOn (State.wroteOf_keeps (.refl s) ..)
theorem execContextWindowAccess_kept (who : Who) (latch : Bool) (write : Option Word)
    : ResKept s (execContextWindowAccess who latch write s) :=
  kept_goOn (by split; exacts [(State.wrote_keeps (.refl s) ..), (State.didRead_keeps (.refl s) ..)])
theorem execTracePortClear_kept (who : Who) : ResKept s (execTracePortClear who s) :=
  kept_goOn (State.wroteOf_keeps (.refl s) ..)
theorem execTraceRead_kept (who : Who) : ResKept s (execTraceRead who s) := kept_goOn (State.didRead_keeps (.refl s) ..)
theorem execGranaryTake_kept (k : CoreId) (r : Fin 32) (sl : Fin 4) : ResKept s (execGranaryTake k r sl s) :=
  kept_goOn (State.didRead_keeps (.refl s) ..)
theorem execGranaryGive_kept (k : CoreId) (r : Fin 32) (addr : Word) : ResKept s (execGranaryGive k r addr s) :=
  kept_goOn (State.wrote_keeps (.refl s) ..)
theorem execGranaryModeWrite_kept (who : Who) (sized : Bool) : ResKept s (execGranaryModeWrite who sized s) :=
  kept_goOn (State.wrote_keeps (.refl s) ..)
theorem execGranaryMinWrite_kept (who : Who) (r : Fin 32) (p : Fin 4) (v : BitVec 13)
    : ResKept s (execGranaryMinWrite who r p v s) :=
  kept_goOn (State.wroteSel_keeps (.refl s) ..)
theorem execGranaryQuotaWrite_kept (who : Who) (r : Fin 32) (p : Fin 4) (v : BitVec 13)
    : ResKept s (execGranaryQuotaWrite who r p v s) :=
  kept_goOn (State.wroteSel_keeps (.refl s) ..)
theorem execConsoleRxRead_kept : ResKept s (execConsoleRxRead s) := kept_onLatch (State.readConRx_keeps (.refl s))
theorem execConsoleTxWrite_kept (c : Byte) : ResKept s (execConsoleTxWrite c s) :=
  kept_onLatch (State.modCon_keeps (.refl s) ..)
theorem execSpiGo_kept (who : Who) : ResKept s (execSpiGo who s) := kept_goOn (State.wroteOf_keeps (.refl s) ..)
theorem execSpiDone_kept : ResKept s (execSpiDone s) := kept_onField (State.spiEnds_keeps (.refl s))
theorem execAlertWrite_kept (on : Bool) : ResKept s (execAlertWrite on s) := kept_goOn (State.wrote_keeps (.refl s) ..)
theorem execRegisterWrite_kept (who : Who) (port : BitVec 16) (v : Word) : ResKept s (execRegisterWrite who port v s) :=
  kept_goOn (State.wrote_keeps (.refl s) ..)
theorem execExtest_kept : ResKept s (execExtest s) := kept_goOn (State.extest_keeps (.refl s))
theorem execSamplePreload_kept (captured load : List Bool) : ResKept s (execSamplePreload captured load s) :=
  kept_goOn (State.modJtag_keeps (State.loadIr_keeps (.refl s) ..) ..)
theorem execDbgStatus_kept : ResKept s (execDbgStatus s) :=
  kept_goOn (State.modJtag_keeps (State.loadIr_keeps (.refl s) ..) ..)
theorem execDbgRead_kept (space : DbgSpace) (lcSide : Bool) (addr : Word) : ResKept s (execDbgRead space lcSide addr s) :=
  kept_goOn (State.dbgRead_keeps (State.scanDbg_keeps (State.loadIr_keeps (.refl s) ..) ..) ..)
theorem execDbgWrite_kept (space : DbgSpace) (lcSide : Bool) (addr data : Word)
    : ResKept s (execDbgWrite space lcSide addr data s) :=
  kept_goOn (State.dbgWrite_keeps (State.scanDbg_keeps (State.loadIr_keeps (.refl s) ..) ..) ..)
theorem execDbgResume_kept (t : Tid) : ResKept s (execDbgResume t s) :=
  kept_goOn (State.settle_keeps (State.dbgResume_keeps (State.loadIr_keeps (.refl s) ..) ..))
theorem execDbgReset_kept (on : Bool) : ResKept s (execDbgReset on s) :=
  kept_goOn (Keeps.ite (State.modJtag_keeps (State.loadIr_keeps (.refl s) ..) ..) (Keeps.ite (State.loadIr_keeps (.refl s) ..)
    (State.modJtag_keeps (State.coldStart_keeps (State.loadIr_keeps (.refl s) ..) ..) ..)))
theorem execJtagBypass_kept : ResKept s (execJtagBypass s) := kept_goOn (State.loadIr_keeps (.refl s) ..)
theorem execIdleSymbol_kept : ResKept s (execIdleSymbol s) := kept_onLatch (State.modRing_keeps (.refl s) ..)
theorem execTestLogicReset_kept : ResKept s (execTestLogicReset s) := kept_goOn (State.modJtag_keeps (.refl s) ..)

end

/-- What each command's operations keep, command by command. -/
theorem exec_kept (c : Instr) (s : State) : ResKept s (exec c s) := by
  cases c with
  | powerOn => exact execPowerOn_kept
  | brownout holdUp => exact execBrownout_kept holdUp
  | resetPin => exact execResetPin_kept
  | testmodeHigh => exact execTestmodeHigh_kept
  | clockLoss => exact execClockLoss_kept
  | resetRelease head cts => exact execResetRelease_kept head cts
  | readyLine => exact execReadyLine_kept
  | readyFace => exact execReadyFace_kept
  | readySeedbank => exact execReadySeedbank_kept
  | readyFurrow => exact execReadyFurrow_kept
  | readyCalendar => exact execReadyCalendar_kept
  | readyRing => exact execReadyRing_kept
  | ringAloneTimeout => exact execRingAloneTimeout_kept
  | readyReplay => exact execReadyReplay_kept
  | readyKeys => exact execReadyKeys_kept
  | fieldEnHoldEnd => exact execFieldEnHoldEnd_kept
  | wakeStart => exact execWakeStart_kept
  | fieldPgRise => exact execFieldPgRise_kept
  | fieldPgDropInLock => exact execFieldPgDropInLock_kept
  | fieldPgTimeout => exact execFieldPgTimeout_kept
  | pllLock => exact execPllLock_kept
  | pllNoLock => exact execPllNoLock_kept
  | fieldResetRelease => exact execFieldResetRelease_kept
  | readyField romOk => exact execReadyField_kept romOk
  | readySower => exact execReadySower_kept
  | readyGranary => exact execReadyGranary_kept
  | readyBaysRow r => exact execReadyBaysRow_kept r
  | readyEnvelope => exact execReadyEnvelope_kept
  | readyLedger => exact execReadyLedger_kept
  | readyTenancy => exact execReadyTenancy_kept
  | readyPlot p => exact execReadyPlot_kept p
  | fieldLostPg => exact execFieldLostPg_kept
  | fieldLostPll => exact execFieldLostPll_kept
  | restDispatch => exact execRestDispatch_kept
  | restPlotsIdle => exact execRestPlotsIdle_kept
  | restPlotTimeout => exact execRestPlotTimeout_kept
  | hingeTransferRequest lat fld => exact execHingeTransferRequest_kept lat fld
  | hingeHeldGrant => exact execHingeHeldGrant_kept
  | mailboxClaim who box => exact execMailboxClaim_kept who box
  | mailboxPost who box count => exact execMailboxPost_kept who box count
  | mailboxRelease who box => exact execMailboxRelease_kept who box
  | mailboxWordWrite who box i w => exact execMailboxWordWrite_kept who box i w
  | mailboxForceFree box => exact execMailboxForceFree_kept box
  | hingeNotifyPost box => exact execHingeNotifyPost_kept box
  | heartbeatTouch k => exact execHeartbeatTouch_kept k
  | heartbeatExpiry k => exact execHeartbeatExpiry_kept k
  | coreFaultRecovery k => exact execCoreFaultRecovery_kept k
  | recoveryTimeout => exact execRecoveryTimeout_kept
  | threadFaultRecovery => exact execThreadFaultRecovery_kept
  | consoleChar c framingError => exact execConsoleChar_kept c framingError
  | consCtsChange level => exact execConsCtsChange_kept level
  | malformedLine ses => exact execMalformedLine_kept ses
  | forwardAddressedLine n text => exact execForwardAddressedLine_kept n text
  | broadcastLine text => exact execBroadcastLine_kept text
  | outputQueueRoom chars => exact execOutputQueueRoom_kept chars
  | sessionIdleTimeout ses => exact execSessionIdleTimeout_kept ses
  | state q => exact execState_kept q
  | wake q => exact execWake_kept q
  | rest q => exact execRest_kept q
  | bayOn q bays => exact execBayOn_kept q bays
  | bayOff q bays => exact execBayOff_kept q bays
  | bayOnItem n => exact execBayOnItem_kept n
  | bayOffItem n => exact execBayOffItem_kept n
  | bayLocateOn q n => exact execBayLocateOn_kept q n
  | bayLocateOff q n => exact execBayLocateOff_kept q n
  | locateMarkTimeout n => exact execLocateMarkTimeout_kept n
  | bayUnlock q n proofM proofA => exact execBayUnlock_kept q n proofM proofA
  | bayInfo q bays => exact execBayInfo_kept q bays
  | envelope q => exact execEnvelope_kept q
  | envelopeSet q word v => exact execEnvelopeSet_kept q word v
  | profile q n => exact execProfile_kept q n
  | profileForget q bays => exact execProfileForget_kept q bays
  | profileForgetItem n => exact execProfileForgetItem_kept n
  | scan q => exact execScan_kept q
  | scanRow q r => exact execScanRow_kept q r
  | keys q bays => exact execKeys_kept q bays
  | keysPanel q => exact execKeysPanel_kept q
  | keysGeneral q => exact execKeysGeneral_kept q
  | tag q bays colour pattern => exact execTag_kept q bays colour pattern
  | tagAuto q bays => exact execTagAuto_kept q bays
  | face q => exact execFace_kept q
  | faceText q text => exact execFaceText_kept q text
  | faceTextOff q => exact execFaceTextOff_kept q
  | faceView q view => exact execFaceView_kept q view
  | keypadHoldTimeout => exact execKeypadHoldTimeout_kept
  | fan q => exact execFan_kept q
  | fanDuty q fans p => exact execFanDuty_kept q fans p
  | fanAuto q fans => exact execFanAuto_kept q fans
  | fanAbsentTimeout n => exact execFanAbsentTimeout_kept n
  | fanTachSecond pulses => exact execFanTachSecond_kept pulses
  | fanStall n => exact execFanStall_kept n
  | thermistorConversion i code => exact execThermistorConversion_kept i code
  | temp q => exact execTemp_kept q
  | line q => exact execLine_kept q
  | lineBaud q b => exact execLineBaud_kept q b
  | lineXonOn q => exact execLineXonOn_kept q
  | lineXonOff q => exact execLineXonOff_kept q
  | baudApply => exact execBaudApply_kept
  | echo q => exact execEcho_kept q
  | echoOn q => exact execEchoOn_kept q
  | echoOff q => exact execEchoOff_kept q
  | who q => exact execWho_kept q
  | whoAll q => exact execWhoAll_kept q
  | openT q t => exact execOpenT_kept q t
  | prove q groups => exact execProve_kept q groups
  | challengeLapse ses => exact execChallengeLapse_kept ses
  | close q => exact execClose_kept q
  | key q t => exact execKey_kept q t
  | keySet q t key => exact execKeySet_kept q t key
  | keyClear q t => exact execKeyClear_kept q t
  | tenancy q t => exact execTenancy_kept q t
  | tenancyGroup q t g => exact execTenancyGroup_kept q t g
  | tenancyShare q t v => exact execTenancyShare_kept q t v
  | tenancyAllot q t v => exact execTenancyAllot_kept q t v
  | tenancyWeight q g w => exact execTenancyWeight_kept q g w
  | tenancySettingApply => exact execTenancySettingApply_kept
  | assign q bays t => exact execAssign_kept q bays t
  | assignNone q bays => exact execAssignNone_kept q bays
  | quota q t => exact execQuota_kept q t
  | quotaPool q t p k => exact execQuotaPool_kept q t p k
  | ledger q t => exact execLedger_kept q t
  | ledgerGaps q t => exact execLedgerGaps_kept q t
  | ledgerEpoch q t => exact execLedgerEpoch_kept q t
  | time q => exact execTime_kept q
  | timeSet q n => exact execTimeSet_kept q n
  | plot q => exact execPlot_kept q
  | plotTenancy q t => exact execPlotTenancy_kept q t
  | plotLoad q t a => exact execPlotLoad_kept q t a
  | plotUnload q t => exact execPlotUnload_kept q t
  | xVerb q name text => exact execXVerb_kept q name text
  | xCompletion => exact execXCompletion_kept
  | plotWakeRequest => exact execPlotWakeRequest_kept
  | plotWakeDue t => exact execPlotWakeDue_kept t
  | deferredResourceClaim => exact execDeferredResourceClaim_kept
  | ring q => exact execRing_kept q
  | ringEnum q => exact execRingEnum_kept q
  | ringTermOn q => exact execRingTermOn_kept q
  | ringTermOff q => exact execRingTermOff_kept q
  | trace q => exact execTrace_kept q
  | traceCoresOn q cores => exact execTraceCoresOn_kept q cores
  | traceCoresOff q cores => exact execTraceCoresOff_kept q cores
  | traceModeStop q => exact execTraceModeStop_kept q
  | traceModeWrap q => exact execTraceModeWrap_kept q
  | traceClear q => exact execTraceClear_kept q
  | traceDump q k => exact execTraceDump_kept q k
  | statsQ q n => exact execStatsQ_kept q n
  | statsCore q n => exact execStatsCore_kept q n
  | statsClear q => exact execStatsClear_kept q
  | granary q => exact execGranary_kept q
  | granaryUse q r => exact execGranaryUse_kept q r
  | granaryModeSingle q => exact execGranaryModeSingle_kept q
  | granaryModeSized q => exact execGranaryModeSized_kept q
  | furrow q => exact execFurrow_kept q
  | seedbank q => exact execSeedbank_kept q
  | selftest q => exact execSelftest_kept q
  | resetField q => exact execResetField_kept q
  | handle q h => exact execHandle_kept q h
  | handles q => exact execHandles_kept q
  | handlesOrphan q => exact execHandlesOrphan_kept q
  | cancel q r => exact execCancel_kept q r
  | completionHeldSend => exact execCompletionHeldSend_kept
  | journalWriteStart => exact execJournalWriteStart_kept
  | recordDurable verified => exact execRecordDurable_kept verified
  | furRead => exact execFurRead_kept
  | furWrite => exact execFurWrite_kept
  | furrowOpDone verified => exact execFurrowOpDone_kept verified
  | ringSolFrame mark dest src ses text left => exact execRingSolFrame_kept mark dest src ses text left
  | ringSobFrame mark dest src ses text left => exact execRingSobFrame_kept mark dest src ses text left
  | ringSorFrame mark dest src ses text left => exact execRingSorFrame_kept mark dest src ses text left
  | ringEnumFrame pass next full ovr => exact execRingEnumFrame_kept pass next full ovr
  | ringBrkFrame reporter numbered hops => exact execRingBrkFrame_kept reporter numbered hops
  | ringJoinFrame => exact execRingJoinFrame_kept
  | ringAbt forwarded => exact execRingAbt_kept forwarded
  | ringFramingError forwarded => exact execRingFramingError_kept forwarded
  | ringOverrun forwarded => exact execRingOverrun_kept forwarded
  | ringHoldInput hold => exact execRingHoldInput_kept hold
  | ringTxFrameStart => exact execRingTxFrameStart_kept
  | enumPassTimeout => exact execEnumPassTimeout_kept
  | enumBrokenRetry => exact execEnumBrokenRetry_kept
  | upstreamDead => exact execUpstreamDead_kept
  | upstreamAlive => exact execUpstreamAlive_kept
  | breakReportRepeat => exact execBreakReportRepeat_kept
  | joinRepeat => exact execJoinRepeat_kept
  | ringBypass on => exact execRingBypass_kept on
  | rngEnumWrite => exact execRngEnumWrite_kept
  | rngRxRead => exact execRngRxRead_kept
  | rngTxSymbol sym => exact execRngTxSymbol_kept sym
  | rngTxCancel => exact execRngTxCancel_kept
  | keyswitchFault => exact execKeyswitchFault_kept
  | sdbRead => exact execSdbRead_kept
  | sdbWrite => exact execSdbWrite_kept
  | seedbankOpDone verified => exact execSeedbankOpDone_kept verified
  | calendarTick => exact execCalendarTick_kept
  | tickItemPost => exact execTickItemPost_kept
  | calendarSave verified => exact execCalendarSave_kept verified
  | utcAdvance => exact execUtcAdvance_kept
  | ledgerTick => exact execLedgerTick_kept
  | intervalEnd => exact execIntervalEnd_kept
  | checkpointDurable verified => exact execCheckpointDurable_kept verified
  | calTickLoRead t => exact execCalTickLoRead_kept t
  | calLoad lo hi => exact execCalLoad_kept lo hi
  | calUtcSet v => exact execCalUtcSet_kept v
  | bayStart n => exact execBayStart_kept n
  | bayStop n => exact execBayStop_kept n
  | gateGood n rail => exact execGateGood_kept n rail
  | blankWindowEnd n rail => exact execBlankWindowEnd_kept n rail
  | fastOver n rail => exact execFastOver_kept n rail
  | slowTrip n rail => exact execSlowTrip_kept n rail
  | gateTimeout n rail => exact execGateTimeout_kept n rail
  | gatesBelow1v n => exact execGatesBelow1v_kept n
  | gateOffLockout n mainUp auxUp => exact execGateOffLockout_kept n mainUp auxUp
  | shadowMismatch n rail parity => exact execShadowMismatch_kept n rail parity
  | lockItemServe => exact execLockItemServe_kept
  | proofStart n rail => exact execProofStart_kept n rail
  | proofCheck n rail fastOver slowOver => exact execProofCheck_kept n rail fastOver slowOver
  | proofEnd n rail stillOver => exact execProofEnd_kept n rail stillOver
  | proofRun n => exact execProofRun_kept n
  | adcSampleComplete isum vsum => exact execAdcSampleComplete_kept isum vsum
  | sysLockSet n => exact execSysLockSet_kept n
  | sysLockClear n => exact execSysLockClear_kept n
  | guardSlot mainCodes auxCodes => exact execGuardSlot_kept mainCodes auxCodes
  | guardHold => exact execGuardHold_kept
  | guardHoldClear => exact execGuardHoldClear_kept
  | guardRelease => exact execGuardRelease_kept
  | guardShed => exact execGuardShed_kept
  | plannerStart n => exact execPlannerStart_kept n
  | replan => exact execReplan_kept
  | profileUpdate n => exact execProfileUpdate_kept n
  | envPeakRead => exact execEnvPeakRead_kept
  | scanFrameStart contacts => exact execScanFrameStart_kept contacts
  | shiftStallResume => exact execShiftStallResume_kept
  | scanFrameComplete => exact execScanFrameComplete_kept
  | scanSwap => exact execScanSwap_kept
  | scanStepWrite i w => exact execScanStepWrite_kept i w
  | scanArm => exact execScanArm_kept
  | scanDisarm => exact execScanDisarm_kept
  | keyEventServe => exact execKeyEventServe_kept
  | keyLocate n => exact execKeyLocate_kept n
  | keyLever n => exact execKeyLever_kept n
  | keypadBay digits => exact execKeypadBay_kept digits
  | keypadTenancy digits => exact execKeypadTenancy_kept digits
  | keypadUpDown up => exact execKeypadUpDown_kept up
  | keypadLocate => exact execKeypadLocate_kept
  | keypadView => exact execKeypadView_kept
  | keypadClear => exact execKeypadClear_kept
  | panelWake => exact execPanelWake_kept
  | panelRest => exact execPanelRest_kept
  | panelDot held => exact execPanelDot_kept held
  | errTimeout => exact execErrTimeout_kept
  | faceCommit => exact execFaceCommit_kept
  | faceFrameStart => exact execFaceFrameStart_kept
  | faceRender => exact execFaceRender_kept
  | faceViewRotate => exact execFaceViewRotate_kept
  | nop k => exact execNop_kept k
  | add k rd ra rb => exact execAdd_kept k rd ra rb
  | sub k rd ra rb => exact execSub_kept k rd ra rb
  | addc k rd ra rb => exact execAddc_kept k rd ra rb
  | subc k rd ra rb => exact execSubc_kept k rd ra rb
  | and k rd ra rb => exact execAnd_kept k rd ra rb
  | or k rd ra rb => exact execOr_kept k rd ra rb
  | xor k rd ra rb => exact execXor_kept k rd ra rb
  | shl k rd ra rb => exact execShl_kept k rd ra rb
  | shr k rd ra rb => exact execShr_kept k rd ra rb
  | sar k rd ra rb => exact execSar_kept k rd ra rb
  | slt k rd ra rb => exact execSlt_kept k rd ra rb
  | sltu k rd ra rb => exact execSltu_kept k rd ra rb
  | clz k rd ra => exact execClz_kept k rd ra
  | popc k rd ra => exact execPopc_kept k rd ra
  | shli k rd ra n => exact execShli_kept k rd ra n
  | shri k rd ra n => exact execShri_kept k rd ra n
  | sari k rd ra n => exact execSari_kept k rd ra n
  | addi k rd ra imm => exact execAddi_kept k rd ra imm
  | andi k rd ra imm => exact execAndi_kept k rd ra imm
  | ori k rd ra imm => exact execOri_kept k rd ra imm
  | xori k rd ra imm => exact execXori_kept k rd ra imm
  | slti k rd ra imm => exact execSlti_kept k rd ra imm
  | lui k rd imm => exact execLui_kept k rd imm
  | ldw k rd ra imm => exact execLdw_kept k rd ra imm
  | ldh k rd ra imm => exact execLdh_kept k rd ra imm
  | ldhu k rd ra imm => exact execLdhu_kept k rd ra imm
  | ldb k rd ra imm => exact execLdb_kept k rd ra imm
  | ldbu k rd ra imm => exact execLdbu_kept k rd ra imm
  | stw k rs ra imm => exact execStw_kept k rs ra imm
  | sth k rs ra imm => exact execSth_kept k rs ra imm
  | stb k rs ra imm => exact execStb_kept k rs ra imm
  | xchw k rd ra imm => exact execXchw_kept k rd ra imm
  | portIn k rd ra imm => exact execPortIn_kept k rd ra imm
  | portOut k rs ra imm => exact execPortOut_kept k rs ra imm
  | portWriteDrain k => exact execPortWriteDrain_kept k
  | ird k rd ra imm => exact execIrd_kept k rd ra imm
  | iwr k rs ra imm => exact execIwr_kept k rs ra imm
  | beq k ra rb off => exact execBeq_kept k ra rb off
  | bne k ra rb off => exact execBne_kept k ra rb off
  | blt k ra rb off => exact execBlt_kept k ra rb off
  | bge k ra rb off => exact execBge_kept k ra rb off
  | bltu k ra rb off => exact execBltu_kept k ra rb off
  | bgeu k ra rb off => exact execBgeu_kept k ra rb off
  | jmp k off => exact execJmp_kept k off
  | call k off => exact execCall_kept k off
  | jr k ra => exact execJr_kept k ra
  | callr k ra => exact execCallr_kept k ra
  | ret k => exact execRet_kept k
  | tsr k rd => exact execTsr_kept k rd
  | tsw k ra rb => exact execTsw_kept k ra rb
  | fence k => exact execFence_kept k
  | brk k imm => exact execBrk_kept k imm
  | spillPost q => exact execSpillPost_kept q
  | post k rs ra imm => exact execPost_kept k rs ra imm
  | poste k rs ra imm => exact execPoste_kept k rs ra imm
  | waitspaceGrant q => exact execWaitspaceGrant_kept q
  | next k => exact execNext_kept k
  | done k => exact execDone_kept k
  | yieldT k => exact execYieldT_kept k
  | flowseize k rd ra => exact execFlowseize_kept k rd ra
  | mul k rd ra rb => exact execMul_kept k rd ra rb
  | mulhs k rd ra rb => exact execMulhs_kept k rd ra rb
  | mulhu k rd ra rb => exact execMulhu_kept k rd ra rb
  | mulws k rd ra rb => exact execMulws_kept k rd ra rb
  | mulwu k rd ra rb => exact execMulwu_kept k rd ra rb
  | divs k rd ra rb => exact execDivs_kept k rd ra rb
  | divu k rd ra rb => exact execDivu_kept k rd ra rb
  | rems k rd ra rb => exact execRems_kept k rd ra rb
  | remu k rd ra rb => exact execRemu_kept k rd ra rb
  | dadd k rd ra rb => exact execDadd_kept k rd ra rb
  | daddc k rd ra rb => exact execDaddc_kept k rd ra rb
  | dsub k rd ra rb => exact execDsub_kept k rd ra rb
  | dsubc k rd ra rb => exact execDsubc_kept k rd ra rb
  | dmulw k rd ra rb => exact execDmulw_kept k rd ra rb
  | dcvb k rd ra => exact execDcvb_kept k rd ra
  | dcvd k rd ra => exact execDcvd_kept k rd ra
  | dshl k rd ra n => exact execDshl_kept k rd ra n
  | dshr k rd ra n => exact execDshr_kept k rd ra n
  | fadd k rd ra rb => exact execFadd_kept k rd ra rb
  | fsub k rd ra rb => exact execFsub_kept k rd ra rb
  | fmul k rd ra rb => exact execFmul_kept k rd ra rb
  | fdiv k rd ra rb => exact execFdiv_kept k rd ra rb
  | fsqrt k rd ra => exact execFsqrt_kept k rd ra
  | fmadd k rd ra rb rc => exact execFmadd_kept k rd ra rb rc
  | fmin k rd ra rb => exact execFmin_kept k rd ra rb
  | fmax k rd ra rb => exact execFmax_kept k rd ra rb
  | fcmpeq k rd ra rb => exact execFcmpeq_kept k rd ra rb
  | fcmplt k rd ra rb => exact execFcmplt_kept k rd ra rb
  | fcmple k rd ra rb => exact execFcmple_kept k rd ra rb
  | fcvtws k rd ra => exact execFcvtws_kept k rd ra
  | fcvtsw k rd ra => exact execFcvtsw_kept k rd ra
  | fneg k rd ra => exact execFneg_kept k rd ra
  | fabs k rd ra => exact execFabs_kept k rd ra
  | delayedResultWrite k => exact execDelayedResultWrite_kept k
  | interlockedResult k => exact execInterlockedResult_kept k
  | dispatch k => exact execDispatch_kept k
  | prefetch k => exact execPrefetch_kept k
  | preempt latch => exact execPreempt_kept latch
  | threadStop t => exact execThreadStop_kept t
  | threadStart t => exact execThreadStart_kept t
  | queueFlush who q => exact execQueueFlush_kept who q
  | sowQWrite who q v => exact execSowQWrite_kept who q v
  | sowModeWrite who affinity => exact execSowModeWrite_kept who affinity
  | sowWeightWrite who g w => exact execSowWeightWrite_kept who g w
  | sowDispatchWrite who on => exact execSowDispatchWrite_kept who on
  | sowPreemptWrite who mask => exact execSowPreemptWrite_kept who mask
  | sowStatsSelect who sel => exact execSowStatsSelect_kept who sel
  | sowStatsClear who => exact execSowStatsClear_kept who
  | contextWindowAccess who latch write => exact execContextWindowAccess_kept who latch write
  | tracePortClear who => exact execTracePortClear_kept who
  | traceRead who => exact execTraceRead_kept who
  | granaryTake k r sl => exact execGranaryTake_kept k r sl
  | granaryGive k r addr => exact execGranaryGive_kept k r addr
  | granaryModeWrite who sized => exact execGranaryModeWrite_kept who sized
  | granaryMinWrite who r p v => exact execGranaryMinWrite_kept who r p v
  | granaryQuotaWrite who r p v => exact execGranaryQuotaWrite_kept who r p v
  | consoleRxRead => exact execConsoleRxRead_kept
  | consoleTxWrite c => exact execConsoleTxWrite_kept c
  | spiGo who => exact execSpiGo_kept who
  | spiDone => exact execSpiDone_kept
  | alertWrite on => exact execAlertWrite_kept on
  | registerWrite who port v => exact execRegisterWrite_kept who port v
  | extest => exact execExtest_kept
  | samplePreload captured load => exact execSamplePreload_kept captured load
  | dbgStatus => exact execDbgStatus_kept
  | dbgRead space lcSide addr => exact execDbgRead_kept space lcSide addr
  | dbgWrite space lcSide addr data => exact execDbgWrite_kept space lcSide addr data
  | dbgResume t => exact execDbgResume_kept t
  | dbgReset on => exact execDbgReset_kept on
  | jtagBypass => exact execJtagBypass_kept
  | idleSymbol => exact execIdleSymbol_kept
  | testLogicReset => exact execTestLogicReset_kept

/-- Settles O3: every command keeps the queue. -/
theorem queueUntouched : Obligations.QueueUntouched := fun c s t h => (exec_kept c s t h).1

/-- Settles O1: `step`, in its two cases. -/
theorem stepRunsFront : Obligations.StepRunsFront := by
  refine ⟨fun s c l h => ?_, fun s h => ?_⟩
  · unfold step
    rw [h]
  · unfold step
    rw [h]

/-- Settles O4: a step is the front command's effect, and every command keeps the form of the memories. -/
theorem stepKeepsMemories : Obligations.StepKeepsMemories := by
  intro s t hs ht
  cases hp : s.pending with
  | nil =>
    rw [stepRunsFront.2 s hp] at ht
    cases ht
    exact hs
  | cons c l =>
    rw [stepRunsFront.1 s c l hp] at ht
    exact (exec_kept c { s with pending := l } t ht).2 hs

end Sys2Proof.Machine

/-! SUPPORT. The statement of the float unit: what binary32 packs and reads, how a value rounds, and what each operation gives. -/

namespace Sys2Proof.Machine

/-! ### Bit lengths and the packed form -/

theorem bitLen_pos {m : Nat} (hm : m ≠ 0) : 1 ≤ bitLen m := by
  rw [bitLen, if_neg hm]
  omega

theorem lt_two_pow_bitLen (m : Nat) : m < 2 ^ bitLen m := by
  unfold bitLen
  split
  next h => simp [h]
  next => exact Nat.lt_log2_self

theorem two_pow_le_of_bitLen {m : Nat} (hm : m ≠ 0) : 2 ^ (bitLen m - 1) ≤ m := by
  rw [bitLen, if_neg hm]
  exact Nat.log2_self_le hm

theorem bitLen_le {m k : Nat} (hm : m < 2 ^ k) : bitLen m ≤ k := by
  unfold bitLen
  split
  · exact Nat.zero_le k
  next h => exact (Nat.log2_lt h).2 hm

/-- A value of at most 24 bits, shifted so that bit 23 leads. -/
theorem normalized {m : Nat} (hm : m ≠ 0) (h24 : m < 2 ^ 24) :
    2 ^ 23 ≤ m * 2 ^ (24 - bitLen m) ∧ m * 2 ^ (24 - bitLen m) < 2 ^ 24 := by
  have hle := bitLen_le h24
  have hpos := bitLen_pos hm
  constructor
  · calc 2 ^ 23 = 2 ^ (bitLen m - 1) * 2 ^ (24 - bitLen m) := by rw [← pow_add]; congr 1; omega
      _ ≤ m * 2 ^ (24 - bitLen m) := Nat.mul_le_mul_right _ (two_pow_le_of_bitLen hm)
  · calc m * 2 ^ (24 - bitLen m) < 2 ^ bitLen m * 2 ^ (24 - bitLen m) :=
          Nat.mul_lt_mul_of_pos_right (lt_two_pow_bitLen m) (Nat.two_pow_pos _)
      _ = 2 ^ 24 := by rw [← pow_add]; congr 1; omega

theorem bitNat_le (b : Bool) : bitNat b ≤ 1 := by cases b <;> decide

theorem fPack_toNat (neg : Bool) {ex fr : Nat} (hex : ex < 256) (hfr : fr < 2 ^ 23) :
    (fPack neg ex fr).toNat = bitNat neg * 2 ^ 31 + ex * 2 ^ 23 + fr := by
  have := bitNat_le neg
  rw [fPack, wordOf, BitVec.toNat_ofNat, Nat.mod_eq_of_lt]
  omega

/-- What a packed value reads as, where it is no subnormal and no infinity. -/
theorem fRead_fPack (full neg : Bool) {ex fr : Nat} (hlo : 1 ≤ ex) (hhi : ex ≤ 254) (hfr : fr < 2 ^ 23) :
    fRead full (fPack neg ex fr) = .fin neg (fr + 2 ^ 23) ((ex : Int) - 150) := by
  have hn := fPack_toNat neg (by omega : ex < 256) hfr
  have hb := bitNat_le neg
  have hsign : bitAt (fPack neg ex fr).toNat 31 = neg := by
    have : (fPack neg ex fr).toNat / 2 ^ 31 = bitNat neg := by omega
    rw [bitAt, this]
    cases neg <;> rfl
  have hexp : fieldAt (fPack neg ex fr).toNat 23 8 = ex := by rw [fieldAt]; omega
  have hfrac : fieldAt (fPack neg ex fr).toNat 0 23 = fr := by rw [fieldAt]; omega
  unfold fRead
  simp only [hsign, hexp, hfrac]
  rw [if_neg (by omega), if_neg (by omega)]

/-- Only the two infinities read as one. -/
theorem eq_fPack_of_fRead_inf {full : Bool} {a : Word} {p : Bool} (h : fRead full a = .inf p) : a = fPack p 255 0 := by
  unfold fRead at h
  dsimp only at h
  split_ifs at h with hex hfr
  have hneg : bitAt a.toNat 31 = p := FVal.inf.inj h
  have hlt := a.isLt
  refine BitVec.eq_of_toNat_eq ?_
  rw [fPack_toNat p (by omega) (by omega)]
  rw [fieldAt] at hex hfr
  rw [bitAt] at hneg
  cases p
  · have := of_decide_eq_false hneg
    rw [show bitNat false = 0 from rfl]
    omega
  · have := of_decide_eq_true hneg
    rw [show bitNat true = 1 from rfl]
    omega

/-- In PLAIN mode a subnormal reads as a zero of its sign. -/
theorem fRead_plain_subnormal {a : Word} (h : a.toNat / 2 ^ 23 % 256 = 0) : fRead false a = .fin (a.getLsbD 31) 0 (-149) := by
  have hexp : fieldAt a.toNat 23 8 = 0 := h
  unfold fRead
  simp only [hexp, bitAt_toNat]
  rfl

/-! ### Rounding -/

/-- What a cut-off part does: the part kept, one more where `rm` rounds away, and inexact where the part is not 0. -/
theorem roundShift_spec (neg : Bool) (m p : Nat) :
    let low := m / 2 ^ p
    let cut := m % 2 ^ p
    (∀ rm, (roundShift rm neg m p false).2 = decide (cut ≠ 0) ∧ (cut = 0 → (roundShift rm neg m p false).1 = low))
    ∧ (2 * cut < 2 ^ p → (roundShift 0 neg m p false).1 = low)
    ∧ (2 ^ p < 2 * cut → (roundShift 0 neg m p false).1 = low + 1)
    ∧ (2 * cut = 2 ^ p → (roundShift 0 neg m p false).1 % 2 = 0)
    ∧ (cut ≠ 0 → (roundShift 1 neg m p false).1 = low ∧ (roundShift 2 neg m p false).1 = low + (if neg then 0 else 1)
      ∧ (roundShift 3 neg m p false).1 = low + (if neg then 1 else 0)) := by
  have hpos : 0 < 2 ^ p := Nat.two_pow_pos p
  dsimp only
  refine ⟨fun rm => ⟨by simp [roundShift], fun h0 => ?_⟩, fun hlt => ?_, fun hgt => ?_, fun htie => ?_, fun h0 => ?_⟩
  · unfold roundShift
    split
    · simp [h0, hpos.ne]
    · rfl
    · simp [h0]
    · simp [h0]
  · simp [roundShift, Nat.not_lt.2 hlt.le, hlt.ne]
  · simp [roundShift, hgt]
  · by_cases hodd : m / 2 ^ p % 2 = 1
    · have : (m / 2 ^ p + 1) % 2 = 0 := by omega
      simpa [roundShift, htie, hodd] using this
    · have : m / 2 ^ p % 2 = 0 := by omega
      simp [roundShift, htie, this]
  · cases neg <;> simp [roundShift, h0]

section
variable {neg : Bool} {m : Nat} {e : Int} (hm : m ≠ 0) (h24 : m < 2 ^ 24)
include hm h24

/-- A value of at most 24 bits in the normal range is packed as it is. -/
theorem fRound_normal (full : Bool) (rm : Nat) (hlo : -126 ≤ e + bitLen m - 1) (hhi : e + bitLen m - 1 ≤ 127) :
    (fRound full rm neg m e false).2 = 0#5 ∧ fRead full (fRound full rm neg m e false).1
      = .fin neg (m * 2 ^ (24 - bitLen m)) (e - (24 - bitLen m : Nat)) := by
  obtain ⟨hmlo, hmhi⟩ := normalized hm h24
  have hlen := bitLen_le h24
  have hne : m * 2 ^ (24 - bitLen m) ≠ 2 ^ 24 := hmhi.ne
  have hround : fRound full rm neg m e false = (fPack neg (e - (24 - bitLen m : Nat) + 150).toNat (m * 2 ^ (24 - bitLen m) - 2 ^ 23), 0#5) := by
    unfold fRound
    simp only [if_pos hlen, if_neg hne]
    rw [if_neg (by omega), if_neg (by omega)]
    rfl
  rw [hround]
  refine ⟨rfl, ?_⟩
  rw [fRead_fPack full neg (by omega) (by omega) (by omega)]
  congr 1 <;> omega

/-- Above the range the result is the infinity or the largest value, as `rm` has it. -/
theorem fRound_above (full : Bool) (rm : Nat) (h : 127 < e + bitLen m - 1) : fRound full rm neg m e false =
    (if rm = 0 ∨ (rm = 2 ∧ neg = false) ∨ (rm = 3 ∧ neg = true) ∨ (3 < rm ∧ neg = true) then fPack neg 255 0
      else fPack neg 254 0x7FFFFF, 5#5) := by
  have hlen := bitLen_le h24
  have hne : m * 2 ^ (24 - bitLen m) ≠ 2 ^ 24 := (normalized hm h24).2.ne
  unfold fRound
  simp only [if_pos hlen, if_neg hne]
  rw [if_neg (by omega), if_pos (by omega)]
  refine Prod.ext ?_ rfl
  match rm with
  | 0 => rfl
  | 1 => rfl
  | 2 => cases neg <;> rfl
  | r + 3 =>
    have hcase : (r + 3 = 0 ∨ (r + 3 = 2 ∧ neg = false) ∨ (r + 3 = 3 ∧ neg = true) ∨ (3 < r + 3 ∧ neg = true)) ↔ neg = true := by
      cases neg
      · simp
      · simp
        omega
    simp only [hcase]
    rfl

/-- Below the range the result is a zero in PLAIN mode and the subnormal in FULL mode. -/
theorem fRound_below (rm : Nat) (h : e + bitLen m - 1 < -126) : fRound false rm neg m e false = (fPack neg 0 0, 3#5)
    ∧ (-149 ≤ e → fRound true rm neg m e false = (fPack neg 0 (m * 2 ^ (e + 149).toNat), 0#5)) := by
  have hlen := bitLen_le h24
  have hne : m * 2 ^ (24 - bitLen m) ≠ 2 ^ 24 := (normalized hm h24).2.ne
  unfold fRound
  simp only [if_pos hlen, if_neg hne]
  have hbelow : e - (24 - bitLen m : Nat) + 23 < -126 := by omega
  simp only [if_pos hbelow]
  refine ⟨rfl, fun he => ?_⟩
  simp only [if_pos he]
  rfl

end

/-- The largest magnitude that FCVTSW takes without a cut. -/
theorem fRound_two_pow_24 (full neg : Bool) (rm : Nat) :
    (fRound full rm neg (2 ^ 24) 0 false).2 = 0#5 ∧ fRead full (fRound full rm neg (2 ^ 24) 0 false).1 = .fin neg (2 ^ 23) 1 := by
  have hlen : bitLen (2 ^ 24) = 25 := by decide
  obtain ⟨hinexact, hlow⟩ := (roundShift_spec neg (2 ^ 24) 1).1 rm
  have hshift : roundShift rm neg (2 ^ 24) 1 false = (2 ^ 23, false) := Prod.ext (hlow rfl) hinexact
  have hround : fRound full rm neg (2 ^ 24) 0 false = (fPack neg 151 0, 0#5) := by
    unfold fRound
    simp only [hlen, hshift]
    rfl
  rw [hround]
  exact ⟨rfl, fRead_fPack full neg (by decide) (by decide) (by decide)⟩

/-! ### The operations -/

section
variable {full : Bool} {rm : Nat} {a b c : Word}

theorem fSig_eq (l : List FVal) : fSig l = if l.any FVal.isSig then 16#5 else 0#5 := rfl

theorem FVal.exists_nan {v : FVal} (h : v.isNan = true) : ∃ sig, v = .nan sig := by
  cases v with
  | nan sig => exact ⟨sig, rfl⟩
  | inf => cases h
  | fin => cases h

/-- A NaN operand makes a sum the quiet NaN. -/
theorem fAddVal_nan {x y : FVal} (h : x.isNan = true ∨ y.isNan = true) :
    fAddVal full rm x y = (fNaN, if x.isSig || y.isSig then 16#5 else 0#5) := by
  have hn : (x.isNan || y.isNan) = true := by simpa using h
  unfold fAddVal
  rw [if_pos hn, fSig_eq]
  simp

@[simp] theorem FVal.negate_isNan (v : FVal) : v.negate.isNan = v.isNan := by cases v <;> rfl
@[simp] theorem FVal.negate_isSig (v : FVal) : v.negate.isSig = v.isSig := by cases v <;> rfl

/-- A NaN operand makes a product, a quotient and a fused product the quiet NaN. -/
theorem fMul_nan (h : (fRead full a).isNan = true ∨ (fRead full b).isNan = true) :
    fMul full rm a b = (fNaN, if (fRead full a).isSig || (fRead full b).isSig then 16#5 else 0#5) := by
  unfold fMul
  generalize fRead full a = x at *
  generalize fRead full b = y at *
  cases x <;> cases y <;> simp_all [FVal.isNan, FVal.isSig, fSig_eq]

theorem fDiv_nan (h : (fRead full a).isNan = true ∨ (fRead full b).isNan = true) :
    fDiv full rm a b = (fNaN, if (fRead full a).isSig || (fRead full b).isSig then 16#5 else 0#5) := by
  unfold fDiv
  generalize fRead full a = x at *
  generalize fRead full b = y at *
  cases x <;> cases y <;> simp_all [FVal.isNan, FVal.isSig, fSig_eq]

theorem fMadd_nan (h : (fRead full a).isNan = true ∨ (fRead full b).isNan = true) : fMadd full rm a b c
    = (fNaN, if (fRead full a).isSig || (fRead full b).isSig || (fRead full c).isSig then 16#5 else 0#5) := by
  unfold fMadd
  generalize fRead full a = x at *
  generalize fRead full b = y at *
  cases x <;> cases y <;> simp_all [FVal.isNan, FVal.isSig, fSig_eq, Bool.or_assoc]

/-- A NaN addend of finite factors. -/
theorem fMadd_nan_addend {p q : Bool} {m n : Nat} {d e : Int} (ha : fRead full a = .fin p m d) (hb : fRead full b = .fin q n e)
    (hc : (fRead full c).isNan = true) : fMadd full rm a b c = (fNaN, if (fRead full c).isSig then 16#5 else 0#5) := by
  obtain ⟨sig, hc⟩ := FVal.exists_nan hc
  unfold fMadd
  simp [ha, hb, hc, FVal.isNan, FVal.isSig, fSig_eq]

/-- A comparison with a NaN. -/
theorem fCompare_nan (h : (fRead full a).isNan = true ∨ (fRead full b).isNan = true) (ordered : Bool) (test : Int → Bool) :
    fCompare full ordered test a b
      = (0#32, if ordered || (fRead full a).isSig || (fRead full b).isSig then 16#5 else 0#5) := by
  have hn : ((fRead full a).isNan || (fRead full b).isNan) = true := by simpa using h
  unfold fCompare
  rw [if_pos hn, fSig_eq]
  cases ordered
  · simp
  · rfl

theorem fSqrt_nan (h : (fRead full a).isNan = true) :
    fSqrt full rm a = (fNaN, if (fRead full a).isSig then 16#5 else 0#5) := by
  obtain ⟨sig, ha⟩ := FVal.exists_nan h
  simp [fSqrt, ha, FVal.isSig, fSig_eq]

theorem fToInt_nan (h : (fRead full a).isNan = true) : fToInt full rm a = (0x7FFFFFFF#32, 16#5) := by
  obtain ⟨sig, ha⟩ := FVal.exists_nan h
  unfold fToInt
  rw [ha]
  rfl

/-- Division by zero of a finite value. -/
theorem fDiv_zero {p q : Bool} {m : Nat} {d e : Int} (ha : fRead full a = .fin p m d) (hb : fRead full b = .fin q 0 e) :
    fDiv full rm a b = if m = 0 then (fNaN, 16#5) else (fPack (p != q) 255 0, 8#5) := by
  unfold fDiv
  rw [ha, hb]
  exact if_pos rfl

/-- Zeros of any sign are equal. -/
theorem fCompare_zeros {p q : Bool} {d e : Int} (ha : fRead full a = .fin p 0 d) (hb : fRead full b = .fin q 0 e) :
    fCompare full false (fun o => decide (o = 0)) a b = (1#32, 0#5) := by
  unfold fCompare
  rw [ha, hb]
  simp [FVal.isNan, fOrder, bitNat, wordOf]

/-- An infinity by a finite value, in both orders. -/
theorem fMul_inf_fin {p q : Bool} {n : Nat} {e : Int} (ha : fRead full a = .inf p) (hb : fRead full b = .fin q n e) :
    fMul full rm a b = (if n = 0 then (fNaN, 16#5) else (fPack (p != q) 255 0, 0#5))
      ∧ fMul full rm b a = (if n = 0 then (fNaN, 16#5) else (fPack (p != q) 255 0, 0#5)) := by
  unfold fMul
  rw [ha, hb]
  exact ⟨rfl, rfl⟩

theorem fMadd_inf_zero {p q : Bool} {e : Int} (ha : fRead full a = .inf p) (hb : fRead full b = .fin q 0 e) :
    fMadd full rm a b c = (fNaN, 16#5) ∧ fMadd full rm b a c = (fNaN, 16#5) := by
  unfold fMadd
  rw [ha, hb]
  exact ⟨rfl, rfl⟩

/-- Two infinities. -/
theorem infinities {p q : Bool} (ha : fRead full a = .inf p) (hb : fRead full b = .inf q) : fDiv full rm a b = (fNaN, 16#5)
    ∧ fAdd full rm a b = (if p = q then (a, 0#5) else (fNaN, 16#5))
    ∧ fSub full rm a b = if p = q then (fNaN, 16#5) else (a, 0#5) := by
  have hpack := eq_fPack_of_fRead_inf ha
  unfold fDiv fAdd fSub
  rw [ha, hb, hpack]
  refine ⟨rfl, ?_, ?_⟩
  · cases p <;> cases q <;> rfl
  · cases p <;> cases q <;> rfl

/-- The square root of a negative value. -/
theorem fSqrt_negative {m : Nat} {e : Int} (ha : fRead full a = .fin true m e) :
    fSqrt full rm a = if m = 0 then (0x80000000#32, 0#5) else (fNaN, 16#5) := by
  unfold fSqrt
  rw [ha]
  rfl

/-- FCVTWS beyond its limits. -/
theorem fToInt_limits : (∀ m e, (fRead full a = .fin false m e → 0 ≤ e → 2 ^ 31 ≤ m * 2 ^ e.toNat →
      fToInt full rm a = (0x7FFFFFFF#32, 16#5))
    ∧ (fRead full a = .fin true m e → 0 ≤ e → 2 ^ 31 < m * 2 ^ e.toNat → fToInt full rm a = (0x80000000#32, 16#5)))
    ∧ (∀ p, fRead full a = .inf p → fToInt full rm a = (if p then 0x80000000#32 else 0x7FFFFFFF#32, 16#5)) := by
  refine ⟨fun m e => ⟨fun h he hbig => ?_, fun h he hbig => ?_⟩, fun p h => ?_⟩
  · unfold fToInt
    rw [h]
    simp only [if_pos he, if_pos hbig]
    rfl
  · unfold fToInt
    rw [h]
    simp only [if_pos he, if_pos hbig]
    rfl
  · unfold fToInt
    rw [h]
    rfl

/-- FCVTSW of a magnitude up to 2^24 is exact. -/
theorem fOfInt_exact (ha : a ≠ 0#32) (hle : a.toInt.natAbs ≤ 2 ^ 24) : (fOfInt full rm a).2 = 0#5
    ∧ ∃ m e, fRead full (fOfInt full rm a).1 = .fin (decide (a.toInt < 0)) m e ∧ m * 2 ^ e.toNat = a.toInt.natAbs * 2 ^ (-e).toNat := by
  have hne : a.toInt.natAbs ≠ 0 := by
    rw [Int.natAbs_ne_zero]
    exact fun h => ha (BitVec.eq_of_toInt_eq h)
  unfold fOfInt
  rw [if_neg ha]
  generalize a.toInt.natAbs = n at *
  rcases hle.lt_or_eq with hlt | heq
  · have hlen := bitLen_le hlt
    have hpos := bitLen_pos hne
    obtain ⟨hflags, hread⟩ := fRound_normal (neg := decide (a.toInt < 0)) (e := 0) hne hlt full rm (by omega) (by omega)
    refine ⟨hflags, _, _, hread, ?_⟩
    rw [show (0 - ((24 - bitLen n : Nat) : Int)).toNat = 0 by omega,
      show (-(0 - ((24 - bitLen n : Nat) : Int))).toNat = 24 - bitLen n by omega, pow_zero, mul_one]
  · subst heq
    obtain ⟨hflags, hread⟩ := fRound_two_pow_24 full (decide (a.toInt < 0)) rm
    exact ⟨hflags, _, _, hread, rfl⟩

end

/-- Settles O22: the float unit's operations, case by case of what their operands read as. -/
theorem floatResults : Obligations.FloatResults := by
  refine ⟨fun full rm a b c => ?_, fun a h => fRead_plain_subnormal h, fun full neg rm m e hm h24 => ?_,
    fun neg m p => roundShift_spec neg m p, fun full rm a => ?_⟩
  · intro x y z nv quiet
    refine ⟨fun h => ⟨?_, fMadd_nan h, fun g => ⟨fCompare_nan h false g, fCompare_nan h true g⟩⟩,
      fun h => ⟨fSqrt_nan h, fToInt_nan h⟩, fun p q m n d e hx hy => ⟨fMadd_nan_addend hx hy, ?_, ?_⟩,
      fun p q n e hx hy => ⟨?_, ?_⟩, fun p q hx hy => infinities hx hy, fun m e hx => fSqrt_negative hx⟩
    · intro f hf
      simp only [List.mem_cons, List.not_mem_nil, or_false] at hf
      obtain rfl | rfl | rfl | rfl := hf
      · exact fAddVal_nan h
      · have hsub := fAddVal_nan (full := full) (rm := rm) (x := x) (y := y.negate) (by rwa [FVal.negate_isNan])
        rwa [FVal.negate_isSig] at hsub
      · exact fMul_nan h
      · exact fDiv_nan h
    · rintro rfl
      exact fDiv_zero hx hy
    · rintro rfl rfl
      exact fCompare_zeros hx hy
    · rintro rfl
      obtain ⟨hab, hba⟩ := fMul_inf_fin (rm := rm) hx hy
      obtain ⟨hmab, hmba⟩ := fMadd_inf_zero (rm := rm) (c := c) hx hy
      exact ⟨hab, hba, hmab, hmba⟩
    · intro hn
      exact (fMul_inf_fin hx hy).1.trans (if_neg hn)
  · exact ⟨fun hlo hhi => fRound_normal hm h24 full rm hlo hhi, fun h => fRound_above hm h24 full rm h,
      fun h => fRound_below hm h24 rm h⟩
  · exact ⟨fToInt_limits.1, fToInt_limits.2, fun ha hle => fOfInt_exact ha hle⟩

end Sys2Proof.Machine

/-! SUPPORT. The statements of the encoding: the fields of a word, the tables' rows, and decoding as the inverse of encoding. -/

namespace Sys2Proof.Machine

/-! ### The fields of a word -/

theorem rWord_toNat {major fn : Nat} (rd ra rb : Reg) {sh : Nat} (hm : major < 64) (hs : sh < 32) (hf : fn < 64) :
    (rWord major rd ra rb sh fn).toNat
      = major * 2 ^ 26 + rd.val * 2 ^ 21 + ra.val * 2 ^ 16 + rb.val * 2 ^ 11 + sh * 2 ^ 6 + fn := by
  have := rd.isLt
  have := ra.isLt
  have := rb.isLt
  rw [rWord, wordOf, BitVec.toNat_ofNat]
  omega

theorem iWord_toNat {major : Nat} (rd ra : Reg) (imm : BitVec 16) (hm : major < 64) :
    (iWord major rd ra imm).toNat = major * 2 ^ 26 + rd.val * 2 ^ 21 + ra.val * 2 ^ 16 + imm.toNat := by
  have := rd.isLt
  have := ra.isLt
  have := imm.isLt
  rw [iWord, wordOf, BitVec.toNat_ofNat]
  omega

theorem jWord_toNat {major : Nat} (off : BitVec 26) (hm : major < 64) : (jWord major off).toNat = major * 2 ^ 26 + off.toNat := by
  have := off.isLt
  rw [jWord, wordOf, BitVec.toNat_ofNat]
  omega

theorem field5_val (w : Word) (lo : Nat) : (field5 w lo).val = w.toNat / 2 ^ lo % 32 := by
  simp [field5, fieldAt]

/-- The fields of a word of format R. -/
theorem rWord_fields {major fn : Nat} (rd ra rb sh : Reg) (hm : major < 64) (hf : fn < 64) :
    let w := rWord major rd ra rb sh.val fn
    fieldAt w.toNat 26 6 = major ∧ fieldAt w.toNat 0 6 = fn ∧ field5 w 21 = rd ∧ field5 w 16 = ra ∧ field5 w 11 = rb
      ∧ field5 w 6 = sh := by
  have hw := rWord_toNat rd ra rb hm sh.isLt hf
  have := rd.isLt
  have := ra.isLt
  have := rb.isLt
  have := sh.isLt
  refine ⟨?_, ?_, Fin.ext ?_, Fin.ext ?_, Fin.ext ?_, Fin.ext ?_⟩
  · rw [fieldAt, hw]
    omega
  · rw [fieldAt, hw]
    omega
  all_goals
    rw [field5_val, hw]
    omega

/-- The fields of a word of format I. -/
theorem iWord_fields {major : Nat} (rd ra : Reg) (imm : BitVec 16) (hm : major < 64) :
    let w := iWord major rd ra imm
    fieldAt w.toNat 26 6 = major ∧ field5 w 21 = rd ∧ field5 w 16 = ra ∧ w.setWidth 16 = imm := by
  have hw := iWord_toNat rd ra imm hm
  have := rd.isLt
  have := ra.isLt
  have := imm.isLt
  refine ⟨?_, Fin.ext ?_, Fin.ext ?_, BitVec.eq_of_toNat_eq ?_⟩
  · rw [fieldAt, hw]
    omega
  · rw [field5_val, hw]
    omega
  · rw [field5_val, hw]
    omega
  · rw [BitVec.toNat_setWidth, hw]
    omega

/-- The fields of a word of format J. -/
theorem jWord_fields {major : Nat} (off : BitVec 26) (hm : major < 64) :
    let w := jWord major off
    fieldAt w.toNat 26 6 = major ∧ w.setWidth 26 = off := by
  have hw := jWord_toNat off hm
  have := off.isLt
  refine ⟨?_, BitVec.eq_of_toNat_eq ?_⟩
  · rw [fieldAt, hw]
    omega
  · rw [BitVec.toNat_setWidth, hw]
    omega

/-! ### The rows of the tables -/

/-- A row of format R is the only one of its opcodes and of its name, and no row of another format has its major opcode. -/
theorem rowsR_spec : ∀ x ∈ rowsR, x.major < 64 ∧ x.fn < 64 ∧ x.major ≠ 0x1E ∧ x.major ≠ 0x1F
    ∧ (rowsI.find? fun y => y.major = x.major) = none ∧ (rowsR.find? fun y => y.major = x.major && y.fn = x.fn) = some x
    ∧ rowOfR x.op = some x := by
  decide

theorem rowsI_spec : ∀ x ∈ rowsI, x.major < 64 ∧ x.major ≠ 0x1E ∧ x.major ≠ 0x1F
    ∧ (rowsI.find? fun y => y.major = x.major) = some x ∧ rowOfI x.op = some x := by
  decide

theorem rowOfR_spec {op : OpR} {x : RowR} (h : rowOfR op = some x) : x ∈ rowsR ∧ x.op = op := by
  unfold rowOfR at h
  exact ⟨List.mem_of_find?_eq_some h, of_decide_eq_true (List.find?_some h :)⟩

theorem rowOfI_spec {op : OpI} {x : RowI} (h : rowOfI op = some x) : x ∈ rowsI ∧ x.op = op := by
  unfold rowOfI at h
  exact ⟨List.mem_of_find?_eq_some h, of_decide_eq_true (List.find?_some h :)⟩

theorem Asm.wf_r {op : OpR} {rd ra rb sh : Reg} :
    (Asm.r op rd ra rb sh).wf = true ↔ ∃ x, rowOfR op = some x ∧ x.fits rd ra rb sh = true := by
  simp [Asm.wf, Option.any_eq_true]

theorem Asm.wf_i {op : OpI} {rd ra : Reg} {imm : BitVec 16} :
    (Asm.i op rd ra imm).wf = true ↔ ∃ x, rowOfI op = some x ∧ x.fits rd ra = true := by
  simp [Asm.wf, Option.any_eq_true]

theorem Asm.word_r {op : OpR} {x : RowR} (h : rowOfR op = some x) (rd ra rb sh : Reg) :
    (Asm.r op rd ra rb sh).word = rWord x.major rd ra rb sh.val x.fn := by
  simp only [Asm.word, h]

theorem Asm.word_i {op : OpI} {x : RowI} (h : rowOfI op = some x) (rd ra : Reg) (imm : BitVec 16) :
    (Asm.i op rd ra imm).word = iWord x.major rd ra imm := by
  simp only [Asm.word, h]

/-! ### Decoding -/

/-- The formats by the major opcode. -/
theorem decodeWord_eq (w : Word) : decodeWord w =
    if fieldAt w.toNat 26 6 = 0x1E then some (.j .jmp (w.setWidth 26))
    else if fieldAt w.toNat 26 6 = 0x1F then some (.j .call (w.setWidth 26))
    else match rowsI.find? fun x => x.major = fieldAt w.toNat 26 6 with
      | some x =>
        if x.fits (field5 w 21) (field5 w 16) then some (.i x.op (field5 w 21) (field5 w 16) (w.setWidth 16)) else none
      | none => decodeR w := by
  unfold decodeWord
  split
  next h => rw [if_pos h]
  next h => rw [if_neg (by omega), if_pos h]
  next h30 h31 => rw [if_neg h30, if_neg h31] <;> rfl

theorem decodeWord_jmp {w : Word} (h : fieldAt w.toNat 26 6 = 0x1E) : decodeWord w = some (.j .jmp (w.setWidth 26)) := by
  rw [decodeWord_eq, if_pos h]

theorem decodeWord_call {w : Word} (h : fieldAt w.toNat 26 6 = 0x1F) : decodeWord w = some (.j .call (w.setWidth 26)) := by
  rw [decodeWord_eq, if_neg (by omega), if_pos h]

theorem decodeWord_jWord (op : OpJ) (off : BitVec 26) : decodeWord (jWord op.major off) = some (.j op off) := by
  cases op with
  | jmp =>
    rw [show OpJ.jmp.major = 0x1E from rfl]
    obtain ⟨hop, hoff⟩ := jWord_fields (major := 0x1E) off (by decide)
    rw [decodeWord_jmp hop, hoff]
  | call =>
    rw [show OpJ.call.major = 0x1F from rfl]
    obtain ⟨hop, hoff⟩ := jWord_fields (major := 0x1F) off (by decide)
    rw [decodeWord_call hop, hoff]

theorem decodeWord_iWord {x : RowI} (hx : x ∈ rowsI) {rd ra : Reg} (hfits : x.fits rd ra = true) (imm : BitVec 16) :
    decodeWord (iWord x.major rd ra imm) = some (.i x.op rd ra imm) := by
  obtain ⟨hm, h30, h31, hfind, -⟩ := rowsI_spec x hx
  obtain ⟨hop, hrd, hra, himm⟩ := iWord_fields rd ra imm hm
  rw [decodeWord_eq, hop, hrd, hra, himm, if_neg h30, if_neg h31, hfind]
  exact if_pos hfits

/-- A major opcode of no row of format I is one of format R. -/
theorem decodeWord_of_rowsI_none {w : Word} (h30 : fieldAt w.toNat 26 6 ≠ 0x1E) (h31 : fieldAt w.toNat 26 6 ≠ 0x1F)
    (hno : (rowsI.find? fun x => x.major = fieldAt w.toNat 26 6) = none) : decodeWord w = decodeR w := by
  rw [decodeWord_eq, if_neg h30, if_neg h31, hno]

theorem decodeR_of_row {w : Word} {x : RowR}
    (hfind : (rowsR.find? fun x => x.major = fieldAt w.toNat 26 6 && x.fn = fieldAt w.toNat 0 6) = some x)
    (hfits : x.fits (field5 w 21) (field5 w 16) (field5 w 11) (field5 w 6) = true) :
    decodeR w = some (.r x.op (field5 w 21) (field5 w 16) (field5 w 11) (field5 w 6)) := by
  simp only [decodeR, hfind, if_pos hfits]

theorem decodeWord_rWord {x : RowR} (hx : x ∈ rowsR) {rd ra rb sh : Reg} (hfits : x.fits rd ra rb sh = true) :
    decodeWord (rWord x.major rd ra rb sh.val x.fn) = some (.r x.op rd ra rb sh) := by
  obtain ⟨hm, hf, h30, h31, hno, hfind, -⟩ := rowsR_spec x hx
  obtain ⟨hop, hfn, hrd, hra, hrb, hsh⟩ := rWord_fields rd ra rb sh hm hf
  generalize rWord x.major rd ra rb sh.val x.fn = w at *
  subst hrd hra hrb hsh
  rw [← hop] at h30 h31 hno hfind
  rw [← hfn] at hfind
  rw [decodeWord_of_rowsI_none h30 h31 hno, decodeR_of_row hfind hfits]

/-- Settles O6: by the format of the instruction, each name having its own row. -/
theorem decodeOfWord : Obligations.DecodeOfWord := by
  intro a ha
  cases a with
  | r op rd ra rb sh =>
    obtain ⟨x, hrow, hfits⟩ := Asm.wf_r.1 ha
    obtain ⟨hx, rfl⟩ := rowOfR_spec hrow
    rw [Asm.word_r hrow]
    exact decodeWord_rWord hx hfits
  | i op rd ra imm =>
    obtain ⟨x, hrow, hfits⟩ := Asm.wf_i.1 ha
    obtain ⟨hx, rfl⟩ := rowOfI_spec hrow
    rw [Asm.word_i hrow]
    exact decodeWord_iWord hx hfits imm
  | j op off => exact decodeWord_jWord op off

/-! ### A word of its fields -/

theorem eq_jWord {w : Word} {major : Nat} (hm : major < 64) (h : fieldAt w.toNat 26 6 = major) : jWord major (w.setWidth 26) = w := by
  refine BitVec.eq_of_toNat_eq ?_
  have := w.isLt
  rw [fieldAt] at h
  rw [jWord_toNat _ hm, BitVec.toNat_setWidth]
  omega

theorem eq_iWord {w : Word} {major : Nat} (hm : major < 64) (h : fieldAt w.toNat 26 6 = major) :
    iWord major (field5 w 21) (field5 w 16) (w.setWidth 16) = w := by
  refine BitVec.eq_of_toNat_eq ?_
  have := w.isLt
  rw [fieldAt] at h
  rw [iWord_toNat _ _ _ hm, BitVec.toNat_setWidth, field5_val, field5_val]
  omega

theorem eq_rWord {w : Word} {major fn : Nat} (hm : major < 64) (hf : fn < 64) (h : fieldAt w.toNat 26 6 = major)
    (h0 : fieldAt w.toNat 0 6 = fn) : rWord major (field5 w 21) (field5 w 16) (field5 w 11) (field5 w 6).val fn = w := by
  refine BitVec.eq_of_toNat_eq ?_
  have := w.isLt
  rw [fieldAt] at h h0
  rw [rWord_toNat _ _ _ hm (field5 w 6).isLt hf, field5_val, field5_val, field5_val, field5_val]
  omega

theorem decodeR_spec {w : Word} {a : Asm} (h : decodeR w = some a) : a.wf = true ∧ a.word = w := by
  unfold decodeR at h
  split at h
  next x hfind =>
    split at h
    next hfits =>
      cases h
      obtain ⟨hm, hf, -, -, -, -, hrow⟩ := rowsR_spec x (List.mem_of_find?_eq_some hfind)
      have hops := List.find?_some hfind
      simp only [Bool.and_eq_true, decide_eq_true_eq] at hops
      refine ⟨Asm.wf_r.2 ⟨x, hrow, hfits⟩, ?_⟩
      rw [Asm.word_r hrow]
      exact eq_rWord hm hf hops.1.symm hops.2.symm
    next => cases h
  next => cases h

/-- Settles O7: by the format that the word's major opcode selects. -/
theorem wordOfDecode : Obligations.WordOfDecode := by
  intro w a h
  rw [decodeWord_eq] at h
  split at h
  next hop =>
    cases h
    exact ⟨rfl, eq_jWord (by decide) hop⟩
  next =>
    split at h
    next hop =>
      cases h
      exact ⟨rfl, eq_jWord (by decide) hop⟩
    next =>
      split at h
      next x hfind =>
        split at h
        next hfits =>
          cases h
          obtain ⟨hm, -, -, -, hrow⟩ := rowsI_spec x (List.mem_of_find?_eq_some hfind)
          refine ⟨Asm.wf_i.2 ⟨x, hrow, hfits⟩, ?_⟩
          rw [Asm.word_i hrow]
          exact eq_iWord hm (of_decide_eq_true (List.find?_some hfind :)).symm
        next => cases h
      next => exact decodeR_spec h

end Sys2Proof.Machine

/-! SUPPORT. The statements of the Sower's choice, of flows, of places and of the spill. -/

namespace Sys2Proof.Machine

/-! ### The oldest pair and the highest urgency -/

theorem oldest_cons_ne_none (x : Pair) (l : List Pair) : oldest (x :: l) ≠ none := by
  unfold oldest
  split
  · simp
  · split
    · simp
    · simp

theorem oldest_spec {l : List Pair} {p : Pair} (h : oldest l = some p) : p ∈ l ∧ ∀ q ∈ l, p.age ≤ q.age := by
  induction l generalizing p with
  | nil => cases h
  | cons x l ih =>
    unfold oldest at h
    split at h
    next hnone =>
      cases h
      have hl : l = [] := by
        cases l with
        | nil => rfl
        | cons y l => exact absurd hnone (oldest_cons_ne_none y l)
      simp [hl]
    next r hr =>
      obtain ⟨hmem, hle⟩ := ih hr
      split at h
      next hlt =>
        cases h
        exact ⟨List.mem_cons_of_mem _ hmem, List.forall_mem_cons.2 ⟨hlt.le, hle⟩⟩
      next hge =>
        cases h
        exact ⟨List.mem_cons_self, List.forall_mem_cons.2 ⟨le_rfl, fun q hq => (Nat.le_of_not_lt hge).trans (hle q hq)⟩⟩

theorem le_foldl_urg (l : List Pair) (m : Nat) :
    m ≤ l.foldl (fun m p => max m p.urg) m ∧ ∀ q ∈ l, q.urg ≤ l.foldl (fun m p => max m p.urg) m := by
  induction l generalizing m with
  | nil => exact ⟨le_rfl, fun q hq => nomatch hq⟩
  | cons x l ih =>
    obtain ⟨hm, hl⟩ := ih (max m x.urg)
    exact ⟨(le_max_left m x.urg).trans hm, List.forall_mem_cons.2 ⟨(le_max_right m x.urg).trans hm, hl⟩⟩

/-- The Sower's choice is the oldest of a part of the most urgent pairs; under weighted selection that part is a whole group. -/
theorem State.choose_spec {s s' : State} {k : Nat} {p : Pair} (h : s.choose k = (some p, s')) :
    let top := (s.pairs k).foldl (fun m p => max m p.urg) 0
    ∃ part : List Pair, oldest part = some p ∧ (∀ q ∈ part, q ∈ s.pairs k ∧ q.urg = top)
      ∧ (s.sow.affinity = false → ∃ g, ∀ q, q ∈ part ↔ q ∈ s.pairs k ∧ q.urg = top ∧ q.group = g) := by
  intro top
  have hpart (keep : Pair → Bool) (q : Pair) :
      q ∈ ((s.pairs k).filter fun p => p.urg = top).filter keep ↔ (q ∈ s.pairs k ∧ q.urg = top) ∧ keep q = true := by
    rw [List.mem_filter, List.mem_filter, decide_eq_true_eq]
  have hgroup (g : Nat) (q : Pair) : q ∈ ((s.pairs k).filter fun p => p.urg = top).filter (fun p => p.group = g)
      ↔ q ∈ s.pairs k ∧ q.urg = top ∧ q.group = g := by
    rw [hpart, decide_eq_true_eq, and_assoc]
  unfold State.choose at h
  dsimp only at h
  split at h
  · cases h
  · split at h
    next haff =>
      refine ⟨_, (Prod.mk.inj h).1, fun q hq => ?_, fun hno => absurd haff (by simp [hno])⟩
      split at hq
      · exact of_decide_eq_true (List.mem_filter.1 hq).2 |> fun hu => ⟨(List.mem_filter.1 hq).1, hu⟩
      · exact ((hpart _ q).1 hq).1
    next =>
      split at h
      all_goals exact ⟨_, (Prod.mk.inj h).1, fun q hq => ((hpart _ q).1 hq).1, fun _ => ⟨_, hgroup _⟩⟩

/-- Settles O27: the choice is the oldest of a part of the most urgent pairs. -/
theorem choiceIsUrgent : Obligations.ChoiceIsUrgent := by
  intro s s' k p h
  obtain ⟨part, hold, hpart, hweighted⟩ := State.choose_spec h
  obtain ⟨hp, hage⟩ := oldest_spec hold
  obtain ⟨hmem, htop⟩ := hpart p hp
  refine ⟨hmem, fun q hq => htop ▸ (le_foldl_urg (s.pairs k) 0).2 q hq, fun haff q hq hurg hgroup => ?_⟩
  obtain ⟨g, hg⟩ := hweighted haff
  exact hage q ((hg q).2 ⟨hq, hurg.trans htop, hgroup.trans ((hg p).1 hp).2.2⟩)

/-- Settles O28: an eligible item is of a flow that nothing holds, and the oldest of it. -/
theorem flowsInOrder : Obligations.FlowsInOrder := by
  intro s k p it hp hitem hflow
  obtain ⟨x, hx, hpair⟩ := List.mem_filterMap.1 hp
  split at hpair
  next hel =>
    obtain ⟨t, -, rfl⟩ := Option.map_eq_some_iff.1 hpair
    cases hitem
    have hel := (Bool.and_eq_true _ _ ▸ hel).2
    simp only [State.eligible, State.flowHeld, Bool.or_eq_true, decide_eq_true_eq, hflow, false_or, Bool.and_eq_true,
      Bool.not_eq_true', Bool.or_eq_false_iff, List.any_eq_false, Bool.and_eq_true, not_and, Nat.not_lt] at hel
    obtain ⟨⟨⟨hheld, hfenced⟩, -⟩, hold⟩ := hel
    exact ⟨hx, hheld, hfenced, hold⟩
  next => cases hpair

@[simp] theorem State.raised_spill (s : State) (q : Nat) : (s.raised q).sow.spill = s.sow.spill := by
  unfold State.raised
  split <;> rfl

@[simp] theorem State.visible_spill (s : State) (q : Nat) (w : List Word) : (s.visible q w).sow.spill = s.sow.spill :=
  State.raised_spill ..

/-- A posted item joins the store last (R618). -/
theorem State.visible_store (s : State) (q : Nat) (w : List Word) :
    (s.visible q w).sow.store = s.sow.store ++ [{ words := w, q := q, age := s.sow.nextAge }] :=
  State.raised_store ..

/-- The spilled item whose turn it is becomes visible. -/
theorem State.spillPost_eq {s : State} {q : Nat} {w : List Word} {l : List (Nat × List Word)} (hroom : s.hasRoom q = true)
    (hw : s.waiter q = some .spilled) (htake : takeSpill q s.sow.spill = (some w, l)) :
    s.spillPost q = ((s.served q).modSow fun x => { x with spill := l }).visible q w := by
  unfold State.spillPost
  simp only [htake, hroom, hw]
  rfl

/-- Settles O31: a place is granted to the first waiter, or its spilled item becomes visible in it. -/
theorem placesAndSpill : Obligations.PlacesAndSpill := by
  intro s q hroom
  refine ⟨fun t hw => ?_, fun w l hw htake => ?_⟩
  · have hno : s.formWaits q.val = false := by simp [State.formWaits, hw]
    change goOn (if s.formWaits q.val then s.runDue else s.grant q.val) = _
    unfold State.grant
    simp only [hno, hroom, hw]
    rfl
  · refine ⟨_, congrArg Host.Outcome.next (State.spillPost_eq hroom hw htake), ?_, _, State.visible_store .., rfl, rfl⟩
    rw [State.visible_spill]
    rfl

end Sys2Proof.Machine

/-! SUPPORT. The statements of the Granary: what TAKE and GIVE do to the pools, and the Granary's ports. -/

namespace Sys2Proof.Machine

/-! ### Bits and buffers -/

theorem Granary.bit_setBit (g : Granary) {p i : Nat} (b : Bool) (hp : p < 4) (hi : i < poolBuffers p) :
    (g.setBit p i b).bit p i = b := by
  match p, hp with
  | 0, _ => exact (getLsbD_putBit _ _ _ _ hi).trans (if_pos rfl)
  | 1, _ => exact (getLsbD_putBit _ _ _ _ hi).trans (if_pos rfl)
  | 2, _ => exact (getLsbD_putBit _ _ _ _ hi).trans (if_pos rfl)
  | 3, _ => exact (getLsbD_putBit _ _ _ _ hi).trans (if_pos rfl)

theorem getLsbD_putBit_ne {n : Nat} (m : BitVec n) {i j : Nat} (b : Bool) (h : j ≠ i) :
    (putBit m i b).getLsbD j = m.getLsbD j := by
  by_cases hj : j < n
  · rw [getLsbD_putBit _ _ _ _ hj, if_neg (Ne.symm h)]
  · rw [BitVec.getLsbD_of_ge _ _ (Nat.le_of_not_lt hj), BitVec.getLsbD_of_ge _ _ (Nat.le_of_not_lt hj)]

theorem Granary.bit_setBit_ne (g : Granary) {p i q j : Nat} (b : Bool) (hp : p < 4) (hq : q < 4) (h : (q, j) ≠ (p, i)) :
    (g.setBit p i b).bit q j = g.bit q j := by
  by_cases hpq : q = p
  · subst hpq
    have hji : j ≠ i := fun hji => h (by rw [hji])
    match q, hp with
    | 0, _ => exact getLsbD_putBit_ne _ _ hji
    | 1, _ => exact getLsbD_putBit_ne _ _ hji
    | 2, _ => exact getLsbD_putBit_ne _ _ hji
    | 3, _ => exact getLsbD_putBit_ne _ _ hji
  · match p, q, hp, hq with
    | 0, 1, _, _ | 0, 2, _, _ | 0, 3, _, _ => rfl
    | 1, 0, _, _ | 1, 2, _, _ | 1, 3, _, _ => rfl
    | 2, 0, _, _ | 2, 1, _, _ | 2, 3, _, _ => rfl
    | 3, 0, _, _ | 3, 1, _, _ | 3, 2, _, _ => rfl
    | 0, 0, _, _ | 1, 1, _, _ | 2, 2, _, _ | 3, 3, _, _ => exact absurd rfl hpq

theorem putBit_true_false {n : Nat} {m : BitVec n} {i : Nat} (h : m.getLsbD i = true) : putBit (putBit m i false) i true = m := by
  refine BitVec.eq_of_getLsbD_eq fun j hj => ?_
  rw [getLsbD_putBit _ _ _ _ hj]
  split
  next hij => rw [← hij, h]
  next hij => exact getLsbD_putBit_ne _ _ (Ne.symm hij)

/-- A bit that was set is set again. -/
theorem Granary.setBit_true_false (g : Granary) {p i : Nat} (hp : p < 4) (h : g.bit p i = true) :
    (g.setBit p i false).setBit p i true = g := by
  match p, hp with
  | 0, _ => exact congrArg (fun m => { g with map0 := m }) (putBit_true_false h)
  | 1, _ => exact congrArg (fun m => { g with map1 := m }) (putBit_true_false h)
  | 2, _ => exact congrArg (fun m => { g with map2 := m }) (putBit_true_false h)
  | 3, _ => exact congrArg (fun m => { g with map3 := m }) (putBit_true_false h)

/-! ### TAKE -/

/-- The requester can have a buffer of the pool: it is within its quota, and more buffers are free than are owed to others (R657). -/
def Granary.Can (g : Granary) (r p : Nat) : Prop := g.inuseOf r p < g.quotaOf r p ∧ g.owed r p < g.free p

/-- The Granary once requester `r` has buffer `i` of pool `p`. -/
def Granary.taken (g : Granary) (r p i : Nat) : Granary :=
  { g.setBit p i false with inuse := vmod g.inuse r fun v => vmod v p (· + 1), takers := (p, i, r) :: g.takers }

/-- A pool that has a free buffer has a first one. -/
theorem Granary.exists_first_free {g : Granary} {p : Nat} (h : 0 < g.free p) : ∃ i,
    ((List.range (poolBuffers p)).find? fun i => g.bit p i) = some i ∧ i < poolBuffers p ∧ g.bit p i = true
      ∧ ∀ j, j < i → g.bit p j = false := by
  unfold Granary.free at h
  split at h
  next =>
    obtain ⟨j, hj⟩ := List.exists_mem_of_length_pos h
    obtain ⟨hj, hbit⟩ := List.mem_filter.1 hj
    have hsome : ((List.range (poolBuffers p)).find? fun i => g.bit p i).isSome := List.find?_isSome.2 ⟨j, hj, hbit⟩
    obtain ⟨i, hi⟩ := Option.isSome_iff_exists.1 hsome
    obtain ⟨hbit, hlt, hfirst⟩ := List.find?_range_eq_some.1 hi
    exact ⟨i, hi, List.mem_range.1 hlt, hbit, fun j hj => by simpa using hfirst j hj⟩
  next => exact absurd h (Nat.lt_irrefl 0)

theorem Granary.can_iff {g : Granary} {r p : Nat} :
    (g.inuseOf r p < g.quotaOf r p && g.owed r p < g.free p) = true ↔ g.Can r p := by
  simp [Granary.Can]

/-- TAKE passes over the pools that cannot serve it. -/
theorem Granary.takeFrom_none {g : Granary} {r : Nat} {l : List Nat} (h : ∀ p ∈ l, ¬ g.Can r p) : g.takeFrom r l = none := by
  induction l with
  | nil => rfl
  | cons p l ih =>
    obtain ⟨hp, hl⟩ := List.forall_mem_cons.1 h
    unfold Granary.takeFrom
    rw [if_neg (mt Granary.can_iff.1 hp)]
    exact ih hl

/-- TAKE serves the request from the first pool that can. -/
theorem Granary.takeFrom_first {g : Granary} {r p i : Nat} {l : List Nat} (hl : l.Pairwise (· < ·)) (hp : p ∈ l) (hcan : g.Can r p)
    (hfirst : ∀ j ∈ l, j < p → ¬ g.Can r j) (hi : ((List.range (poolBuffers p)).find? fun i => g.bit p i) = some i) :
    g.takeFrom r l = some (wordOf (poolBase p + i * poolSize g.sized p), g.taken r p i) := by
  induction l with
  | nil => cases hp
  | cons x l ih =>
    obtain ⟨hx, hl⟩ := List.pairwise_cons.1 hl
    unfold Granary.takeFrom
    rcases List.mem_cons.1 hp with rfl | hp
    · rw [if_pos (Granary.can_iff.2 hcan), hi]
      rfl
    · rw [if_neg (mt Granary.can_iff.1 (hfirst x List.mem_cons_self (hx p hp)))]
      exact ih hl hp fun j hj => hfirst j (List.mem_cons_of_mem _ hj)

/-- The pools of a size class in the mode, in their order (R651, R657). -/
def Granary.classPools (g : Granary) (sl : Nat) : List Nat :=
  if g.sized then (List.range 4).filter fun p => sl ≤ p else if 2 ≤ sl then [] else [0]

theorem Granary.mem_classPools {g : Granary} {sl p : Nat} :
    p ∈ g.classPools sl ↔ if g.sized then sl ≤ p ∧ p < 4 else sl < 2 ∧ p = 0 := by
  unfold Granary.classPools
  split
  · simp [and_comm]
  · split
    next h => simp [Nat.not_lt.2 h]
    next h => simp [Nat.lt_of_not_le h]

theorem Granary.classPools_sorted (g : Granary) (sl : Nat) : (g.classPools sl).Pairwise (· < ·) := by
  unfold Granary.classPools
  split
  · exact List.pairwise_lt_range.filter _
  · split
    · exact List.Pairwise.nil
    · exact List.pairwise_singleton ..

theorem Granary.take_eq (g : Granary) (r sl : Nat) : g.take r sl = match g.takeFrom r (g.classPools sl) with
    | some x => x
    | none => (0#32, { g with fails := satInc 65535 g.fails }) := rfl

theorem Granary.mem_classPools_lt {g : Granary} {sl p : Nat} (h : p ∈ g.classPools sl) : p < 4 ∧ (g.sized = false → p = 0) := by
  rw [Granary.mem_classPools] at h
  split at h
  next hs => exact ⟨h.2, fun hno => absurd hs (by simp [hno])⟩
  next => exact ⟨by omega, fun _ => h.2⟩

/-! ### GIVE of what was taken -/

/-- The buffers of a pool fill its part of the address space. -/
theorem poolBuffers_mul_poolSize {p : Nat} (hp : p < 4) : poolBuffers p * poolSize true p = 0x40000 := by
  match p, hp with
  | 0, _ | 1, _ | 2, _ | 3, _ => rfl

theorem poolSize_pos (sized : Bool) (p : Nat) : 0 < poolSize sized p := by
  unfold poolSize
  split
  · exact Nat.mul_pos (by decide) (Nat.pow_pos (by decide))
  · decide

/-- The address of a buffer selects it (R661). -/
theorem Granary.bufferOf_address {g : Granary} {p i : Nat} (hp : p < 4) (hsingle : g.sized = false → p = 0) (hi : i < poolBuffers p) :
    g.bufferOf (wordOf (poolBase p + i * poolSize g.sized p)) = (p, i) := by
  unfold Granary.bufferOf
  cases hs : g.sized with
  | false =>
    obtain rfl := hsingle hs
    have hi : i < 4096 := hi
    have hn : (wordOf (poolBase 0 + i * 256)).toNat = 0x10000000 + i * 256 := by
      rw [wordOf, poolBase, BitVec.toNat_ofNat]
      omega
    simp only [poolSize, Bool.false_eq_true, if_false, hn, fieldAt]
    refine Prod.ext rfl ?_
    dsimp only
    omega
  | true =>
    have hlt : i * poolSize true p < 0x40000 := by
      rw [← poolBuffers_mul_poolSize hp]
      exact Nat.mul_lt_mul_of_pos_right hi (poolSize_pos true p)
    have hn : (wordOf (poolBase p + i * poolSize true p)).toNat = 0x10000000 + p * 0x40000 + i * poolSize true p := by
      rw [wordOf, poolBase, BitVec.toNat_ofNat]
      omega
    have hpool : fieldAt (wordOf (poolBase p + i * poolSize true p)).toNat 18 2 = p := by
      rw [hn, fieldAt]
      omega
    have hoff : (wordOf (poolBase p + i * poolSize true p)).toNat % 0x40000 = i * poolSize true p := by
      rw [hn]
      omega
    simp only [if_true, hpool, hoff, Nat.mul_div_cancel _ (poolSize_pos true p)]

theorem vmod_vmod {α : Type} [Inhabited α] {n : Nat} (v : Vector α n) {i : Nat} (h : i < n) (f g : α → α) :
    vmod (vmod v i f) i g = vmod v i fun x => g (f x) := by
  unfold vmod
  rw [vget_vset_self _ _ _ h]
  simp only [vset, Vector.setIfInBounds_setIfInBounds]

theorem vmod_id {α : Type} [Inhabited α] {n : Nat} (v : Vector α n) (i : Nat) : vmod v i (fun x => x) = v := by
  refine Vector.ext fun j hj => ?_
  simp only [vmod, vset, Vector.getElem_setIfInBounds]
  split
  next h => subst h; simp [vget, hj]
  next => rfl

/-- The count that TAKE raises and GIVE lowers. -/
theorem inuse_taken_given (v : Vector (Vector Nat 4) 32) {r p : Nat} (hr : r < 32) (hp : p < 4) :
    vmod (vmod v r fun w => vmod w p (· + 1)) r (fun w => vmod w p (· - 1)) = v := by
  rw [vmod_vmod _ hr]
  simp only [vmod_vmod _ hp, Nat.add_sub_cancel, vmod_id]

theorem Granary.taken_setBit {g : Granary} {r p i : Nat} (hp : p < 4) (hbit : g.bit p i = true) : (g.taken r p i).setBit p i true
    = { g with inuse := vmod g.inuse r fun v => vmod v p (· + 1), takers := (p, i, r) :: g.takers } := by
  match p, hp with
  | 0, _ =>
    exact congrArg (fun m => ({ g with map0 := m, inuse := vmod g.inuse r fun v => vmod v 0 (· + 1), takers := (0, i, r) :: g.takers }
      : Granary)) (putBit_true_false hbit)
  | 1, _ =>
    exact congrArg (fun m => ({ g with map1 := m, inuse := vmod g.inuse r fun v => vmod v 1 (· + 1), takers := (1, i, r) :: g.takers }
      : Granary)) (putBit_true_false hbit)
  | 2, _ =>
    exact congrArg (fun m => ({ g with map2 := m, inuse := vmod g.inuse r fun v => vmod v 2 (· + 1), takers := (2, i, r) :: g.takers }
      : Granary)) (putBit_true_false hbit)
  | 3, _ =>
    exact congrArg (fun m => ({ g with map3 := m, inuse := vmod g.inuse r fun v => vmod v 3 (· + 1), takers := (3, i, r) :: g.takers }
      : Granary)) (putBit_true_false hbit)

theorem Granary.taken_bufferOf (g : Granary) (r p i : Nat) (a : Word) : (g.taken r p i).bufferOf a = g.bufferOf a := by
  unfold Granary.taken Granary.setBit
  split <;> rfl

/-- GIVE undoes TAKE (R650, R661). -/
theorem Granary.give_taken {g : Granary} {r p i : Nat} (hr : r < 32) (hp : p < 4) (hsingle : g.sized = false → p = 0)
    (hi : i < poolBuffers p) (hbit : g.bit p i = true) :
    (g.taken r p i).give r (wordOf (poolBase p + i * poolSize g.sized p))
      = { g with takers := g.takers.filter fun y => (y.1, y.2.1) ≠ (p, i) } := by
  have htakers : (g.taken r p i).takers = (p, i, r) :: g.takers := rfl
  have hinuse : (g.taken r p i).inuse = vmod g.inuse r fun v => vmod v p (· + 1) := rfl
  unfold Granary.give
  rw [Granary.taken_bufferOf, Granary.bufferOf_address hp hsingle hi]
  simp only [Granary.taken_setBit hp hbit, htakers, hinuse, inuse_taken_given _ hr hp]
  simp

/-! ### The two together -/

/-- Settles O34: TAKE serves from the first pool that can, and GIVE of the buffer undoes it. -/
theorem takeAndGive : Obligations.TakeAndGive := by
  intro g r sl hr hsl has x
  have hhas (p : Nat) : has p ↔ p ∈ g.classPools sl ∧ g.Can r p := by
    rw [Granary.mem_classPools]
    rfl
  refine ⟨fun p hp hno => ?_, fun hno => ?_⟩
  · obtain ⟨hmem, hcan⟩ := (hhas p).1 hp
    obtain ⟨h4, hsingle⟩ := Granary.mem_classPools_lt hmem
    obtain ⟨i, hfind, hi, hbit, hfirst⟩ := Granary.exists_first_free (Nat.zero_lt_of_lt hcan.2)
    have htake := Granary.takeFrom_first (g.classPools_sorted sl) hmem hcan
      (fun j hj hlt hc => hno j hlt ((hhas j).2 ⟨hj, hc⟩)) hfind
    have hx : x = (wordOf (poolBase p + i * poolSize g.sized p), g.taken r p i) := by
      unfold x
      rw [Granary.take_eq, htake]
    refine ⟨i, hi, hbit, hfirst, ?_, ?_, fun q j hq hne => ?_, ?_, ?_, ?_⟩
    · rw [hx, poolBase, poolSize, Nat.mul_comm 0x40000 p]
      rfl
    · rw [hx]
      exact Granary.bit_setBit g false h4 hi
    · rw [hx]
      exact Granary.bit_setBit_ne g false h4 hq hne
    · rw [hx]
      simp [Granary.inuseOf, Granary.taken, hr, h4]
    · rw [hx]
      unfold Granary.taken Granary.setBit
      split <;> rfl
    · rw [hx]
      exact Granary.give_taken hr h4 hsingle hi hbit
  · unfold x
    rw [Granary.take_eq, Granary.takeFrom_none fun p hp hc => hno p ((hhas p).2 ⟨hp, hc⟩)]

/-! ### The Granary's ports -/

theorem State.readPort_granary {p : Nat} (hp : 0x400 ≤ p ∧ p < 0x500) (s : State) (k t : Nat) :
    s.readPort k t p = s.readGranary k t p := by
  have hb : p / 256 = 4 := by omega
  rw [State.readPort, if_neg (by omega), if_neg (by omega), if_neg (by omega), hb]
  rfl

theorem State.writePort_granary {p : Nat} (hp : 0x400 ≤ p ∧ p < 0x500) (s : State) (k t : Nat) (w : Word) :
    s.writePort k t p w = s.writeGranary k t p w.toNat := by
  have hb : p / 256 = 4 := by omega
  rw [State.writePort, if_neg (by omega), if_neg (by omega), if_neg (by omega), hb]
  rfl

/-- A field core's access of the Granary crosses no hinge. -/
theorem hingePort_granary {k p : Nat} (hk : k < 6) (hp : 0x400 ≤ p ∧ p < 0x500) : hingePort k p = false := by
  unfold hingePort latchPort
  rw [if_neg (by omega)]
  simp only [Bool.or_eq_false_iff, Bool.and_eq_false_imp, decide_eq_true_eq, decide_eq_false_iff_not]
  omega

theorem State.crossed_granary (s : State) {k p : Nat} (hk : k < 6) (hp : 0x400 ≤ p ∧ p < 0x500) : s.crossed k p = s := by
  rw [State.crossed, hingePort_granary hk hp]
  rfl

section
variable {s : State} {k : Fin 6} {p : Nat}

theorem Reaches.wrote_granary (h : Reaches s (.fc k) p true) (hp : 0x400 ≤ p ∧ p < 0x500) (v : Nat) :
    s.wrote (.fc k) p v = (s.drained (.fc k)).writeGranary k.val (s.accessor k.val) p (wordOf v).toNat := by
  rw [State.wrote, h.wroteOf_eq, State.writePort_granary hp]
  exact congrArg (fun u : State => u.writeGranary k.val (s.accessor k.val) p (wordOf v).toNat)
    (State.crossed_granary _ k.isLt hp)

theorem Reaches.didRead_granary (h : Reaches s (.fc k) p false) (hp : 0x400 ≤ p ∧ p < 0x500) :
    s.didRead (.fc k) p = ((s.drained (.fc k)).readGranary k.val (s.accessor k.val) p).2 := by
  rw [h.didRead, State.inPort_eq h.2.1, State.readPort_granary hp]
  exact congrArg (fun u : State => (u.readGranary k.val (s.accessor k.val) p).2) (State.crossed_granary _ k.isLt hp)

end

section
variable (s : State) {k : Nat} (t v : Nat)

/-- LC may only read the block (R669, R671). -/
theorem State.writeGranary_lc (p : Nat) : s.writeGranary 6 t p v = s := rfl

theorem State.readGranary_take (hk : k < 6) (r : Fin 32) (sl : Fin 4) :
    (s.readGranary k t (0x480 + 4 * r.val + sl.val)).2 = { s with gran := (s.gran.take (requester t r.val) sl.val).2 } := by
  have hr : (0x480 + 4 * r.val + sl.val - 0x480) / 4 = r.val := by omega
  have hsl : (0x480 + 4 * r.val + sl.val) % 4 = sl.val := by omega
  unfold State.readGranary
  dsimp only
  rw [if_pos (by omega), if_neg (by omega), hr, hsl]
  rfl

theorem State.readGranary_take_lc (r : Fin 32) (sl : Fin 4) : (s.readGranary 6 t (0x480 + 4 * r.val + sl.val)).2 = s := by
  unfold State.readGranary
  dsimp only
  rw [if_pos (by omega), if_pos rfl]

theorem State.writeGranary_give (hk : k < 6) (r : Fin 32) (a : Word) :
    s.writeGranary k t (0x440 + r.val) a.toNat = { s with gran := s.gran.give (requester t r.val) a } := by
  have hr : 0x440 + r.val - 0x440 = r.val := by omega
  unfold State.writeGranary
  dsimp only
  rw [if_neg (by omega), if_pos (by omega), hr, wordOf_toNat]
  rfl

theorem State.writeGranary_mode (hk : k < 6) : s.writeGranary k t 0x400 v = { s with gran := s.gran.setMode (bitAt v 0) } := by
  unfold State.writeGranary
  dsimp only
  rw [if_neg (by omega), if_neg (by omega)]
  rfl

theorem State.writeGranary_select (hk : k < 6) :
    s.writeGranary k t 0x410 v = s.modCore k fun c => { c with rsReq := fieldAt v 0 5, rsPool := fieldAt v 8 2 } := by
  unfold State.writeGranary
  dsimp only
  rw [if_neg (by omega), if_neg (by omega)]
  rfl

theorem State.writeGranary_quota (hk : k < 6) : s.writeGranary k t 0x411 v = { s with
    gran := s.gran.setQuota (s.core k).rsReq (s.gran.poolSel (s.core k).rsPool) (fieldAt v 0 13) } := by
  unfold State.writeGranary
  dsimp only
  rw [if_neg (by omega), if_neg (by omega)]
  rfl

theorem State.writeGranary_min (hk : k < 6) : s.writeGranary k t 0x412 v = { s with
    gran := s.gran.setMin (s.core k).rsReq (s.gran.poolSel (s.core k).rsPool) (fieldAt v 0 13) } := by
  unfold State.writeGranary
  dsimp only
  rw [if_neg (by omega), if_neg (by omega)]
  rfl

end

/-- The state in which a core's selection of requester and pool stands. -/
def State.selecting (d : State) (k r p : Nat) : State := d.modCore k fun c => { c with rsReq := r, rsPool := p }

theorem State.core_selecting (d : State) {k : Nat} (hk : k < 7) (r p : Nat) :
    (d.selecting k r p).core k = { d.core k with rsReq := r, rsPool := p } :=
  State.core_modCore_self d k _ hk

theorem State.selecting_gran (d : State) (k r p : Nat) : (d.selecting k r p).gran = d.gran := rfl

theorem State.mayAccess_selecting (d : State) {k : Nat} (hk : k < 7) (r p port : Nat) (write : Bool) :
    (d.selecting k r p).mayAccess k port write = d.mayAccess k port write := by
  simp only [State.mayAccess, State.accessor, State.core_selecting d hk]
  rfl

/-- A write of a Granary port by a field core, outside any instruction, is served at once. -/
theorem State.accessed_granary (d : State) {k port : Nat} (hk : k < 6) (hp : 0x400 ≤ port ∧ port < 0x500) (w : Word) :
    d.accessed (d.accessOf k (.write port w)) = d.writeGranary k (d.accessor k) port w.toNat := by
  have hclear : Clear d k port := fun _ hh => absurd hh (by simp [hingePort_granary hk hp])
  have hdark : d.portDark k port = false := by simp [State.portDark, Nat.ne_of_lt hk]
  rw [Clear.accessed (by exact hclear) (Nat.lt_succ_of_lt hk)]
  change ((d.outPort k (d.accessor k) port w).completes (d.accessOf k (.write port w))) = _
  rw [State.outPort_eq hdark, State.crossed_granary d hk hp, State.writePort_granary hp]
  rfl

/-- A write of a selected setting of the Granary: the selection, and then the setting (R655). -/
theorem Reaches.wroteSel_granary {s : State} {k : Fin 6} {port : Nat} (h : Reaches s (.fc k) 0x410 true)
    (hp : 0x400 ≤ port ∧ port < 0x500) (hmay : (s.drained (.fc k)).mayAccess k.val port true = true) (r : Fin 32) (p : Fin 4) (v : Nat) :
    ∃ t, s.wroteSel (.fc k) r.val p.val port v
      = ((s.drained (.fc k)).selecting k.val r.val p.val).writeGranary k.val t port (wordOf v).toNat := by
  have hn : (wordOf (r.val + 256 * p.val)).toNat = r.val + 256 * p.val := by
    rw [wordOf, BitVec.toNat_ofNat]
    omega
  have hr : fieldAt (r.val + 256 * p.val) 0 5 = r.val := by
    rw [fieldAt]
    omega
  have hpool : fieldAt (r.val + 256 * p.val) 8 2 = p.val := by
    rw [fieldAt]
    omega
  have hsel : s.wrote (.fc k) 0x410 (r.val + 256 * p.val) = (s.drained (.fc k)).selecting k.val r.val p.val := by
    rw [h.wrote_granary (by decide), State.writeGranary_select _ _ _ k.isLt, hn, hr, hpool]
    rfl
  unfold State.wroteSel
  dsimp only
  rw [hsel]
  change ∃ t, (if ((s.drained (.fc k)).selecting k.val r.val p.val).mayAccess k.val port true then _ else _) = _
  rw [State.mayAccess_selecting _ (Nat.lt_succ_of_lt k.isLt), if_pos hmay]
  exact ⟨_, State.accessed_granary _ k.isLt hp _⟩

/-! ### MODE, quotas and minima -/

theorem Granary.setMode_of_allFree {g : Granary} (h : g.allFree = true) (b : Bool) :
    (g.setMode b).sized = b ∧ (∀ i : Fin 4, ∀ j, j < poolBuffers i.val → (g.setMode b).bit i.val j = true)
      ∧ (∀ (i : Fin 32) (j : Fin 4), (g.setMode b).inuseOf i.val j.val = 0) ∧ (g.setMode b).quota = g.quota
      ∧ (g.setMode b).min = g.min ∧ (g.setMode b).rej = g.rej ∧ (g.setMode b).mem = g.mem := by
  unfold Granary.setMode
  rw [if_pos h]
  refine ⟨rfl, fun i j hj => ?_, fun i j => ?_, rfl, rfl, rfl, rfl⟩
  · match i with
    | 0 => exact (BitVec.getLsbD_allOnes ..).trans (decide_eq_true hj)
    | 1 => exact (BitVec.getLsbD_allOnes ..).trans (decide_eq_true hj)
    | 2 => exact (BitVec.getLsbD_allOnes ..).trans (decide_eq_true hj)
    | 3 => exact (BitVec.getLsbD_allOnes ..).trans (decide_eq_true hj)
  · simp [Granary.inuseOf, vget]

theorem vget_vget_vmod_vset (v : Vector (Vector Nat 4) 32) {r p : Nat} (hr : r < 32) (hp : p < 4) (x i j : Nat) :
    vget (vget (vmod v r fun w => vset w p x) i) j = if (i, j) = (r, p) then x else vget (vget v i) j := by
  by_cases hi : r = i
  · subst hi
    rw [vget_vmod_self _ _ _ hr, vget_vset]
    simp [hp, eq_comm]
  · rw [vget_vmod_ne _ _ _ _ hi, if_neg fun h => hi (Prod.mk.inj h).1.symm]

theorem Granary.setMode_of_not_allFree {g : Granary} (h : g.allFree = false) (b : Bool) :
    g.setMode b = { g with rej := satInc 255 g.rej } := by
  unfold Granary.setMode
  rw [if_neg (by simp [h])]

/-- A minimum stands where it fits with those of the other keeper units (R655). -/
theorem Granary.setMin_spec (g : Granary) {r p : Nat} (hr : r < 32) (hp : p < 4) (v : Nat) :
    let sum := (List.range 32).foldl (fun n j => n + (if j = r then v else g.minOf j p)) 0
    (16 ≤ r → sum ≤ poolBuffers p → (g.setMin r p v).minOf r p = v ∧ (g.setMin r p v).rej = g.rej)
      ∧ (16 ≤ r → poolBuffers p < sum → g.setMin r p v = { g with rej := satInc 255 g.rej })
      ∧ (r < 16 → g.setMin r p v = g) := by
  intro sum
  refine ⟨fun h16 hfits => ?_, fun h16 hover => ?_, fun h16 => ?_⟩
  · unfold Granary.setMin
    dsimp only
    rw [if_neg (Nat.not_lt.2 h16), if_neg (Nat.not_lt.2 hfits)]
    exact ⟨(vget_vget_vmod_vset g.min hr hp v r p).trans (if_pos rfl), rfl⟩
  · unfold Granary.setMin
    dsimp only
    rw [if_neg (Nat.not_lt.2 h16), if_pos hover]
  · unfold Granary.setMin
    rw [if_pos h16]

theorem whoOf_fc (k : Fin 6) : whoOf k.val = .fc k := by simp [whoOf]

/-- Settles O35: each command is an access of its port, and each port does to the Granary what its lemma says. -/
theorem granaryPorts : Obligations.GranaryPorts := by
  intro s k r sl p a b v d q pool
  have hb : bitAt (wordOf (bitNat b)).toNat 0 = b := by cases b <;> rfl
  have hpool : d.gran.poolSel p.val = pool := rfl
  have hpool4 : pool < 4 := by
    unfold pool
    split
    · exact p.isLt
    · decide
  have hv : fieldAt (wordOf v.toNat).toNat 0 13 = v.toNat := by
    have := v.isLt
    rw [wordOf, BitVec.toNat_ofNat, fieldAt]
    omega
  refine ⟨fun h => ?_, fun h => ?_, fun h hfull => ?_, fun h hfree => ?_, fun h hmay => ?_, fun h hmay => ?_, fun h => ?_, fun h => ?_⟩
  · change goOn (s.didRead (whoOf k.val) (0x480 + 4 * r.val + sl.val)) = _
    rw [whoOf_fc, h.didRead_granary (by omega), State.readGranary_take _ _ k.isLt]
    rfl
  · change goOn (s.wrote (whoOf k.val) (0x440 + r.val) a.toNat) = _
    rw [whoOf_fc, h.wrote_granary (by omega), wordOf_toNat, State.writeGranary_give _ _ k.isLt]
    rfl
  · change goOn (s.wrote (.fc k) 0x400 (bitNat b)) = _
    rw [h.wrote_granary (by decide), State.writeGranary_mode _ _ _ k.isLt, Granary.setMode_of_not_allFree hfull]
    rfl
  · refine ⟨d.modGran fun g => g.setMode b, ?_, ?_⟩
    · change goOn (s.wrote (.fc k) 0x400 (bitNat b)) = _
      rw [h.wrote_granary (by decide), State.writeGranary_mode _ _ _ k.isLt, hb]
      rfl
    · rw [State.modGran_gran]
      exact Granary.setMode_of_allFree hfree b
  · obtain ⟨t, ht⟩ := h.wroteSel_granary (by decide) hmay r p v.toNat
    refine ⟨_, congrArg Host.Outcome.next ht, ?_⟩
    rw [State.writeGranary_quota _ _ _ k.isLt, State.core_selecting _ (Nat.lt_succ_of_lt k.isLt), hv]
    dsimp only
    rw [State.selecting_gran, hpool]
    have hquota (i j : Nat) := vget_vget_vmod_vset d.gran.quota r.isLt hpool4 (Nat.min v.toNat (poolBuffers pool)) i j
    exact ⟨(hquota r.val pool).trans (if_pos rfl), fun i j hne => (hquota i j).trans (if_neg hne)⟩
  · intro sum
    obtain ⟨t, ht⟩ := h.wroteSel_granary (by decide) hmay r p v.toNat
    refine ⟨_, congrArg Host.Outcome.next ht, ?_⟩
    rw [State.writeGranary_min _ _ _ k.isLt, State.core_selecting _ (Nat.lt_succ_of_lt k.isLt), hv]
    dsimp only
    rw [State.selecting_gran, hpool]
    exact Granary.setMin_spec d.gran r.isLt hpool4 v.toNat
  · change goOn (s.didRead .lc (0x480 + 4 * r.val + sl.val)) = _
    rw [h.didRead, State.inPort_eq h.2.1, State.readPort_granary (by omega)]
    change goOn (((s.drained .lc).crossed 6 _).readGranary 6 _ _).2 = _
    rw [State.readGranary_take_lc, State.crossed_lc]
    rfl
  · change goOn (s.wrote .lc 0x400 (bitNat b)) = _
    rw [State.wrote, h.wroteOf_eq, State.writePort_granary (by decide)]
    change goOn (((s.drained .lc).crossed 6 _).writeGranary 6 _ _ _) = _
    rw [State.writeGranary_lc, State.crossed_lc]
    rfl

end Sys2Proof.Machine

/-! SUPPORT. The statements of the Sower's ports: configuration, flush, statistics, context window and trace. -/

namespace Sys2Proof.Machine

/-! ### The state in which a port of the Sower is accessed -/

theorem hingePort_field {k p : Nat} (hk : k < 6) (hp : fieldPort p = true) : hingePort k p = false := by
  have hlatch : latchPort p = false := by simpa using (Bool.and_eq_true_iff.1 hp).2
  have hhinge : (decide (0x100 ≤ p) && decide (p < 0x200)) = false := by
    by_contra hh
    rw [Bool.not_eq_false] at hh
    simp [latchPort, hh] at hlatch
  rw [hingePort, hhinge, if_neg (Nat.ne_of_lt hk), hlatch]
  rfl

/-- A port of the field domain is accessed in the state as it is. -/
theorem State.crossed_field (s : State) {k p : Nat} (hk : k < 7) (hp : fieldPort p = true) : s.crossed k p = s := by
  by_cases h6 : k = 6
  · rw [h6, State.crossed_lc]
  · rw [State.crossed, hingePort_field (by omega) hp]
    rfl

/-- A port of the latch domain is accessed once the side's transfer is granted. -/
theorem State.crossed_latch (s : State) {k p : Nat} (hp : latchPort p = true) : s.crossed k p = s.granted k := by
  by_cases h6 : k = 6
  · rw [h6, State.crossed_lc, State.granted_lc]
  · rw [State.crossed, hingePort, if_neg h6, hp, Bool.or_true]
    rfl

@[simp] theorem State.crossed_sow (s : State) (k p : Nat) : (s.crossed k p).sow = s.sow := by rw [State.crossed_eq]

theorem State.writePort_sower {p : Nat} (hp : 0x200 ≤ p ∧ p < 0x400) (s : State) (k t : Nat) (w : Word) :
    s.writePort k t p w = s.writeSower k p w.toNat := by
  rw [State.writePort, if_neg (by omega), if_neg (by omega), if_neg (by omega)]
  rcases (by omega : p / 256 = 2 ∨ p / 256 = 3) with hb | hb
  · rw [hb]
    rfl
  · rw [hb]
    rfl

theorem State.readPort_sower {p : Nat} (hp : 0x200 ≤ p ∧ p < 0x400) (s : State) (k t : Nat) :
    s.readPort k t p = s.readSower k p := by
  rw [State.readPort, if_neg (by omega), if_neg (by omega), if_neg (by omega)]
  rcases (by omega : p / 256 = 2 ∨ p / 256 = 3) with hb | hb
  · rw [hb]
    rfl
  · rw [hb]
    rfl

section
variable {s : State} {who : Who} {p : Nat}

/-- A write of a port of the Sower by a side that reaches it. -/
theorem Reaches.wroteOf_sower {v : State → Nat} (h : Reaches s who p true) (hp : 0x200 ≤ p ∧ p < 0x400) :
    s.wroteOf who p v = ((s.drained who).crossed (coreOfWho who) p).writeSower (coreOfWho who) p (wordOf (v (s.drained who))).toNat := by
  rw [h.wroteOf_eq, State.writePort_sower hp]

/-- The same of a port of the field domain. -/
theorem Reaches.wroteOf_field {v : State → Nat} (h : Reaches s who p true) (hp : 0x200 ≤ p ∧ p < 0x400) (hf : fieldPort p = true) :
    s.wroteOf who p v = (s.drained who).writeSower (coreOfWho who) p (wordOf (v (s.drained who))).toNat := by
  rw [h.wroteOf_sower hp, State.crossed_field _ (coreOfWho_lt who) hf]

theorem Reaches.didRead_sower (h : Reaches s who p false) (hp : 0x200 ≤ p ∧ p < 0x400) :
    s.didRead who p = (((s.drained who).crossed (coreOfWho who) p).readSower (coreOfWho who) p).2 := by
  rw [h.didRead, State.inPort_eq h.2.1, State.readPort_sower hp]

end

theorem wordOf_toNat_of_lt {n : Nat} (h : n < 2 ^ 32) : (wordOf n).toNat = n := by
  rw [wordOf, BitVec.toNat_ofNat, Nat.mod_eq_of_lt h]

/-! ### Queues and weights -/

theorem State.writeSower_queue (s : State) (k : Nat) (q : Fin 64) (v : Nat) :
    s.writeSower k (0x240 + q.val) v = s.writeSowQ q.val v := by
  unfold State.writeSower
  rw [if_pos (by omega), Nat.add_sub_cancel_left]

theorem State.writeSower_weight (s : State) (k : Nat) (g : Fin 8) (v : Nat) :
    s.writeSower k (0x208 + g.val) v = s.writeWeight g.val v := by
  unfold State.writeSower
  rw [if_neg (by omega), if_neg (by omega), if_neg (by omega), if_neg (by omega), if_pos (by omega), Nat.add_sub_cancel_left]

/-- A setting fits: its limit is legal and its part has room for it (R619). -/
theorem State.writeSowQ_eq (s : State) (q v : Nat) : s.writeSowQ q v =
    if 1 ≤ fieldAt v 0 9 ∧ fieldAt v 0 9 ≤ 256 ∧ s.limitSum (q < 56) q (fieldAt v 0 9) ≤ (if q < 56 then 3584 else 512) then
      s.modQue q fun x => { x with limit := fieldAt v 0 9, urg := fieldAt v 12 2, group := fieldAt v 16 3 }
    else s.modSow fun x => if q < 56 then { x with rej := satInc 255 x.rej } else { x with rejL := satInc 255 x.rejL } := by
  have hbad : (fieldAt v 0 9 = 0 || 256 < fieldAt v 0 9 || partSize (fieldQ q) < s.limitSum (fieldQ q) q (fieldAt v 0 9)) = true
      ↔ ¬ (1 ≤ fieldAt v 0 9 ∧ fieldAt v 0 9 ≤ 256
        ∧ s.limitSum (q < 56) q (fieldAt v 0 9) ≤ (if q < 56 then 3584 else 512)) := by
    simp only [Bool.or_eq_true, decide_eq_true_eq, partSize, fieldQ]
    omega
  unfold State.writeSowQ
  dsimp only
  split
  next h =>
    rw [if_neg (hbad.1 h)]
    simp only [fieldQ, decide_eq_true_eq]
  next h => rw [if_pos (not_not.1 (mt hbad.2 h))]

theorem State.writeWeight_eq (s : State) (g : Nat) (w : Byte) : s.writeWeight g w.toNat = s.modSow fun x =>
    { x with weights := vset x.weights g (if w = 0#8 then 1 else w.toNat), ptrF := 0, ptrL := 0
             defF := Vector.replicate 8 0, defL := Vector.replicate 8 0 } := by
  have hw : (if w.toNat % 256 = 0 then 1 else w.toNat % 256) = if w = 0#8 then 1 else w.toNat := by
    have := w.isLt
    rw [Nat.mod_eq_of_lt this]
    by_cases h0 : w = 0#8
    · subst h0
      rfl
    · rw [if_neg h0, if_neg fun h : w.toNat = 0 => h0 (BitVec.eq_of_toNat_eq h)]
  unfold State.writeWeight
  rw [hw]
  rfl

/-! ### SOW_CTL -/

/-- What a cancelled prefetch leaves of a field that neither the trace, nor a core, a thread, the store or a statistic touches. -/
theorem State.unprefetch_frame {γ : Type} (π : State → γ) (htrace : ∀ (u : State) (k e t q f d : Nat), π (u.trace k e t q f d) = π u)
    (hcore : ∀ (u : State) (k : Nat) (f : Core → Core), π (u.modCore k f) = π u)
    (hth : ∀ (u : State) (t : Nat) (f : Thread → Thread), π (u.modTh t f) = π u)
    (hstore : ∀ (u : State) (f : List Item → List Item), π (u.modSow fun w => { w with store := f w.store }) = π u)
    (hraised : ∀ (u : State) (q : Nat), π (u.raised q) = π u) (s : State) (k at_ cause : Nat) (discard : Bool) :
    π (s.unprefetch k at_ cause discard) = π s := by
  unfold State.unprefetch
  split
  · rfl
  · dsimp only
    split
    · exact (hth ..).trans ((hcore ..).trans (htrace ..))
    · split
      · split
        · exact (hth ..).trans ((hcore ..).trans (htrace ..))
        · exact (hraised ..).trans ((hstore ..).trans ((hth ..).trans ((hcore ..).trans (htrace ..))))
      · exact (hth ..).trans ((hcore ..).trans (htrace ..))

@[simp] theorem State.unprefetch_dispatch (s : State) (k at_ cause : Nat) (discard : Bool) :
    (s.unprefetch k at_ cause discard).sow.dispatch = s.sow.dispatch :=
  State.unprefetch_frame (fun u => u.sow.dispatch) (fun u k e t q f d => by rw [State.trace_eq]) (fun _ _ _ => rfl) (fun _ _ _ => rfl)
    (fun _ _ => rfl) (fun u q => by unfold State.raised; split <;> rfl) s k at_ cause discard

@[simp] theorem State.unprefetch_preempt (s : State) (k at_ cause : Nat) (discard : Bool) :
    (s.unprefetch k at_ cause discard).sow.preempt = s.sow.preempt :=
  State.unprefetch_frame (fun u => u.sow.preempt) (fun u k e t q f d => by rw [State.trace_eq]) (fun _ _ _ => rfl) (fun _ _ _ => rfl)
    (fun _ _ => rfl) (fun u q => by unfold State.raised; split <;> rfl) s k at_ cause discard

/-- Core `k`'s prefetch is cancelled by a write of SOW_CTL: dispatch ends, or the core begins to be a preempt core (R629, R633). -/
def State.ctlCancels (s : State) (on : Bool) (mask : BitVec 6) (k : Nat) : Bool :=
  (s.sow.dispatch && !on) || (mask.getLsbD k && !s.sow.preempt.getLsbD k)

/-- The prefetches that a write of SOW_CTL cancels have been cancelled. -/
def State.ctlCancelled (s : State) (at_ : Nat) (on : Bool) (mask : BitVec 6) : State :=
  (List.range 6).foldl (fun u k => if s.ctlCancels on mask k then u.unprefetch k at_ 2 false else u) s

theorem State.foldl_ctlCancels (s : State) (at_ : Nat) (on : Bool) (mask : BitVec 6) (l : List Nat) (u : State)
    (hd : u.sow.dispatch = s.sow.dispatch) (hp : u.sow.preempt = s.sow.preempt) :
    l.foldl (fun u k => if u.ctlCancels on mask k then u.unprefetch k at_ 2 false else u) u
      = l.foldl (fun u k => if s.ctlCancels on mask k then u.unprefetch k at_ 2 false else u) u := by
  induction l generalizing u with
  | nil => rfl
  | cons k l ih =>
    have hc : u.ctlCancels on mask k = s.ctlCancels on mask k := by rw [State.ctlCancels, hd, hp, State.ctlCancels]
    rw [List.foldl_cons, List.foldl_cons, hc]
    split
    · exact ih _ (by simp [hd]) (by simp [hp])
    · exact ih _ hd hp

/-- SOW_CTL as it is written (R627, R629, R633). -/
theorem State.writeSowCtl_eq (s : State) (at_ : Nat) (mode on : Bool) (mask : BitVec 6) :
    s.writeSowCtl at_ (wordOf (sowCtlOf mode on mask)).toNat = (s.ctlCancelled at_ on mask).modSow fun w =>
      { w with affinity := mode, dispatch := on, preempt := mask, ptrF := 0, ptrL := 0
               defF := Vector.replicate 8 0, defL := Vector.replicate 8 0 } := by
  have hmask := mask.isLt
  have hmode := bitNat_le mode
  have hon := bitNat_le on
  have hn : (wordOf (sowCtlOf mode on mask)).toNat = sowCtlOf mode on mask := wordOf_toNat_of_lt (by rw [sowCtlOf]; omega)
  have h0 : bitAt (sowCtlOf mode on mask) 0 = mode := by
    have : sowCtlOf mode on mask / 2 ^ 0 % 2 = bitNat mode := by rw [sowCtlOf]; omega
    rw [bitAt, this]
    cases mode <;> rfl
  have h1 : bitAt (sowCtlOf mode on mask) 1 = on := by
    have : sowCtlOf mode on mask / 2 ^ 1 % 2 = bitNat on := by rw [sowCtlOf]; omega
    rw [bitAt, this]
    cases on <;> rfl
  have h8 : BitVec.ofNat 6 (fieldAt (sowCtlOf mode on mask) 8 6) = mask := by
    refine BitVec.eq_of_toNat_eq ?_
    rw [BitVec.toNat_ofNat, fieldAt, sowCtlOf]
    omega
  rw [hn]
  unfold State.writeSowCtl
  simp only [h0, h1, h8]
  rw [State.ctlCancelled, ← State.foldl_ctlCancels s at_ on mask _ s rfl rfl]
  rfl

/-- Where nothing is switched, nothing is cancelled. -/
theorem State.ctlCancelled_same (s : State) (at_ : Nat) : s.ctlCancelled at_ s.sow.dispatch s.sow.preempt = s := by
  refine List.foldl_fixed' (fun k => if_neg ?_) _
  simp [State.ctlCancels]

/-- A cancelled prefetch stands by no longer. -/
theorem State.ctlCancelled_standby (s : State) (at_ : Nat) {on : Bool} {mask : BitVec 6} {k : Fin 6}
    (h : s.ctlCancels on mask k.val = true) : ((s.ctlCancelled at_ on mask).core k.val).standby = none := by
  refine foldl_reaches (P := fun u : State => (u.core k.val).standby = none) (List.mem_range.2 k.isLt) (fun u => ?_)
    (fun j _ u hu => ?_) s
  · rw [if_pos h, State.unprefetch_standby, if_pos rfl]
  · split
    · rw [State.unprefetch_standby, hu, ite_self]
    · exact hu

theorem State.writeSower_ctl (s : State) (k v : Nat) : s.writeSower k 0x200 v = s.writeSowCtl k v := rfl

/-- Settles O32: each command writes its port, and each port does what its lemma says. -/
theorem sowerPorts : Obligations.SowerPorts := by
  intro s who q v g w b mask d
  have hctl {mode on : Bool} {m : BitVec 6} {x : State → Nat} (h : Reaches s who 0x200 true) (hx : x d = sowCtlOf mode on m) :
      goOn (s.wroteOf who 0x200 x) = .next ((d.ctlCancelled (coreOfWho who) on m).modSow fun w =>
        { w with affinity := mode, dispatch := on, preempt := m, ptrF := 0, ptrL := 0
                 defF := Vector.replicate 8 0, defL := Vector.replicate 8 0 }) := by
    rw [h.wroteOf_field (by decide) (by decide), hx, State.writeSower_ctl, State.writeSowCtl_eq]
    rfl
  refine ⟨fun h => ?_, fun h => ?_, fun h => ?_, fun h => ?_, fun h => ?_⟩
  · intro g fits
    have hcross : d.crossed (coreOfWho who) (0x240 + q.val) = g := by
      unfold g
      split
      next hq =>
        refine State.crossed_field _ (coreOfWho_lt who) ?_
        simp [fieldPort, latchPort]
        omega
      next hq =>
        refine State.crossed_latch _ ?_
        simp [latchPort]
        omega
    have hexec : exec (.sowQWrite who q v) s = .next (g.writeSowQ q.val v.toNat) := by
      change goOn (s.wrote who (0x240 + q.val) v.toNat) = _
      rw [State.wrote, h.wroteOf_sower (by omega), hcross, State.writeSower_queue, wordOf_toNat]
      rfl
    have hlimit : g.limitSum (q.val < 56) q.val (fieldAt v.toNat 0 9) = d.limitSum (q.val < 56) q.val (fieldAt v.toNat 0 9) := by
      unfold g
      split
      · rfl
      · rw [State.granted_eq]
        rfl
    rw [hexec, State.writeSowQ_eq, hlimit]
    exact ⟨fun hf => congrArg Host.Outcome.next (if_pos hf), fun hf => congrArg Host.Outcome.next (if_neg hf)⟩
  · change goOn (s.wrote who (0x208 + g.val) w.toNat) = _
    have hf : fieldPort (0x208 + g.val) = true := by
      simp [fieldPort, latchPort]
      omega
    rw [State.wrote, h.wroteOf_field (by omega) hf, State.writeSower_weight, wordOf_toNat_of_lt (by have := w.isLt; omega),
      State.writeWeight_eq]
    rfl
  · refine (hctl h rfl).trans ?_
    rw [State.ctlCancelled_same]
    rfl
  · refine ⟨_, hctl h rfl, rfl, rfl, rfl, fun hon hb k => ?_⟩
    exact State.ctlCancelled_standby d _ (by simp [State.ctlCancels, hon, hb])
  · refine ⟨_, hctl h rfl, rfl, rfl, rfl, fun k hk hno => ?_⟩
    exact State.ctlCancelled_standby d _ (by simp only [State.ctlCancels, hk, hno]; simp)

end Sys2Proof.Machine

/-! SUPPORT. The statement of the Sower's windows: flush, statistics, context window and trace. -/

namespace Sys2Proof.Machine

/-! ### Flush -/

/-- A prefetch that a flush cancels leaves the store. -/
theorem State.unprefetch_discard_store (s : State) (k at_ cause : Nat) : (s.unprefetch k at_ cause true).sow.store = s.sow.store := by
  unfold State.unprefetch
  split
  · rfl
  · dsimp only
    split
    · exact State.trace_store ..
    · split
      · exact State.trace_store ..
      · exact State.trace_store ..

/-- A flush takes the queue's items out of the store, and no others (R636). -/
theorem State.flush_store (s : State) (q at_ : Nat) : (s.flush q at_).sow.store = s.sow.store.filter fun it => it.q ≠ q := by
  unfold State.flush
  extract_lets queued slots open_ n a b c d
  have hb : b.sow.store = a.sow.store :=
    foldl_frame (fun u : State => u.sow.store) (fun u k => u.unprefetch_discard_store k at_ 1) _ _
  have hc : c.sow.store = b.sow.store := foldl_frame (fun u : State => u.sow.store) (f := fun (u : State) t => u.modTh t fun h =>
      { h with openItem := h.openItem.map fun o => { o with flushed := some (o.words.length, 0) } }) (fun _ _ => rfl) _ _
  have hd : d.sow.store = c.sow.store := by
    unfold d State.modSow
    dsimp only
    split <;> rfl
  rw [State.trace_store, hd, hc, hb]
  rfl

/-- A write of the flush port names its queue and flushes it. -/
theorem State.writeSower_flush (s : State) (k : Nat) (q : Fin 64) :
    s.writeSower k (if q.val < 56 then 0x202 else 0x3F4) (wordOf (q.val + 256)).toNat = s.flush q.val k := by
  have hn : (wordOf (q.val + 256)).toNat = q.val + 256 := wordOf_toNat_of_lt (by omega)
  have h8 : bitAt (q.val + 256) 8 = true := by
    rw [bitAt, decide_eq_true_eq]
    omega
  have hq : fieldAt (q.val + 256) 0 6 = q.val := by
    rw [fieldAt]
    omega
  rw [hn]
  split
  next h =>
    change (if bitAt (q.val + 256) 8 && fieldAt (q.val + 256) 0 6 < 56 then s.flush (fieldAt (q.val + 256) 0 6) k else s) = _
    rw [h8, hq, if_pos (by simpa using h)]
  next h =>
    change (if bitAt (q.val + 256) 8 && 56 ≤ fieldAt (q.val + 256) 0 6 then s.flush (fieldAt (q.val + 256) 0 6) k else s) = _
    rw [h8, hq, if_pos (by simpa using h)]

/-! ### Statistics -/

/-- The counts of time, free at a reading, leave the store and the memories. -/
theorem State.timed_frame (s : State) (sel : Nat) :
    (s.timed sel).mems = s.mems ∧ (s.timed sel).sow.store = s.sow.store := by
  unfold State.timed
  split
  · exact ⟨rfl, rfl⟩
  · dsimp only
    split
    · exact ⟨rfl, rfl⟩
    · split
      · exact ⟨rfl, rfl⟩
      · exact ⟨rfl, rfl⟩

/-- The selection stands in the core's own copy (R645). -/
theorem State.writeStSel_select (s : State) {k : Nat} (hk : k < 7) (sel : BitVec 7) :
    ((s.writeStSel k sel.toNat).core k).stSel = sel.toNat ∧ (s.writeStSel k sel.toNat).mems = s.mems
      ∧ (s.writeStSel k sel.toNat).sow.store = s.sow.store := by
  have hsel := sel.isLt
  have h7 : fieldAt sel.toNat 0 7 = sel.toNat := by
    rw [fieldAt]
    omega
  have h8 : bitAt sel.toNat 8 = false := by
    rw [bitAt, decide_eq_false_iff_not]
    omega
  obtain ⟨hmems, hstore⟩ := s.timed_frame sel.toNat
  unfold State.writeStSel
  dsimp only
  rw [h7, h8, if_neg Bool.false_ne_true]
  exact ⟨by rw [State.core_modCore_self _ _ _ hk], hmems, hstore⟩

theorem State.que_modQue_ne (s : State) (q n : Nat) (f : Queue → Queue) (h : q ≠ n) : (s.modQue q f).que n = s.que n := by
  rw [State.que_modQue, if_neg fun hq => h hq.1]

/-- Every count of a queue is 0 but HIGH, which is as given, and every count of a core is 0. -/
theorem State.zeroStats_spec (s : State) (high : Nat → Nat) :
    (∀ n : Fin 64, ((s.zeroStats high).que n.val).high = high n.val ∧ ((s.zeroStats high).que n.val).dispatch = 0
      ∧ ((s.zeroStats high).que n.val).waitSum = 0 ∧ ((s.zeroStats high).que n.val).waitMax = 0)
    ∧ ∀ k : Fin 7, ((s.zeroStats high).core k.val).busy = 0 ∧ ((s.zeroStats high).core k.val).idle = 0
      ∧ ((s.zeroStats high).core k.val).switches = 0 ∧ ((s.zeroStats high).core k.val).prefetches = 0
      ∧ ((s.zeroStats high).core k.val).unprefetches = 0 ∧ ((s.zeroStats high).core k.val).preempts = 0 := by
  unfold State.zeroStats
  refine ⟨fun n => ?_, fun k => ?_⟩
  · refine foldl_reaches (P := fun u : State => (u.que n.val).high = high n.val ∧ (u.que n.val).dispatch = 0
      ∧ (u.que n.val).waitSum = 0 ∧ (u.que n.val).waitMax = 0) (List.mem_range.2 n.isLt) (fun u => ?_) (fun j _ u hu => ?_) _
    · rw [State.que_modQue_self _ _ _ n.isLt]
      exact ⟨rfl, rfl, rfl, rfl⟩
    · by_cases hj : j = n.val
      · rw [hj, State.que_modQue_self _ _ _ n.isLt]
        exact ⟨rfl, rfl, rfl, rfl⟩
      · rw [State.que_modQue_ne _ _ _ _ hj]
        exact hu
  · have hfold := foldl_frame (fun u : State => u.core k.val)
      (f := fun (x : State) q => x.modQue q fun y => { y with high := high q, dispatch := 0, waitSum := 0, waitMax := 0 })
      (fun _ _ => rfl) (List.range 64) (s.modSow fun w => { w with cores := w.cores.map fun c =>
        { c with busy := 0, idle := 0, switches := 0, prefetches := 0, unprefetches := 0, preempts := 0 } })
    rw [hfold]
    simp [State.core, State.modSow, vget]

theorem State.timed_stSel (s : State) (sel k : Nat) : ((s.timed sel).core k).stSel = (s.core k).stSel := by
  unfold State.timed
  split
  · rfl
  · dsimp only
    split
    · rfl
    · split
      · rw [State.core_modCore]
        split <;> rfl
      · rfl

/-- CLEAR returns the counts to 0 and HIGH to the depth (R645). -/
theorem State.writeStSel_clear (s : State) {k sel : Nat} (h : sel < 128) : ∃ u : State,
    s.writeStSel k (sel + 256) = u.zeroStats s.depth := by
  have h7 : fieldAt (sel + 256) 0 7 = sel := by
    rw [fieldAt]
    omega
  have h8 : bitAt (sel + 256) 8 = true := by
    rw [bitAt, decide_eq_true_eq]
    omega
  have hdepth : (s.timed sel).depth = s.depth := by
    funext q
    rw [State.depth, (s.timed_frame sel).2, State.depth]
  unfold State.writeStSel
  dsimp only
  rw [h7, h8, if_pos rfl]
  unfold State.clearStats
  rw [← hdepth]
  exact ⟨_, rfl⟩

/-! ### The context window -/

/-- A read of the context window moves its core to the next word (R648). -/
theorem State.readSower_context (s : State) (k : Nat) : (s.readSower k 0x219).2
    = s.modCore k fun c => { c with cxWord := if 45 ≤ c.cxWord then 0 else c.cxWord + 1 } := by
  change (s.modCore k fun c => { c with cxWord := nextWord (s.core k).cxWord }) = _
  rfl

/-- A read of LC's window moves it to its next word. -/
theorem State.readSower_lcContext (s : State) (k : Nat) : (s.readSower k 0x3F2).2
    = s.modSow fun w => { w with lcxWord := if 45 ≤ w.lcxWord then 0 else w.lcxWord + 1 } := rfl

/-- A write of a register's word through the window, of a thread that neither runs nor stands by, writes it (R648). -/
theorem State.writeContext_reg (s : State) {t i : Nat} (v : Word) (h1 : 1 ≤ i) (h32 : i < 32) (hr : (s.th t).st ≠ .running)
    (hs : (s.th t).st ≠ .standby) : s.writeContext t i v = s.modTh t fun h => { h with regs := vset h.regs i v } := by
  have hno : ((s.th t).st = .running || (s.th t).st = .standby || i = 0) = true ↔ False := by
    simp [hr, hs, Nat.ne_of_gt h1]
  unfold State.writeContext
  rw [if_neg (hno.1 ·)]
  simp only [if_pos h32]

theorem State.writeSower_context (s : State) (k : Nat) (v : Word) (hi : 1 ≤ (s.core k).cxWord) (h32 : (s.core k).cxWord < 32)
    (ht : (s.core k).cxTid < 120) (hr : (s.th (s.core k).cxTid).st ≠ .running) (hs : (s.th (s.core k).cxTid).st ≠ .standby) :
    s.writeSower k 0x219 v.toNat = ((s.modTh (s.core k).cxTid fun h => { h with regs := vset h.regs (s.core k).cxWord v }).modCore k
      fun c => { c with cxWord := nextWord (s.core k).cxWord }) := by
  change (s.contextAccess k false (some (wordOf v.toNat))).2 = _
  rw [wordOf_toNat, State.contextAccess]
  simp only [Bool.false_eq_true, if_false, if_pos ht, s.writeContext_reg v hi h32 hr hs]

/-! ### The trace ports -/

/-- TRACE clear writes back what SOW_TR_CTL reads, with bit 9: it empties the trace. -/
theorem State.writeSower_traceClear (s : State) (k : Nat) : (s.writeSower k 0x220 (s.readTrCtl + 512)).sow.trace = []
    ∧ (s.writeSower k 0x220 (s.readTrCtl + 512)).sow.trMissed = 0
    ∧ (s.writeSower k 0x220 (s.readTrCtl + 512)).sow.store = s.sow.store
    ∧ (s.writeSower k 0x220 (s.readTrCtl + 512)).mems = s.mems := by
  have h9 : bitAt (s.readTrCtl + 512) 9 = true := by
    have hc := s.sow.trCores.isLt
    have hw := bitNat_le s.sow.trWrap
    rw [bitAt, decide_eq_true_eq, State.readTrCtl]
    omega
  change (s.writeTrCtl (s.readTrCtl + 512)).sow.trace = [] ∧ (s.writeTrCtl (s.readTrCtl + 512)).sow.trMissed = 0
    ∧ (s.writeTrCtl (s.readTrCtl + 512)).sow.store = s.sow.store ∧ (s.writeTrCtl (s.readTrCtl + 512)).mems = s.mems
  unfold State.writeTrCtl
  simp only [h9, if_true]
  exact ⟨rfl, rfl, rfl, rfl⟩

/-- Settles O33: each port's own lemma, in the state in which the side's earlier port writes have taken effect. -/
theorem sowerWindows : Obligations.SowerWindows := by
  intro s who q sel x d c
  have hkc := coreOfWho_lt who
  refine ⟨fun h => ⟨_, rfl, ?_⟩, fun h => ⟨_, rfl, ?_⟩, fun h hc => ⟨_, rfl, ?_⟩, fun h => ?_, fun h => ?_,
    fun h h1 h32 ht hr hs => ⟨_, rfl, ?_⟩, fun h => ⟨_, rfl, ?_⟩, fun h => ?_⟩
  · have hp : 0x200 ≤ (if q.val < 56 then 0x202 else 0x3F4) ∧ (if q.val < 56 then 0x202 else 0x3F4) < 0x400 := by split <;> omega
    rw [State.wrote, h.wroteOf_sower hp, State.writeSower_flush, State.flush_store, State.crossed_sow]
    exact ⟨fun it hit => of_decide_eq_true (List.mem_filter.1 hit).2,
      fun it hit hq => List.mem_filter.2 ⟨hit, decide_eq_true hq⟩⟩
  · rw [State.wrote, h.wroteOf_field (by omega) rfl, wordOf_toNat_of_lt (by have := sel.isLt; omega)]
    exact d.writeStSel_select hkc sel
  · rw [h.wroteOf_field (by omega) rfl, wordOf_toNat_of_lt (by have : (d.core (coreOfWho who)).stSel < 128 := hc; change (d.core (coreOfWho who)).stSel + 256 < _; omega)]
    obtain ⟨u, hu⟩ := d.writeStSel_clear (k := coreOfWho who) hc
    have hw : d.writeSower (coreOfWho who) 0x210 ((d.core (coreOfWho who)).stSel + 256) = u.zeroStats d.depth := hu
    rw [hw]
    exact u.zeroStats_spec d.depth
  · change goOn (s.didRead who 0x219) = _
    rw [h.didRead_sower (by omega), State.crossed_field _ hkc rfl, State.readSower_context]
    rfl
  · change goOn (s.didRead .lc 0x3F2) = _
    rw [h.didRead_sower (by omega), State.readSower_lcContext, show coreOfWho .lc = 6 from rfl, State.crossed_lc]
    rfl
  · change vget ((s.wrote who 0x219 x.toNat).th _).regs _ = x ∧ (s.wrote who 0x219 x.toNat).mems = _
    rw [State.wrote, h.wroteOf_field (by omega) rfl, wordOf_toNat, State.writeSower_context d (coreOfWho who) x h1 h32 ht hr hs]
    refine ⟨?_, rfl⟩
    rw [State.th_modCore, State.th_modTh_self _ _ _ (Nat.lt_trans ht (by omega))]
    exact vget_vset_self _ _ _ h32
  · rw [h.wroteOf_field (by omega) rfl, wordOf_toNat_of_lt]
    · exact d.writeSower_traceClear (coreOfWho who)
    · have hc := (s.drained who).sow.trCores.isLt
      have hw := bitNat_le (s.drained who).sow.trWrap
      have hp := bitNat_le (s.drained who).sow.trPause
      rw [State.readTrCtl]
      omega
  · change goOn (s.didRead who 0x223) = _
    rw [h.didRead_sower (by omega), State.crossed_field _ hkc rfl]
    rfl

end Sys2Proof.Machine

/-! SUPPORT. The statements of the end of service, of the choice after it, and of dispatch, prefetch and preemption. -/

namespace Sys2Proof.Machine

/-! ### Parts that stand -/

section
variable (s : State) (k : Nat)

@[simp] theorem State.freeCore_store : (s.freeCore k).sow.store = s.sow.store := by rw [State.freeCore_eq]
@[simp] theorem State.freeCore_fenced : (s.freeCore k).sow.fenced = s.sow.fenced := by rw [State.freeCore_eq]
@[simp] theorem State.freeCore_nextAge : (s.freeCore k).sow.nextAge = s.sow.nextAge := by rw [State.freeCore_eq]

end

/-- A commit that is asked for touches the open handles and the journal. -/
@[simp] theorem State.reqCommit_sow (s : State) (kk seq : Nat) : (s.reqCommit kk seq).sow = s.sow := by
  unfold State.reqCommit State.request
  split
  · split
    · rfl
    · split <;> rfl
  · rfl

@[simp] theorem State.commitX_sow (s : State) : s.commitX.sow = s.sow :=
  foldl_frame State.sow (fun u h => by split <;> [split <;> simp; rfl]) _ _

@[simp] theorem State.commitX_th (s : State) (t : Nat) : s.commitX.th t = s.th t := by rw [State.th, State.commitX_sow, State.th]

/-- A choice moves the pointer and the deficits of its part. -/
theorem State.choose_frame (s : State) (k : Nat) : (s.choose k).2 = { s with sow := { s.sow with
    ptrL := (s.choose k).2.sow.ptrL, defL := (s.choose k).2.sow.defL, ptrF := (s.choose k).2.sow.ptrF, defF := (s.choose k).2.sow.defF } } := by
  unfold State.choose
  dsimp only
  split
  · rfl
  · split
    · rfl
    · split <;> rfl

@[simp] theorem State.choose_th (s : State) (k t : Nat) : (s.choose k).2.th t = s.th t := by rw [State.choose_frame]; rfl
@[simp] theorem State.choose_core (s : State) (k j : Nat) : (s.choose k).2.core j = s.core j := by rw [State.choose_frame]; rfl
@[simp] theorem State.choose_store (s : State) (k : Nat) : (s.choose k).2.sow.store = s.sow.store := by rw [State.choose_frame]

/-! ### The end of service (R575 to R577) -/

/-- The thread once its item's service has ended (R576). -/
theorem State.endService_th (s : State) {t : Nat} (ht : t < 128) : (s.endService t).th t = { (s.th t).settle with
    st := .idle, item := none, yieldAge := none, resumed := false, prev := (s.th t).pc, pc := nextPc (s.th t).pc } :=
  State.th_modTh_self _ _ _ ht

/-- DONE: the thread is IDLE without an item, and the core is free (R576). -/
theorem State.done_spec (u : State) (k t : Nat) :
    (u.done k t).th t = (u.endService t).th t ∧ ((u.done k t).core k).run = none ∧ (u.done k t).sow.store = u.sow.store
      ∧ (u.done k t).sow.fenced = u.sow.fenced ∧ (u.done k t).mems = u.mems := by
  unfold State.done
  refine ⟨?_, ?_, ?_, ?_, ?_⟩
  · rw [State.freeCore_th, State.trace_th]
  · rw [State.freeCore_run, if_pos rfl]
  · rw [State.freeCore_store, State.trace_store]
    rfl
  · rw [State.freeCore_fenced, State.trace_fenced]
    rfl
  · rw [State.freeCore_mems, State.trace_mems]
    rfl

/-- YIELD: the thread is READY with a new age, and the core is free (R577). -/
theorem State.yield_spec (u : State) {k t : Nat} (ht : t < 128) : (u.yield k t).th t = { (u.th t).settle with
      st := .ready, yieldAge := some u.sow.nextAge, prev := (u.th t).pc, pc := nextPc (u.th t).pc }
    ∧ (u.yield k t).sow.nextAge = u.sow.nextAge + 1 ∧ ((u.yield k t).core k).run = none := by
  unfold State.yield
  refine ⟨?_, ?_, ?_⟩
  · rw [State.freeCore_th, State.trace_th, State.th_modTh_self _ _ _ ht]
    rfl
  · rw [State.freeCore_nextAge, State.trace_nextAge]
    rfl
  · rw [State.freeCore_run, if_pos rfl]

/-- A pair that is taken is with its thread, in the state given. -/
theorem State.takePair_th (s : State) (p : Pair) (hp : p.tid < 128) (st : TState) : (s.takePair p st).th p.tid = { s.th p.tid with
    st := st, item := p.item, resumed := if p.held then (s.th p.tid).resumed else false } := by
  unfold State.takePair
  dsimp only
  rw [State.th_modTh_self _ _ _ hp]
  split <;> rfl

theorem State.takePair_core (s : State) (p : Pair) (st : TState) (j : Nat) : (s.takePair p st).core j = s.core j := by
  unfold State.takePair
  dsimp only
  split <;> rfl

/-- A new item that is taken leaves the store. -/
theorem State.takePair_store {s : State} {p : Pair} {it : Item} (hheld : p.held = false) (hit : p.item = some it) (st : TState) :
    (s.takePair p st).sow.store = s.sow.store.filter fun x => x.age ≠ it.age := by
  unfold State.takePair
  rw [hheld, hit]
  rfl

theorem State.enterBuffer_sow (s : State) (t : Nat) (it : Item) : (s.enterBuffer t it).sow = s.sow := by
  unfold State.enterBuffer State.ownEnter
  split
  · dsimp only
    split <;> rfl
  · rfl

theorem State.th_of_sow {s v : State} (h : v.sow = s.sow) (t : Nat) : v.th t = s.th t := by rw [State.th, h, State.th]
theorem State.core_of_sow {s v : State} (h : v.sow = s.sow) (k : Nat) : v.core k = s.core k := by rw [State.core, h, State.core]

/-- A thread that keeps its core runs with its new item (R575). -/
theorem State.keepCore_th (s : State) {k : Nat} {p : Pair} (hp : p.tid < 128) : (s.keepCore k p.tid p).th p.tid =
    Thread.giveWords { s.th p.tid with st := .running, item := p.item, resumed := true, lastCore := k } p.item := by
  have hth : ((s.takePair p .running).modTh p.tid fun h => Thread.giveWords { h with lastCore := k, resumed := true } p.item).th p.tid
      = Thread.giveWords { s.th p.tid with st := .running, item := p.item, resumed := true, lastCore := k } p.item := by
    rw [State.th_modTh_self _ _ _ hp, State.takePair_th _ _ hp]
  unfold State.keepCore
  dsimp only
  split
  · exact hth
  next it hit =>
    rw [State.trace_th, State.th_of_sow (State.enterBuffer_sow ..)]
    split
    · rw [State.th_modQue, hth]
    · exact hth

/-! ### NEXT -/

/-- NEXT ends service as DONE does, unless the chosen pair names its thread and no standby pair waits (R575). -/
theorem State.next_done {u : State} {k t : Nat} (h : (u.core k).standby.isSome = true ∨ u.servable k = false
    ∨ ∀ p, ((u.endService t).choose k).1 = some p → p.tid ≠ t ∨ p.held = true) : u.next k t = u.done k t := by
  unfold State.next
  dsimp only
  split
  · rfl
  next hfree =>
    rw [Bool.or_eq_true, not_or, Bool.not_eq_true, Bool.not_eq_true, Bool.not_eq_false'] at hfree
    obtain ⟨hstandby, hserv⟩ := hfree
    split
    next p s2 hc =>
      refine if_neg ?_
      rcases h with h | h | h
      · exact absurd h (by simp [hstandby])
      · exact absurd h (by simp [hserv])
      · rcases h p (by rw [hc]) with h | h <;> simp [h]
    · rfl

theorem State.next_keepsCore {u : State} {k t : Nat} {p : Pair} (hslot : (u.core k).standby = none) (hserv : u.servable k = true)
    (hp : ((u.endService t).choose k).1 = some p) (ht : p.tid = t) (hheld : p.held = false) :
    u.next k t = ((u.endService t).choose k).2.keepCore k t p := by
  unfold State.next
  dsimp only
  rw [hslot, hserv, if_neg (by decide)]
  split
  next p' s2 hc =>
    rw [hc] at hp
    cases hp
    rw [hc, if_pos (by simp [ht, hheld])]
  next hc =>
    rw [hc] at hp
    cases hp

theorem Issues.next {s u : State} {k : CoreId} {t : Nat} (h : Issues s k t u) :
    exec (.next k) s = .next (u.next k.val t).commitX := by
  change dispatching (Machine.oluique s k always fun s t => .left (s.next k.val t)) = _
  rw [h.left rfl]
  rfl

/-! ### FLOWSEIZE -/

/-- The interlocked result of FLOWSEIZE: 1 where it has unfenced the flow, otherwise 0 (R578). -/
def Inter.seized (rd : Reg) (pc : Nat) (found : Bool) : Inter :=
  { unit := .seize, rd := rd, lo := if found then 1#32 else 0#32, hi := none, dc := none, dinv := false, flags := 0#5, pc := pc }

theorem State.flowSeize_spec (s : State) (k t f : Nat) : ∃ v, s.flowSeize k t f
      = (if (s.sow.fenced.find? fun p => p.1 = f).isSome then 1#32 else 0#32, v)
    ∧ v.sow.fenced = (if (s.sow.fenced.find? fun p => p.1 = f).isSome then s.sow.fenced.filter fun p => p.1 ≠ f else s.sow.fenced)
    ∧ (∀ j, v.th j = s.th j) := by
  unfold State.flowSeize
  split
  next p hp =>
    rw [hp]
    exact ⟨_, rfl, State.trace_fenced .., fun j => State.trace_th ..⟩
  next hp =>
    rw [hp]
    exact ⟨_, rfl, rfl, fun _ => rfl⟩

/-- Settles O26: `done_spec`, `yield_spec`, the two cases of NEXT, and FLOWSEIZE's result. -/
theorem serviceOfItems : Obligations.ServiceOfItems := by
  intro s u k t rd ra h ht th
  have hdone : exec (.done k) s = .next (u.done k.val t) := h.left rfl
  obtain ⟨hth, hrun, hstore, hfenced, hmems⟩ := u.done_spec k.val t
  rw [State.endService_th _ ht] at hth
  obtain ⟨hyield, hage, hfree⟩ := u.yield_spec (k := k.val) ht
  refine ⟨⟨_, hdone, ?_⟩, ⟨_, h.left rfl, ?_⟩, fun hc => ⟨_, hdone, ?_⟩, fun p hslot hserv hp htid hheld _ => ⟨_, h.next, ?_⟩,
    fun p hslot hserv hp hother => ⟨_, hdone, ?_⟩, fun x hplot hx => ?_, fun hplot => ?_⟩
  · rw [hth]
    exact ⟨rfl, rfl, rfl, rfl, hrun, hstore, hfenced, hmems⟩
  · rw [hyield]
    exact ⟨rfl, rfl, rfl, rfl, hage, hfree⟩
  · rw [h.next, State.next_done]
    rcases hc with hc | hc | hc
    · exact .inl hc
    · exact .inr (.inl hc)
    · exact .inr (.inr fun p hp => absurd (hc.symm.trans hp) (by simp))
  · subst htid
    rw [State.commitX_th, State.next_keepsCore hslot hserv hp rfl hheld, State.keepCore_th _ ht, State.choose_th, State.endService_th _ ht]
    exact ⟨rfl, rfl, rfl⟩
  · rw [h.next, State.next_done (.inr (.inr fun p' hp' => ?_))]
    cases hp.symm.trans hp'
    exact hother
  · obtain ⟨v, hv, hfen, hvth⟩ := u.flowSeize_spec k.val t (fieldAt (th.reg ra).toNat 0 10)
    rw [hx] at hv hfen
    have hexec : exec (.flowseize k rd ra) s = .next (v.executed t fun h => h.interlock (.seized rd h.pc x.isSome)) := by
      change Machine.oluique s k _ _ = _
      rw [h.oluique (by simp [hplot]), hv, State.executed, hvth]
      rfl
    refine ⟨_, .seized rd th.pc x.isSome, hexec, ?_, rfl, rfl, hfen⟩
    rw [State.executed, State.goPc, State.th_modTh_self _ _ _ ht, State.th_modTh_self _ _ _ ht, hvth]
    rfl
  · refine ⟨rWord 0x24 rd ra 0 0 3, rfl, h.undefined (by simp [hplot])⟩

end Sys2Proof.Machine

/-! SUPPORT. The statement of dispatch, prefetch and preemption. -/

namespace Sys2Proof.Machine

/-! ### A pair starts (R492, R628) -/

theorem State.finishWait_core (s : State) (t j : Nat) : (s.finishWait t).core j = s.core j := by
  unfold State.finishWait
  dsimp only
  split
  · split
    · split <;> rfl
    · split
      · split <;> rfl
      · split
        · rw [State.visible_core]
          rfl
        · rfl
  · rfl

theorem State.th_modSow_dropped (s : State) (j : Nat) : (s.modSow fun w => { w with dropped := satInc 65535 w.dropped }).th j = s.th j := rfl

/-- The end of a wait touches the wait, the addresses and the open item of its thread. -/
theorem State.finishWait_th (s : State) {t : Nat} (ht : t < 128) : ∃ (wait : Option WaitPost) (pc prev : Nat) (o : Option OpenItem),
    (s.finishWait t).th t = { s.th t with wait := wait, pc := pc, prev := prev, openItem := o } := by
  unfold State.finishWait
  dsimp only
  have hth (u : State) (f : Thread → Thread) : (u.modTh t f).th t = f (u.th t) := State.th_modTh_self _ _ _ ht
  split
  · split
    · split <;> exact ⟨_, _, _, _, by rw [hth, hth]⟩
    · split
      · split
        · exact ⟨_, _, _, _, by rw [State.th_modSow_dropped, hth, hth]⟩
        · exact ⟨_, _, _, _, by rw [hth, hth]⟩
      · split
        · exact ⟨_, _, _, _, by rw [State.visible_th, hth, hth]⟩
        · exact ⟨_, _, _, _, by rw [hth, hth]⟩
  · exact ⟨_, _, _, _, rfl⟩

theorem State.finishWait_none {s : State} {t : Nat} (h : (s.th t).wait = none) : s.finishWait t = s := by
  unfold State.finishWait
  dsimp only
  rw [h]

/-- A pair that starts runs on its core, with its item's words in g28 to g31; the store stands where its thread did
not wait. -/
theorem State.startPair_spec (s : State) {k : Nat} (hk : k < 7) {p : Pair} (hp : p.tid < 128) (sb : Bool) :
    let v := s.startPair k p sb
    (v.core k).run = some p.tid ∧ (v.core k).standby = (if sb then none else (s.core k).standby)
      ∧ (v.th p.tid).st = .running ∧ (v.th p.tid).lastCore = k ∧ (v.th p.tid).item = (s.th p.tid).item
      ∧ (v.th p.tid).regs = (Thread.giveWords (s.th p.tid) p.item).regs
      ∧ ((s.th p.tid).wait = none → v.sow.store = s.sow.store) := by
  unfold State.startPair
  extract_lets first a b c hinge d e f v
  have hd : d.sow = c.sow := by unfold d; split <;> rfl
  have he {γ : Type} (π : State → γ) (hq : ∀ (u : State) (q : Nat) (f : Queue → Queue), π (u.modQue q f) = π u)
      (hbuf : ∀ (u : State) (it : Item), π (u.enterBuffer p.tid it) = π u) : π e = π d := by
    unfold e
    split
    · dsimp only
      split
      · rw [hbuf]
        split
        · exact hq ..
        · rfl
      · split
        · exact hq ..
        · rfl
    · rfl
  have heth (j : Nat) : e.th j = d.th j := he (fun u => u.th j) (fun _ _ _ => rfl) fun _ _ => State.th_of_sow (State.enterBuffer_sow ..) j
  have hecore (j : Nat) : e.core j = d.core j :=
    he (fun u => u.core j) (fun _ _ _ => rfl) fun _ _ => State.core_of_sow (State.enterBuffer_sow ..) j
  have hestore : e.sow.store = d.sow.store :=
    he (fun u => u.sow.store) (fun _ _ _ => rfl) fun _ _ => congrArg Sower.store (State.enterBuffer_sow ..)
  have hcore (j : Nat) : v.core j = c.core j := by
    unfold v f
    rw [State.finishWait_core, State.trace_core, hecore, State.core_of_sow hd]
  have hth : f.th p.tid = a.th p.tid := by unfold f; rw [State.trace_th, heth, State.th_of_sow hd]; rfl
  have ha : a.th p.tid = _ := State.th_modTh_self _ _ _ hp
  obtain ⟨wait, pc, prev, o, hfin⟩ := f.finishWait_th hp
  rw [hcore, show v.th p.tid = _ from hfin, hth, ha]
  have hck : c.core k = _ := State.core_modCore_self _ _ _ hk
  rw [hck]
  refine ⟨rfl, rfl, rfl, rfl, rfl, rfl, fun hw => ?_⟩
  rw [show v = f from State.finishWait_none (by rw [hth, ha]; exact hw)]
  unfold f
  rw [State.trace_store, hestore, hd]
  rfl

/-! ### Dispatch and prefetch (R625, R628) -/

theorem State.dispatchOn_chosen {s s' : State} {k : Nat} {p : Pair} (hserv : s.servable k = true) (hrun : (s.core k).run = none)
    (hslot : (s.core k).standby = none) (hc : s.choose k = (some p, s')) :
    s.dispatchOn k = (s'.takePair p .running).startPair k p false := by
  unfold State.dispatchOn
  rw [hserv, hrun, if_neg (by decide), hslot]
  dsimp only
  rw [hc]

theorem State.dispatchOn_standby {s : State} {k t : Nat} (hserv : s.servable k = true) (hrun : (s.core k).run = none)
    (hslot : (s.core k).standby = some t) : s.dispatchOn k = s.startPair k (s.standbyPair t) true := by
  unfold State.dispatchOn
  rw [hserv, hrun, if_neg (by decide), hslot]

/-- The chosen pair stands in the slot, and its thread stands by (R628). -/
theorem State.fillSlot_spec {s s' : State} {k : Nat} (hk : k < 7) {p : Pair} (hp : p.tid < 128) (hc : s.choose k = (some p, s')) :
    let v := s.fillSlot k
    (v.core k).standby = some p.tid ∧ (v.th p.tid).st = .standby ∧ (v.th p.tid).item = p.item
      ∧ (v.core k).run = (s.core k).run ∧ v.sow.store = (s'.takePair p .standby).sow.store := by
  have hs' : s' = (s.choose k).2 := by rw [hc]
  unfold State.fillSlot
  rw [hc]
  dsimp only
  refine ⟨?_, ?_, ?_, ?_, ?_⟩
  · rw [State.trace_core, State.core_modCore_self _ _ _ hk]
  · rw [State.trace_th, State.th_modCore]
    exact congrArg Thread.st (State.takePair_th s' p hp .standby)
  · rw [State.trace_th, State.th_modCore]
    exact congrArg Thread.item (State.takePair_th s' p hp .standby)
  · rw [State.trace_core, State.core_modCore_self _ _ _ hk]
    change ((s'.takePair p .standby).core k).run = _
    rw [State.takePair_core, hs', State.choose_core]
  · rw [State.trace_store]
    rfl

/-- Where a new item is taken from the state that the choice leaves, it leaves the store. -/
theorem State.chosen_store {s s' : State} {k : Nat} {p : Pair} (hc : s.choose k = (some p, s')) (st : TState) (hheld : p.held = false)
    {it : Item} (hit : p.item = some it) : (s'.takePair p st).sow.store = s.sow.store.filter fun x => x.age ≠ it.age := by
  have hs' : s' = (s.choose k).2 := by rw [hc]
  rw [State.takePair_store hheld hit, hs', State.choose_store]

/-! ### Preemption (R630, R631) -/

/-- A cancelled pair: its thread is READY where it had run, otherwise IDLE, its item back at its place (R630). -/
theorem State.unprefetch_spec {s : State} {k t : Nat} (ht : t < 128) (hslot : (s.core k).standby = some t) (at_ cause : Nat) :
    let v := s.unprefetch k at_ cause false
    ((s.th t).resumed = true → (v.th t).st = .ready ∧ (v.th t).item = (s.th t).item ∧ v.sow.store = s.sow.store)
      ∧ ((s.th t).resumed = false → (v.th t).st = .idle ∧ (v.th t).item = none
        ∧ ∀ it, (s.th t).item = some it → v.sow.store = insertAge it s.sow.store) := by
  unfold State.unprefetch
  rw [hslot]
  dsimp only
  refine ⟨fun hr => ?_, fun hr => ?_⟩
  · rw [if_pos hr, State.th_modTh_self _ _ _ ht, State.th_modCore, State.trace_th]
    exact ⟨rfl, rfl, State.trace_store ..⟩
  · rw [hr, if_neg Bool.false_ne_true]
    split
    next it hit =>
      rw [if_neg Bool.false_ne_true]
      refine ⟨?_, ?_, fun it' hit' => ?_⟩
      · rw [State.raised_th]
        exact congrArg Thread.st (State.th_modTh_self _ _ _ ht)
      · rw [State.raised_th]
        exact congrArg Thread.item (State.th_modTh_self _ _ _ ht)
      · cases hit.symm.trans hit'
        rw [State.raised_store]
        exact congrArg (insertAge it) (State.trace_store ..)
    next hno =>
      refine ⟨?_, ?_, fun it hit => absurd (hno.symm.trans hit) (by simp)⟩
      · exact congrArg Thread.st (State.th_modTh_self _ _ _ ht)
      · exact congrArg Thread.item (State.th_modTh_self _ _ _ ht)

/-- A pair that no core can take at once (R631). -/
theorem State.arrive_cons {s : State} {cores live : List Nat} {k0 : Nat} (hlive : cores.filter s.servable = k0 :: live)
    (hpairs : (s.pairs k0).isEmpty = false) (hrun : (k0 :: live).any (fun k => (s.core k).run.isNone) = false) :
    let u := (s.pairs k0).foldl (fun m p => max m p.urg) 0
    s.arrive cores = match (if u = 3 && k0 ≠ 6 then bestSlot s.preemptCores else none) with
      | some k => s.preemptOn k
      | none =>
        match (k0 :: live).find? s.slotOpen with
        | some k => s.fillSlot k
        | none =>
          match bestSlot (s.lowerSlots (k0 :: live) u) with
          | some k => (s.unprefetch k k 0 false).fillSlot k
          | none => s := by
  intro u
  unfold State.arrive
  rw [hlive]
  dsimp only
  rw [hpairs, hrun, if_neg (by decide)] <;> rfl

/-- Settles O29: the choice is taken and starts, or stands by; the cases of `arrive`; and what a cancelled pair leaves. -/
theorem dispatchingHolds : Obligations.Dispatching := by
  refine ⟨?choice, ?standby, ?arrive, ?cancel, ?nothing⟩
  case choice =>
    intro s s' k p hserv hslot hc hp taken
    have hs' : s' = (s.choose k.val).2 := by rw [hc]
    refine ⟨fun hrun => ⟨s.dispatchOn k.val, rfl, ?_⟩, fun hrun hpre => ⟨s.fillSlot k.val, ?_, ?_⟩⟩
    · rw [State.dispatchOn_chosen hserv hrun hslot hc]
      obtain ⟨hvrun, -, hst, hlast, hitem, hregs, hstore⟩ := (s'.takePair p .running).startPair_spec k.isLt hp false
      refine ⟨hvrun, hst, hlast, ?_, fun hwait hheld it hit => ?_, fun it hit => ?_⟩
      · rw [hitem, State.takePair_th _ _ hp]
      · rw [hstore, State.chosen_store hc _ hheld hit]
        rw [State.takePair_th _ _ hp, hs', State.choose_th]
        exact hwait
      · rw [hregs, hit]
        refine ⟨?_, ?_, ?_, ?_⟩ <;> simp [Thread.giveWords, vset]
    · have hopen : s.slotOpen k.val = true := by rw [State.slotOpen, hserv, hpre, hrun, hslot]; rfl
      change goOn (if s.slotOpen k.val then s.fillSlot k.val else s) = _
      rw [hopen]
      rfl
    · obtain ⟨hslot', hst, hitem, hrun', hstore⟩ := s.fillSlot_spec k.isLt hp hc
      exact ⟨hslot', hst, hitem, hrun', fun hheld it hit => hstore.trans (State.chosen_store hc _ hheld hit)⟩
  case standby =>
    intro s k t hserv hrun hslot
    refine ⟨s.dispatchOn k.val, rfl, ?_⟩
    rw [State.dispatchOn_standby hserv hrun hslot]
    obtain ⟨hvrun, hvslot, hst, -, hitem, -⟩ := s.startPair_spec k.isLt (p := s.standbyPair t.val) t.isLt true
    exact ⟨hvrun, hvslot, hst, hitem⟩
  case arrive =>
    intro s latch k0 live hlive hpairs hrun u lower
    have hexec : exec (.preempt latch) s = .next (s.arrive (if latch then [6] else List.range 6)).commitX := rfl
    rw [hexec, State.arrive_cons hlive hpairs hrun]
    refine ⟨fun hu hk k hbest => ?_, fun hno => ?_⟩
    · rw [if_pos (by simp [u, hu, hk]), hbest]
    · have hpre : (if u = 3 && k0 ≠ 6 then bestSlot s.preemptCores else none) = none := by
        split
        next h =>
          rw [Bool.and_eq_true, decide_eq_true_eq, decide_eq_true_eq] at h
          exact (hno.resolve_left (not_not.2 h.1)).resolve_left h.2
        next => rfl
      rw [hpre]
      refine ⟨fun k hk => ?_, fun hk => ⟨fun j hj => ?_, fun hj => ?_⟩⟩
      · rw [hk]
      · rw [hk, show bestSlot _ = _ from hj]
      · rw [hk, show bestSlot _ = _ from hj]
  case cancel =>
    intro s k t at_ cause hslot v
    refine ⟨?_, State.unprefetch_spec t.isLt hslot at_ cause⟩
    rw [State.unprefetch_standby, if_pos rfl]
  case nothing =>
    intro s hempty
    change Host.Outcome.next (s.arrive (List.range 6)).commitX = _
    unfold State.arrive
    dsimp only
    split
    · rfl
    next k0 l hlive =>
      have hk0 : k0 ∈ List.range 6 := (List.mem_filter.1 (hlive ▸ List.mem_cons_self)).1
      rw [List.all_eq_true.1 hempty k0 hk0]
      rfl

end Sys2Proof.Machine

/-! SUPPORT. The statements of IN, OUT, FENCE, POST and POSTE. -/

namespace Sys2Proof.Machine

/-! ### What completes a transfer -/

/-- Where no transfer is held or waits its turn, one request is granted (R53 to R56). -/
theorem State.transfer_alone {s : State} {x : Transfer} (hw : s.hng.waiting = []) (ha : s.hng.asking = []) (hk : x.core < 7) :
    s.transfer x = s.hingeGrant x := by
  have hs : (s.modHng fun y => { y with asking := [] }) = s := by simp [State.modHng, ← ha]
  by_cases h6 : x.core = 6
  · have hr : ∀ n, robin n [] = [] := fun n => rfl
    simp [State.transfer, State.atCycle, State.heldGrants, hw, ha, State.arbitrate, hr, h6]
  · simp [State.transfer, State.atCycle, State.heldGrants, hw, ha, State.arbitrate, h6, robin_one _ x (by omega), hs]

/-- The instruction that made a transfer goes on, where its thread is not IDLE (R57). -/
theorem State.completes_ins {s : State} {x : Transfer} (hins : x.ins = true) (hst : (s.th x.tid).st ≠ .idle) :
    s.completes x = s.wentOn x.tid (s.th x.tid).pc := by
  rw [State.completes, hins, Bool.true_and, if_pos (by simpa using hst)]
  rfl

/-- A change of a thread that leaves a field of it leaves that of every thread. -/
theorem State.th_modTh_part {γ : Type} (π : Thread → γ) {f : Thread → Thread} (hf : ∀ h, π (f h) = π h) (s : State) (t j : Nat) :
    π ((s.modTh t f).th j) = π (s.th j) := by
  unfold State.th State.modTh State.modSow
  dsimp only
  rw [vmod, vget_vset]
  split
  next h => rw [hf, ← h.1]
  next => rfl

/-! ### IN and OUT (R553 to R555) -/

/-- The word of a read, of the thread that runs on its core, comes after two delay slots (R504). -/
theorem State.toReg_running {s : State} {k t : Nat} (h : (s.core k).run = some t) (rd : Nat) (v : Word) : s.toReg k t rd v =
    s.modTh t fun h => if rd = 0 then h else { h with delayed := h.delayed ++ [⟨rd, v, 2⟩] } := by
  unfold State.toReg
  by_cases h0 : rd = 0
  · simp only [if_pos h0, State.modTh, State.modSow, vmod_id]
  · simp only [if_neg h0, if_pos h, Thread.delay]

theorem State.not_clear {s : State} {k p : Nat} (h : ¬ Clear s k p) : (s.sys.fieldUp && hingePort k p) = true := by
  rw [Clear, Classical.not_imp, Classical.not_imp] at h
  rw [h.1, h.2.1]
  rfl

/-- A read that is served at once gives its word to its register. -/
theorem State.accessed_read {d : State} {k : CoreId} {t p rd : Nat} (hclear : Clear d k.val p)
    (hrun : ((d.inPort k.val t p).2.core k.val).run = some t) (hst : ((d.inPort k.val t p).2.th t).st ≠ .idle) :
    d.accessed (insAccess k.val t (.read p rd)) = ((d.inPort k.val t p).2.modTh t fun h =>
      if rd = 0 then h else { h with delayed := h.delayed ++ [⟨rd, (d.inPort k.val t p).1, 2⟩] }).wentOn t ((d.inPort k.val t p).2.th t).pc := by
  rw [Clear.accessed hclear k.isLt]
  change (((d.inPort k.val t p).2.toReg k.val t rd (d.inPort k.val t p).1).completes (insAccess k.val t (.read p rd))) = _
  rw [State.toReg_running hrun]
  have hpart {γ : Type} (π : Thread → γ) (hπ : ∀ (h : Thread) (l : List Delayed), π { h with delayed := l } = π h) :=
    State.th_modTh_part π (f := fun h => if rd = 0 then h else { h with delayed := h.delayed ++ [⟨rd, (d.inPort k.val t p).1, 2⟩] })
      (fun h => by split; exacts [rfl, hπ ..]) (d.inPort k.val t p).2 t t
  rw [State.completes_ins rfl (by rw [insAccess, hpart Thread.st fun _ _ => rfl]; exact hst), insAccess, hpart Thread.pc fun _ _ => rfl]

/-- A write that is served at once goes to its port. -/
theorem State.accessed_write {d : State} {k : CoreId} {t p : Nat} {w : Word} (hclear : Clear d k.val p)
    (hst : ((d.outPort k.val t p w).th t).st ≠ .idle) :
    d.accessed (insAccess k.val t (.write p w)) = (d.outPort k.val t p w).wentOn t ((d.outPort k.val t p w).th t).pc := by
  rw [Clear.accessed hclear k.isLt]
  exact State.completes_ins (x := insAccess k.val t (.write p w)) rfl hst

/-- An access that another precedes is asked for. -/
theorem State.accessed_asks {d : State} {x : Transfer} (h : ¬ Clear d x.core x.move.port) : d.accessed x = d.transfer x := by
  rw [State.accessed, if_pos (State.not_clear h)]

section
variable {s u : State} {k : CoreId} {t : Nat} (h : Issues s k t u) {rd ra : Reg} {imm : BitVec 16}
include h

theorem Issues.portIn (hr : u.refuses k.val t (portNumber ((u.th t).reg ra) imm) false = false) :
    exec (.portIn k rd ra imm) s =
      .next ((u.drainAll k.val).accessed (insAccess k.val t (.read (portNumber ((u.th t).reg ra) imm) rd.val))) :=
  h.left (by dsimp only; rw [hr, if_neg Bool.false_ne_true])

theorem Issues.portOut (hr : u.refuses k.val t (portNumber ((u.th t).reg ra) imm) true = false)
    (hb : ¬ (k.val < 6 ∧ fieldPort (portNumber ((u.th t).reg ra) imm) = true)) : exec (.portOut k rd ra imm) s =
      .next ((u.drainAll k.val).accessed (insAccess k.val t (.write (portNumber ((u.th t).reg ra) imm) ((u.th t).reg rd)))) :=
  h.left (by dsimp only; rw [hr, if_neg Bool.false_ne_true, if_neg (by simpa using hb)])

theorem Issues.portOut_buffered (hr : u.refuses k.val t (portNumber ((u.th t).reg ra) imm) true = false)
    (hb : k.val < 6 ∧ fieldPort (portNumber ((u.th t).reg ra) imm) = true) : exec (.portOut k rd ra imm) s =
      .next ((u.buffer k.val t (portNumber ((u.th t).reg ra) imm) ((u.th t).reg rd)).wentOn t (u.th t).pc) :=
  h.went (by dsimp only; rw [hr, if_neg Bool.false_ne_true, if_pos (by simpa using hb)])

end

/-- Settles O24: what is refused traps; what is buffered waits; any other access is served at once or asked for. -/
theorem portInstructions : Obligations.PortInstructions := by
  intro s u k t rd ra imm h pc p w d r o buffered
  refine ⟨fun hr hclear hrun hst => ?_, fun hr hb => ?_, fun hr hb hclear hst => ?_, fun hno => ⟨fun hr => ?_, fun hr hb => ?_⟩,
    fun hr => ?_, fun hr => ?_, h.went rfl⟩
  · exact (h.portIn hr).trans (congrArg _ (State.accessed_read hclear hrun hst))
  · rw [h.portOut_buffered hr hb, State.buffer]
    refine congrArg (fun v : State => Host.Outcome.next ((v.modCore k.val _).wentOn t pc)) ?_
    by_cases hlen : (u.core k.val).wbuf.length < 4
    · rw [if_pos hlen, if_neg (by omega)]
    · rw [if_neg hlen, if_pos (by omega)]
  · exact (h.portOut hr hb).trans (congrArg _ (State.accessed_write hclear hst))
  · exact (h.portIn hr).trans (congrArg _ (State.accessed_asks hno))
  · exact (h.portOut hr hb).trans (congrArg _ (State.accessed_asks hno))
  · exact h.trapped (by dsimp only; rw [if_pos (by exact hr)]; rfl)
  · exact h.trapped (by dsimp only; rw [if_pos (by exact hr)]; rfl)

end Sys2Proof.Machine

/-! SUPPORT. The statement of POST and POSTE. -/

namespace Sys2Proof.Machine

/-- The open item that the first post of an item makes. -/
def OpenItem.fresh (q : Nat) : OpenItem := { q := q, words := [], flushed := none, dropped := false }

/-! ### A word joins an open item (R570 to R573) -/

/-- A post that does not cross the hinge, or crosses it in field state, is not dropped (R580). -/
theorem State.postDark_of_atOnce {s : State} {k q : Nat} (h : crosses k q = false ∨ s.sys.fieldUp = true) : s.postDark k q = false := by
  rcases h with h | h
  · by_cases h6 : k = 6
    · rw [crosses, if_pos h6] at h
      rw [State.postDark, h, Bool.and_false, Bool.false_and]
    · rw [State.postDark, decide_eq_false h6, Bool.false_and, Bool.false_and]
  · rw [State.postDark, h, Bool.not_true, Bool.and_false]

section
variable {s : State} {k t : Nat} {o : OpenItem} (hf : o.flushed = none) (hd : o.dropped = false) (hdark : s.postDark k o.q = false)
  (w : Word)
include hf hd hdark

/-- POST adds a word that does not fill the item. -/
theorem State.append_adds (hlen : o.words.length < 3) :
    s.append k t o w false = s.setOpen t (some { o with words := o.words ++ [w] }) := by
  have hends : (false || (o.words ++ [w]).length = 4) = false := by simp; omega
  unfold State.append
  rw [hf]
  dsimp only
  rw [hends, hd, hdark]
  rfl

/-- POSTE ends the item, which becomes visible (R571). -/
theorem State.append_ends :
    s.append k t o w true = ((s.drainAll k).setOpen t none).visible o.q (sealed t (o.words ++ [w])) := by
  unfold State.append
  rw [hf]
  dsimp only
  rw [hd, hdark]
  rfl

end

/-- A word of an item that LC posts toward the field while that is down is dropped (R580). -/
theorem State.append_dark {s : State} {k t q : Nat} (h : s.postDark k q = true) (w : Word) :
    s.append k t (.fresh q) w false
        = s.setOpen t (some { q := q, words := [w], flushed := none, dropped := true })
      ∧ s.append k t (.fresh q) w true
        = (s.setOpen t none).modSow fun x => { x with dropped := satInc 65535 x.dropped } := by
  unfold State.append OpenItem.fresh
  dsimp only
  rw [h]
  exact ⟨rfl, rfl⟩

theorem State.post_open {s : State} {k t q : Nat} {w : Word} {last : Bool} {o : OpenItem} (h : (s.th t).openItem = some o) :
    s.post k t q w last = .went (s.append k t o w last) := by
  unfold State.post
  rw [h]

theorem State.post_fresh {s : State} {k t q : Nat} {w : Word} {last : Bool} (h : (s.th t).openItem = none)
    (hallow : postAllowed t q = true) (hroom : s.postDark k q = true ∨ s.hasRoom q = true ∧ s.waiter q = none) :
    s.post k t q w last = .went (s.append k t (.fresh q) w last) := by
  have hgo : (s.postDark k q || (s.hasRoom q && (s.waiter q).isNone)) = true := by
    rcases hroom with h | ⟨h, hw⟩
    · rw [h, Bool.true_or]
    · rw [h, hw, Option.isNone_none, Bool.and_true, Bool.or_true]
  unfold State.post
  rw [h]
  dsimp only
  rw [hallow, hgo]
  rfl

theorem State.post_refused {s : State} {k t q : Nat} {w : Word} {last : Bool} (h : (s.th t).openItem = none)
    (hallow : postAllowed t q = false) : s.post k t q w last = .trapped 2 (wordOf (q + 131072)) := by
  unfold State.post
  rw [h]
  dsimp only
  rw [hallow]
  rfl

theorem State.post_waits {s : State} {k t q : Nat} {w : Word} {last : Bool} (h : (s.th t).openItem = none)
    (hallow : postAllowed t q = true) (hdark : s.postDark k q = false) (hroom : s.hasRoom q = false) :
    s.post k t q w last = .left (s.waitSpace k t q w last) := by
  unfold State.post
  rw [h]
  dsimp only
  rw [hallow, hdark, hroom]
  rfl

/-- WAITSPACE: the thread waits last for its place, and the core is free (R570, R634). -/
theorem State.waitSpace_spec (s : State) {k t : Nat} (ht : t < 128) (q : Nat) (w : Word) :
    let v := s.waitSpace k t q w false
    (v.th t).st = .waitspace ∧ (v.th t).wait = some { q := q, w := w, last := false } ∧ (v.th t).pc = (s.th t).pc
      ∧ (v.core k).run = none ∧ v.sow.claims = s.sow.claims ++ [(q, .thread t)] := by
  intro v
  have hth : v.th t = { (s.th t).settle with st := .waitspace, wait := some { q := q, w := w, last := false } } := by
    unfold v State.waitSpace
    dsimp only
    rw [State.freeCore_th]
    refine (State.th_modTh_self _ _ _ ht).trans ?_
    rw [if_neg Bool.false_ne_true, State.trace_th]
  rw [hth]
  refine ⟨rfl, rfl, rfl, ?_, ?_⟩
  · exact (State.freeCore_run ..).trans (if_pos rfl)
  · unfold v State.waitSpace
    dsimp only
    rw [State.freeCore_claims]
    change (State.trace _ ..).sow.claims ++ _ = _
    rw [State.trace_claims, if_neg Bool.false_ne_true]

/-! ### The words of an item (R571) -/

theorem sealed_length (t : Nat) (words : List Word) : (sealed t words).length = words.length := by cases words <;> simp [sealed]
theorem sealed_tail (t : Nat) (words : List Word) : (sealed t words).tail = words.tail := by cases words <;> simp [sealed]

theorem plotOf_lt (t : Nat) : plotOf t < 16 := by
  unfold plotOf
  split <;> omega

theorem header_fields {len flow ten typ : Nat} (hl : len < 4) (hf : flow < 1024) (ht : ten < 16) (hy : typ < 65536) :
    fieldAt (header len flow ten typ).toNat 30 2 = len ∧ fieldAt (header len flow ten typ).toNat 20 10 = flow
      ∧ fieldAt (header len flow ten typ).toNat 0 16 = typ ∧ fieldAt (header len flow ten typ).toNat 16 4 = ten := by
  rw [header, wordOf_toNat_of_lt (by omega)]
  unfold fieldAt
  omega

/-- The sealed header: its LEN, its FLOW and TYPE as posted, and its TENANCY, which is a plot's own (R571). -/
theorem sealed_header (t : Nat) {words : List Word} (h0 : words ≠ []) (h4 : words.length ≤ 4) :
    let x := ((sealed t words).headD 0).toNat
    fieldAt x 30 2 = words.length - 1 ∧ fieldAt x 20 10 = fieldAt (words.headD 0).toNat 20 10
      ∧ fieldAt x 0 16 = fieldAt (words.headD 0).toNat 0 16
      ∧ fieldAt x 16 4 = if isPlot t then plotOf t else fieldAt (words.headD 0).toNat 16 4 := by
  obtain ⟨w, l, rfl⟩ := List.exists_cons_of_ne_nil h0
  have hf (i n : Nat) : fieldAt w.toNat i n < 2 ^ n := Nat.mod_lt _ (Nat.two_pow_pos n)
  refine header_fields (Nat.lt_of_succ_le h4) (hf 20 10) ?_ (hf 0 16)
  split
  · exact plotOf_lt t
  · exact hf 16 4

/-! ### The instructions -/

/-- The state in which core `k` posts to queue `q`: a transfer has been granted where the post crosses the hinge. -/
def State.atPost (s : State) (k q : Nat) : State := if crosses k q then s.granted k else s

@[simp] theorem State.atPost_th (s : State) (k q t : Nat) : (s.atPost k q).th t = s.th t := by
  unfold State.atPost
  split
  · rw [State.th, State.granted_sow, State.th]
  · rfl

theorem State.atPost_postDark (s : State) (k q : Nat) : (s.atPost k q).postDark k q = s.postDark k q := by
  unfold State.atPost
  split
  · rw [State.postDark, State.granted_sys, State.postDark]
  · rfl

/-- A post in the core's own part of the hinge does what `State.post` does. -/
theorem postBody_here {u : State} {k : CoreId} {t : Nat} {rs ra : Reg} {imm : BitVec 16} {last : Bool}
    (hn : (u.th t).openItem = none)
    (hc : u.sys.fieldUp = false ∨ crosses k.val (((u.th t).reg ra + immZ imm).toNat % 64) = false
      ∨ postAllowed t (((u.th t).reg ra + immZ imm).toNat % 64) = false) :
    postBody k rs ra imm last u t = u.post k.val t (((u.th t).reg ra + immZ imm).toNat % 64) ((u.th t).reg rs) last := by
  unfold postBody
  dsimp only
  rw [hn]
  refine if_neg ?_
  rw [Option.map_none, Option.getD_none, Option.isSome_none, Bool.false_or]
  rcases hc with hc | hc | hc <;> simp only [hc, Bool.false_and, Bool.and_false, Bool.false_eq_true, not_false_eq_true]

section
variable {s u : State} {k : CoreId} {t : Nat} (h : Issues s k t u) {rs ra : Reg} {imm : BitVec 16} {last : Bool} {v : State} {n : Nat}
include h

/-- A post that is made at once, toward queue `n`, goes on at the next address (R53, R570). -/
theorem Issues.posted (hn : ((u.th t).openItem.map OpenItem.q).getD (((u.th t).reg ra + immZ imm).toNat % 64) = n)
    (hat : crosses k.val n = false ∨ u.sys.fieldUp = true ∧ u.hng.waiting = [] ∧ u.hng.asking = [])
    (hok : ((u.th t).openItem.isSome || postAllowed t (((u.th t).reg ra + immZ imm).toNat % 64)) = true)
    (hv : (u.atPost k.val n).post k.val t (((u.th t).reg ra + immZ imm).toNat % 64) ((u.th t).reg rs) last = .went v)
    (hst : (v.th t).st ≠ .idle) (hpc : (v.th t).pc = (u.th t).pc) :
    Machine.oluique s k always (postBody k rs ra imm last) = .next (v.wentOn t (u.th t).pc) := by
  cases hc : crosses k.val n with
  | false =>
    refine h.went ?_
    unfold postBody
    dsimp only
    rw [hn, hc, Bool.and_false, Bool.false_and, if_neg Bool.false_ne_true, ← hv, State.atPost, hc, if_neg Bool.false_ne_true]
  | true =>
    obtain ⟨hup, hw, ha⟩ := hat.resolve_left (by simp [hc])
    refine (h.left (v := v.wentOn t (u.th t).pc) ?_)
    unfold postBody
    dsimp only
    rw [hn, hc, hup, hok, Bool.and_self, Bool.and_self, if_pos rfl, State.transfer_alone hw ha k.isLt]
    rw [State.atPost, hc, if_pos rfl] at hv
    refine congrArg Did.left ?_
    unfold State.hingeGrant insAccess
    dsimp only
    rw [hv]
    dsimp only
    rw [State.completes_ins rfl hst, hpc]

end

/-- Settles O25: the cases of a post, of which each at once is `Issues.posted`. -/
theorem posting : Obligations.Posting := by
  intro s u k t rs ra imm o h ht hst q w pc setOpen atOnce g fresh adds
  have hst' (v : State) (x : Option OpenItem) : ((v.setOpen t x).th t).st = (v.th t).st :=
    State.th_modTh_part Thread.st (f := fun h => { h with openItem := x }) (fun _ => rfl) v t t
  have hpc' (v : State) (x : Option OpenItem) : ((v.setOpen t x).th t).pc = (v.th t).pc :=
    State.th_modTh_part Thread.pc (f := fun h => { h with openItem := x }) (fun _ => rfl) v t t
  have hdark {n : Nat} (ha : atOnce n) : (u.atPost k.val n).postDark k.val n = false :=
    (State.atPost_postDark ..).trans (State.postDark_of_atOnce (ha.imp id And.left))
  have hfresh (hf : fresh) (last : Bool) : (u.atPost k.val q).post k.val t q w last
      = .went ((u.atPost k.val q).append k.val t (.fresh q) w last) := by
    obtain ⟨hno, hallow, hroom, hwait, -⟩ := hf
    refine State.post_fresh (by rw [State.atPost_th]; exact hno) hallow (.inr ?_)
    unfold State.atPost
    split
    · rw [State.granted_hasRoom, State.granted_waiter]
      exact ⟨hroom, hwait⟩
    · exact ⟨hroom, hwait⟩
  have hsetst (n : Nat) (x : Option OpenItem) : (((u.atPost k.val n).setOpen t x).th t).st ≠ .idle := by
    rw [hst', State.atPost_th]
    exact hst
  have hsetpc (n : Nat) (x : Option OpenItem) : (((u.atPost k.val n).setOpen t x).th t).pc = pc := by
    rw [hpc', State.atPost_th]
  refine ⟨fun hf => ?_, fun hf => ?_, fun ha hlen => ?_, fun ha hlen => ?_, fun hno hallow hc hroom => ?_, fun hno hallow => ?_,
    fun hno hallow h6 hq hdown => ?_⟩
  · have happ := hfresh hf false
    obtain ⟨hno, hallow, -, -, hat⟩ := hf
    have happ := happ.trans (congrArg Did.went (State.append_adds (o := OpenItem.fresh q) rfl rfl (hdark hat) w (Nat.zero_lt_succ 2)))
    exact h.posted (n := q) (by rw [hno]; rfl) hat (by rw [hno]; exact hallow) happ (hsetst q _) (hsetpc q _)
  · intro v hvst hvpc
    have happ := hfresh hf true
    obtain ⟨hno, hallow, -, -, hat⟩ := hf
    have happ := happ.trans (congrArg Did.went (State.append_ends (o := OpenItem.fresh q) rfl rfl (hdark hat) w))
    exact h.posted (n := q) (by rw [hno]; rfl) hat (by rw [hno]; exact hallow) happ hvst hvpc
  · obtain ⟨ho, hfl, hdr, hat⟩ := ha
    have hpost := State.post_open (s := u.atPost k.val o.q) (k := k.val) (q := q) (w := w) (last := false) ((congrArg _ (u.atPost_th ..)).trans ho)
    rw [State.append_adds hfl hdr (hdark hat) w hlen] at hpost
    exact h.posted (n := o.q) (by rw [ho]; rfl) hat (by rw [ho]; rfl) hpost (hsetst o.q _) (hsetpc o.q _)
  · obtain ⟨ho, hfl, hdr, hat⟩ := ha
    have hpost := State.post_open (s := u.atPost k.val o.q) (k := k.val) (q := q) (w := w) (last := true) ((congrArg _ (u.atPost_th ..)).trans ho)
    rw [State.append_ends hfl hdr (hdark hat) w] at hpost
    have hlen' : (o.words ++ [w]).length = o.words.length + 1 := List.length_append
    obtain ⟨hl, hflow, htyp, hten⟩ := sealed_header t (words := o.words ++ [w]) (by simp) (by omega)
    refine ⟨sealed t (o.words ++ [w]), fun v hv hvst hvpc => ?_, (sealed_length ..).trans hlen', sealed_tail .., ?_, hflow, htyp, hten⟩
    · subst hv
      exact h.posted (n := o.q) (by rw [ho]; rfl) hat (by rw [ho]; rfl) hpost hvst hvpc
    · rw [hlen'] at hl
      exact hl
  · have hdark' : u.postDark k.val q = false := State.postDark_of_atOnce (.inl hc)
    refine ⟨_, h.left ((postBody_here hno (.inr (.inl hc))).trans (State.post_waits hno hallow hdark' hroom)), ?_⟩
    exact u.waitSpace_spec ht q w
  · have hrefused (last : Bool) := (postBody_here (k := k) (last := last) (rs := rs) hno (.inr (.inr hallow))).trans (State.post_refused hno hallow)
    exact ⟨h.trapped (hrefused false), h.trapped (hrefused true)⟩
  · have hdark' : u.postDark k.val q = true := by
      rw [State.postDark, fieldQ, h6, hdown, decide_eq_true hq]
      rfl
    have hposts (last : Bool) := (postBody_here (k := k) (last := last) (rs := rs) hno (.inl hdown)).trans (State.post_fresh hno hallow (.inl hdark'))
    obtain ⟨hpost, hposte⟩ := State.append_dark (t := t) hdark' w
    exact ⟨h.went ((hposts false).trans (congrArg _ hpost)), h.went ((hposts true).trans (congrArg _ hposte))⟩

end Sys2Proof.Machine

/-! SUPPORT. The statement of the key scanner. -/

namespace Sys2Proof.Machine

/-! ### Samples (R461) -/

theorem Keys.count_setCount_self (x : Keys) (p n : Nat) : (x.setCount p n).count p = n := by
  have hno : ((x.counts.filter fun c => c.1 ≠ p).find? fun c => c.1 = p) = none := by
    rw [List.find?_eq_none]
    intro c hc
    simpa using (List.mem_filter.1 hc).2
  unfold Keys.setCount Keys.count
  dsimp only
  by_cases hn : n = 0
  · rw [if_pos hn, hno, hn]
    rfl
  · rw [if_neg hn, List.find?_cons_of_pos (by simp)]
    rfl

theorem Keys.count_setCount_ne (x : Keys) {p q : Nat} (n : Nat) (h : q ≠ p) : (x.setCount p n).count q = x.count q := by
  have hfilter : ((x.counts.filter fun c => c.1 ≠ p).find? fun c => c.1 = q) = x.counts.find? fun c => c.1 = q := by
    rw [List.find?_filter]
    refine congrArg (fun g => List.find? g x.counts) (funext fun c => ?_)
    by_cases hc : c.1 = q
    · simp [hc, h]
    · simp [hc]
  unfold Keys.setCount Keys.count
  dsimp only
  by_cases hn : n = 0
  · rw [if_pos hn, hfilter]
  · rw [if_neg hn, List.find?_cons_of_neg (by simpa using h.symm), hfilter]

/-- A sample's three cases: no difference, one that does not change the key yet, and the fourth in a row. -/
theorem Keys.sample_eq (x : Keys) (row col : Nat) (b : Bool) :
    let y : Keys := { x with raw := vmod x.raw row fun w => putBit w col b }
    x.sample row col b = if (vget x.deb row).getLsbD col = b then (y.setCount (32 * row + col) 0, [])
      else if x.count (32 * row + col) = 3 then
        ({ y.setCount (32 * row + col) 0 with deb := vmod x.deb row fun w => putBit w col b }, [(32 * row + col, b)])
      else (y.setCount (32 * row + col) (x.count (32 * row + col) + 1), []) := rfl

theorem vget_fin {α : Type} [Inhabited α] {n : Nat} (v : Vector α n) (i : Fin n) : vget v i.val = v[i] := by
  simp [vget]

/-- A bitmap of a table of them, one bit of which is put. -/
theorem getLsbD_vmod_putBit (v : Vector (BitVec 32) 16) (row i : Fin 16) (col j : Fin 32) (b : Bool) :
    ((vmod v row.val fun w => putBit w col.val b)[i]).getLsbD j.val = if i = row ∧ j = col then b else (v[i]).getLsbD j.val := by
  rw [← vget_fin, ← vget_fin, vmod, vget_vset]
  by_cases hr : i = row
  · rw [hr, if_pos ⟨rfl, row.isLt⟩, getLsbD_putBit _ _ _ _ j.isLt]
    by_cases hc : j = col
    · rw [if_pos (by rw [hc]), if_pos ⟨rfl, hc⟩]
    · rw [if_neg fun h => hc (Fin.ext h.symm), if_neg fun h => hc h.2]
  · rw [if_neg fun h => hr (Fin.ext h.1.symm), if_neg fun h => hr h.1]

/-- What a row of samples leaves. -/
theorem Keys.sampleRow_frame (x : Keys) (row : Nat) (c : BitVec 32) (l : List Nat) :
    ∃ (raw deb : Vector (BitVec 32) 16) (counts : List (Nat × Nat)),
      (x.sampleRow row c l).1 = { x with raw := raw, deb := deb, counts := counts } := by
  have hone (y : Keys) (n : Nat) (b : Bool) : ∃ (raw deb : Vector (BitVec 32) 16) (counts : List (Nat × Nat)),
      (y.sample row n b).1 = { y with raw := raw, deb := deb, counts := counts } := by
    rw [Keys.sample_eq]
    split
    · exact ⟨_, _, _, rfl⟩
    · split <;> exact ⟨_, _, _, rfl⟩
  induction l generalizing x with
  | nil => exact ⟨x.raw, x.deb, x.counts, rfl⟩
  | cons n l ih =>
    obtain ⟨raw, deb, counts, hx⟩ := hone x n (c.getLsbD n)
    obtain ⟨raw', deb', counts', hl⟩ := ih (x.sample row n (c.getLsbD n)).1
    exact ⟨raw', deb', counts', hl.trans (by rw [hx])⟩

/-- Samples do not depend on the rate of the scheduled starts. -/
theorem Keys.sampleRow_fast (x : Keys) (fast : Bool) (row : Nat) (c : BitVec 32) (l : List Nat) :
    ({ x with fast := fast } : Keys).sampleRow row c l
      = ({ (x.sampleRow row c l).1 with fast := fast }, (x.sampleRow row c l).2) := by
  have hone (y : Keys) (n : Nat) (b : Bool) : ({ y with fast := fast } : Keys).sample row n b
      = ({ (y.sample row n b).1 with fast := fast }, (y.sample row n b).2) := by
    rw [Keys.sample_eq, Keys.sample_eq]
    dsimp only
    split
    · rfl
    · have hcount : ({ y with fast := fast } : Keys).count (32 * row + n) = y.count (32 * row + n) := rfl
      rw [hcount]
      split <;> rfl
  induction l generalizing x with
  | nil => rfl
  | cons n l ih =>
    simp only [Keys.sampleRow, hone, ih]

/-! ### A frame (R459, R467) -/

section
variable {s : State} {r : ScanRun} (n : Nat)

theorem State.runFrame_step (he : r.events = []) (hf : r.finished = false) :
    State.runFrame (n + 1) s r = State.runFrame n (s.modKeys fun _ => (s.keys.runStep r).1) (s.keys.runStep r).2 := by
  rw [State.runFrame, he, hf]
  rfl

theorem State.runFrame_end (he : r.events = []) (hf : r.finished = true) :
    State.runFrame (n + 1) s r = s.modKeys fun x => { x with run := some r } := by
  rw [State.runFrame, he, hf]
  rfl

/-- The next item of the scanner is posted, where its queue takes it (R467, R469). -/
def State.scanPost (s : State) (e : Nat × Bool) : State :=
  ((if s.waiter s.keys.evq = some .scan then s.served s.keys.evq else s).visible s.keys.evq [header 0 0 0 (keyType e)]).modKeys
    fun x => { x with events := inc32 x.events }

theorem State.runFrame_post {e : Nat × Bool} {l : List (Nat × Bool)} (he : r.events = e :: l) (hroom : s.scanRoom = true) :
    State.runFrame (n + 1) s r = State.runFrame n (s.scanPost e) { r with events := l, stalled := false } := by
  rw [State.runFrame, he]
  dsimp only
  rw [hroom, if_pos rfl, State.scanPost]
  split <;> rfl

theorem State.runFrame_stall {e : Nat × Bool} {l : List (Nat × Bool)} (he : r.events = e :: l) (hroom : s.scanRoom = false)
    (hstall : r.stalled = false) : State.runFrame (n + 1) s r = (s.await s.keys.evq .scan).modKeys fun x =>
      { x with run := some { r with stalled := true }, stalls := satInc 65535 x.stalls } := by
  rw [State.runFrame, he]
  dsimp only
  rw [hroom, hstall]
  rfl

end

theorem State.raised_eq (s : State) (q : Nat) : s.raised q = { s with sow := { s.sow with queues := (s.raised q).sow.queues } } := by
  unfold State.raised
  split <;> rfl

/-- A posted key item stands last in its queue; of the scanner only its count of events moves. -/
theorem State.scanPost_spec (s : State) (e : Nat × Bool) : (s.scanPost e).keys = { s.keys with events := inc32 s.keys.events }
    ∧ (s.scanPost e).sow.store = s.sow.store
      ++ [{ words := [header 0 0 0 (0xC000 + 0x200 * bitNat e.2 + e.1)], q := s.keys.evq, age := s.sow.nextAge }] := by
  unfold State.scanPost State.visible
  rw [State.raised_eq]
  split <;> exact ⟨rfl, rfl⟩

/-- A frame leaves the program, the published frame and the rate, and it is under way then. -/
theorem State.runFrame_frame (n : Nat) (s : State) (r : ScanRun) : (State.runFrame n s r).keys.run.isSome = true
    ∧ (State.runFrame n s r).keys.active = s.keys.active ∧ (State.runFrame n s r).keys.swapPend = s.keys.swapPend
    ∧ (State.runFrame n s r).keys.pubDeb = s.keys.pubDeb ∧ (State.runFrame n s r).keys.fast = s.keys.fast := by
  induction n generalizing s r with
  | zero => exact ⟨rfl, rfl, rfl, rfl, rfl⟩
  | succ n ih =>
    cases he : r.events with
    | nil =>
      cases hf : r.finished with
      | true =>
        rw [State.runFrame_end n he hf]
        exact ⟨rfl, rfl, rfl, rfl, rfl⟩
      | false =>
        rw [State.runFrame_step n he hf]
        obtain ⟨hrun, hrest⟩ := ih (s.modKeys fun _ => (s.keys.runStep r).1) (s.keys.runStep r).2
        refine ⟨hrun, ?_⟩
        obtain ⟨raw, deb, counts, hstep⟩ := s.keys.sampleRow_frame (fieldAt (vget s.keys.program r.step).toNat 0 4)
          (vget r.contacts r.step) (stepCols (vget s.keys.program r.step))
        have hkeys : (s.modKeys fun _ => (s.keys.runStep r).1).keys = { s.keys with raw := raw, deb := deb, counts := counts } := hstep
        rw [hkeys] at hrest
        exact hrest
    | cons e l =>
      cases hroom : s.scanRoom with
      | true =>
        rw [State.runFrame_post n he hroom]
        obtain ⟨hrun, hrest⟩ := ih (s.scanPost e) { r with events := l, stalled := false }
        rw [(s.scanPost_spec e).1] at hrest
        exact ⟨hrun, hrest⟩
      | false =>
        cases hs : r.stalled with
        | false =>
          rw [State.runFrame_stall n he hroom hs]
          exact ⟨rfl, rfl, rfl, rfl, rfl⟩
        | true =>
          rw [State.runFrame, he]
          dsimp only
          rw [hroom, hs]
          exact ⟨rfl, rfl, rfl, rfl, rfl⟩

theorem State.scanRoom_keys (s : State) (sys : Sys) {y : Keys} (h : y.evq = s.keys.evq) :
    ({ s with sys := sys, keys := y } : State).scanRoom = s.scanRoom := by
  unfold State.scanRoom
  dsimp only
  rw [h] <;> rfl

/-- A frame that starts while none is under way. -/
theorem State.frameStart_free {s : State} (x : Vector (BitVec 32) 16) (h : s.keys.run = none) : ∃ (u : State) (r : ScanRun),
    s.frameStart x = State.runFrame frameFuel u r ∧ u.keys.active = (s.keys.active != s.keys.swapPend) ∧ u.keys.swapPend = false
      ∧ u.keys.pubDeb = s.keys.pubDeb ∧ u.keys.fast = s.sys.fastClk := by
  have hkeys : s.scanRate.keys = { s.keys with fast := s.sys.fastClk } := rfl
  unfold State.frameStart
  dsimp only
  rw [if_neg (by rw [hkeys, h]; decide)]
  refine ⟨_, _, rfl, ?_⟩
  rw [State.draw_keys]
  have harm (y : Keys) : (if y.post && !y.armed then { y with armed := true, base := y.deb } else y)
      = { y with armed := (if y.post && !y.armed then true else y.armed), base := if y.post && !y.armed then y.deb else y.base } := by
    split <;> rfl
  change (Keys.active (if _ then _ else _)) = _ ∧ Keys.swapPend (if _ then _ else _) = _ ∧ Keys.pubDeb (if _ then _ else _) = _
    ∧ Keys.fast (if _ then _ else _) = _
  rw [harm]
  change Keys.active (if s.keys.swapPend then _ else _) = _ ∧ Keys.swapPend (if s.keys.swapPend then _ else _) = _
    ∧ Keys.pubDeb (if s.keys.swapPend then _ else _) = _ ∧ Keys.fast (if s.keys.swapPend then _ else _) = _
  cases hs : s.keys.swapPend with
  | true => exact ⟨(Bool.bne_true ..).symm, rfl, rfl, rfl⟩
  | false => exact ⟨(Bool.bne_false ..).symm, hs, rfl, rfl⟩

/-- The first step of a frame samples the contacts of its row. -/
theorem Keys.stepContacts_zero (y : Keys) (x : Vector (BitVec 32) 16) (d : Nat) :
    vget (y.stepContacts x d) 0 = vget x (fieldAt (vget y.program 0).toNat 0 4) := by
  unfold Keys.stepContacts
  dsimp only
  rw [show (0 : Nat) = (0 : Fin 64).val from rfl, vget_fin]
  simp only [Fin.getElem_fin, Vector.getElem_ofFn]
  rfl

/-- The step of a frame of one step, with nothing to swap or to arm, has sampled its row. -/
theorem State.frameStart_sampled {s : State} (x : Vector (BitVec 32) 16) (hrun : s.keys.run = none) (hswap : s.keys.swapPend = false)
    (harm : s.keys.post = false ∨ s.keys.armed = true) (hlast : (vget s.keys.program 0).getLsbD 10 = true) :
    let row := fieldAt (vget s.keys.program 0).toNat 0 4
    let r := s.keys.sampleRow row (vget x row) (stepCols (vget s.keys.program 0))
    ∃ (sys : Sys) (c : ScanRun) (n : Nat), s.frameStart x
        = State.runFrame (n + 2) { s with sys := sys, keys := { r.1 with fast := s.sys.fastClk } } c
      ∧ c.events = (if s.keys.armed then r.2 else []) ∧ c.stalled = false ∧ c.finished = true := by
  intro row r
  let y : Keys := { s.keys with fast := s.sys.fastClk }
  let v : State := { s with sys := s.scanRate.draw.2.sys, keys := y }
  let c : ScanRun := { contacts := y.stepContacts x s.sys.draws, step := 0, events := [], stalled := false, finished := false }
  have hstart : s.frameStart x = State.runFrame frameFuel v c := by
    have hno : (y.post && !y.armed) = false := by
      rcases harm with h | h
      · rw [show y.post = false from h, Bool.false_and]
      · rw [show y.armed = true from h, Bool.not_true, Bool.and_false]
    unfold State.frameStart
    dsimp only
    rw [if_neg (by rw [show s.scanRate.keys.run = none from hrun]; decide)]
    have hkeep : (s.scanRate.modKeys fun x => if x.swapPend then { x with active := !x.active, swapPend := false } else x) = s.scanRate :=
      congrArg (fun k => { s with keys := k }) (if_neg (by change ¬ s.keys.swapPend = true; rw [hswap]; decide))
    have hkeep' : (s.scanRate.modKeys fun x => if x.post && !x.armed then { x with armed := true, base := x.deb } else x) = s.scanRate :=
      congrArg (fun k => { s with keys := k }) (if_neg (by change ¬ (y.post && !y.armed) = true; rw [hno]; decide))
    rw [hkeep, hkeep']
    rfl
  have hstep : y.runStep c = ({ r.1 with fast := s.sys.fastClk },
      { c with step := 1, events := if s.keys.armed then r.2 else [], finished := true }) := by
    have hrow : y.sampleRow row (vget c.contacts 0) (stepCols (vget y.program 0)) = ({ r.1 with fast := s.sys.fastClk }, r.2) := by
      rw [Keys.stepContacts_zero]
      exact Keys.sampleRow_fast ..
    change ((y.sampleRow row (vget c.contacts 0) (stepCols (vget y.program 0))).1, { c with
      step := 1, events := if y.armed then (y.sampleRow row (vget c.contacts 0) (stepCols (vget y.program 0))).2 else []
      finished := (vget s.keys.program 0).getLsbD 10 || decide ((0 : Nat) = 63) }) = _
    rw [hrow, hlast]
    rfl
  have hfirst := State.runFrame_step (s := v) (r := c) 2175 rfl rfl
  rw [show v.keys.runStep c = _ from hstep] at hfirst
  exact ⟨_, _, 2173, hstart.trans hfirst, rfl, rfl, rfl⟩

/-! ### The service of a key event (R471, R472, R475) -/

/-- An item that keeper firmware serves leaves the store; the functions that are up and the keeper's state stand. -/
theorem State.serveItem_spec (s : State) (it : Item) : (s.serveItem it).sow.store = removeAge it.age s.sow.store
    ∧ (s.serveItem it).up = s.up ∧ (s.serveItem it).sys.kst = s.sys.kst := by
  unfold State.serveItem State.endItem State.takeUpItem
  dsimp only
  rw [State.trace_store, State.trace_store, State.trace_eq, State.trace_eq]
  split <;> exact ⟨rfl, rfl, rfl⟩

/-- The key item is served with its notice, from `^READY KEYS` on (R83). -/
def State.keyServed (s : State) (it : Item) : State :=
  if s.isUp .keys then
    (s.serveItem it).notice ("*KEY " ++ positionText (fieldAt it.typ 0 9) ++ (if it.typ / 512 % 2 = 1 then " CLOSED" else " OPEN"))
  else s.serveItem it

theorem State.notice_sow (s : State) (t : String) : (s.notice t).sow = s.sow := by rw [State.notice_eq]

theorem State.keyServed_spec (s : State) (it : Item) : (s.keyServed it).sow.store = removeAge it.age s.sow.store
    ∧ (s.keyServed it).sys.kst = s.sys.kst := by
  obtain ⟨hstore, -, hkst⟩ := s.serveItem_spec it
  unfold State.keyServed
  split
  · rw [State.notice_sow, State.notice_sys]
    exact ⟨hstore, hkst⟩
  · exact ⟨hstore, hkst⟩

theorem State.serveKey_eq {s : State} {it : Item} (h : s.keyItem = some it) : s.serveKey =
    if fieldAt it.typ 0 9 < 384 then
      (if s.sys.kst = .field then (s.keyServed it).lcPost 5 [header 1 (1 + keyBay (fieldAt it.typ 0 9)) 0 it.typ, wordOf it.typ]
        else s.keyServed it).showTag (keyBay (fieldAt it.typ 0 9))
    else s.keyServed it := by
  obtain ⟨-, hup, -⟩ := s.serveItem_spec it
  obtain ⟨-, hkst⟩ := s.keyServed_spec it
  have hserved : (if (s.serveItem it).isUp .keys then
      (s.serveItem it).notice ("*KEY " ++ positionText (fieldAt it.typ 0 9) ++ (if bitAt it.typ 9 then " CLOSED" else " OPEN"))
      else s.serveItem it) = s.keyServed it := by
    unfold State.keyServed State.isUp bitAt
    rw [hup]
    simp only [decide_eq_true_eq]
    rfl
  unfold State.serveKey
  rw [h]
  dsimp only
  rw [hserved, hkst]

/-- Settles O58: the cases of a sample, of a frame of one step, and of the service of a key event. -/
theorem scanning : Obligations.Scanning := by
  intro s x j w hreset k posts
  have hlatch (f : State → State) : onLatch s f = .next (f s) := by rw [onLatch, hreset]; rfl
  have hstart : exec (.scanFrameStart x) s = .next (s.frameStart x) := hlatch fun s => s.frameStart x
  have hresume : exec .shiftStallResume s = .next s.stallResume := hlatch State.stallResume
  have hstep : exec (.scanStepWrite j w) s = .next { s with keys := k.writeStep j.val (w.setWidth 11) } :=
    hlatch fun s => s.modKeys fun x => x.writeStep j.val (w.setWidth 11)
  have hlater {r : ScanRun} (hr : k.run = some r) (hs : r.stalled = true) (hroom : s.scanRoom = true) : s.stallResume = s.runLater r := by
    unfold State.stallResume
    rw [hr]
    dsimp only
    rw [hs, hroom]
    rfl
  refine ⟨fun h => ?missed, fun h => ?starts, fun r hr hs hroom => ?resumes, fun r hr hf he => ?completes,
    hlatch fun s => s.modKeys fun x => { x with swapPend := true }, fun h => ?rejected, fun h => ?written,
    hlatch fun s => s.modKeys fun x => { x with post := true }, fun h => ?disarms, fun y row col b => ?sample, ?first,
    fun r e hr hs hroom hf he => ?resumed, fun it hit => ?served⟩
  case missed => exact hstart.trans (congrArg _ (if_pos h))
  case starts =>
    obtain ⟨u, r, hu, hactive, hswap, hpub, hfast⟩ := s.frameStart_free x h
    obtain ⟨hrun, ha, hs, hp, hf⟩ := State.runFrame_frame frameFuel u r
    exact ⟨_, hstart.trans (congrArg _ hu), ha.trans hactive, hs.trans hswap, hrun, hp.trans hpub, hf.trans hfast⟩
  case resumes => exact hresume.trans (congrArg _ (hlater hr hs hroom))
  case completes =>
    refine ⟨s.modKeys fun x => { x with pubDeb := x.deb, pubRaw := x.raw, frame := inc32 x.frame, run := none },
      (hlatch State.frameDone).trans (congrArg _ ?_), rfl⟩
    unfold State.frameDone
    rw [hr]
    dsimp only
    rw [hf, he]
    rfl
  case rejected => exact hstep.trans (congrArg (fun z : Keys => Host.Outcome.next { s with keys := z }) (if_pos h))
  case written => exact hstep.trans (congrArg (fun z : Keys => Host.Outcome.next { s with keys := z }) (if_neg (by rw [h]; decide)))
  case disarms =>
    refine (hlatch State.disarm).trans (congrArg _ ?_)
    unfold State.disarm
    dsimp only
    rw [show (s.modKeys fun x => { x with post := false, armed := false }).keys.run = none from h]
    rfl
  case sample =>
    intro z p was
    have hdeb : (vget y.deb row.val).getLsbD col.val = was := by rw [vget_fin]
    have hraw : z.raw = vmod y.raw row.val fun w => putBit w col.val b := by
      unfold z
      rw [Keys.sample_eq]
      split
      · rfl
      · split <;> rfl
    refine ⟨?_, fun h => ?_, fun h hn => ?_, fun h hn => ?_, fun q hq => ?_, fun i l hne => ?_⟩
    · rw [hraw, getLsbD_vmod_putBit, if_pos ⟨rfl, rfl⟩]
    · have hz : y.sample row.val col.val b = _ := (Keys.sample_eq ..).trans (if_pos (hdeb.trans h))
      unfold z
      rw [hz]
      exact ⟨rfl, rfl, Keys.count_setCount_self ..⟩
    · have hz : y.sample row.val col.val b = _ := (Keys.sample_eq ..).trans ((if_neg fun e => h (hdeb.symm.trans e)).trans (if_neg hn))
      unfold z
      rw [hz]
      exact ⟨rfl, rfl, Keys.count_setCount_self ..⟩
    · have hz : y.sample row.val col.val b = _ := (Keys.sample_eq ..).trans ((if_neg fun e => h (hdeb.symm.trans e)).trans (if_pos hn))
      unfold z
      rw [hz]
      exact ⟨rfl, Keys.count_setCount_self _ p 0, fun i l => getLsbD_vmod_putBit y.deb row i col l b⟩
    · unfold z
      rw [Keys.sample_eq]
      split
      · exact Keys.count_setCount_ne _ _ hq
      · split
        · exact Keys.count_setCount_ne { y with raw := vmod y.raw row.val fun w => putBit w col.val b } 0 hq
        · exact Keys.count_setCount_ne _ _ hq
    · rw [hraw, getLsbD_vmod_putBit, if_neg fun h => hne (Prod.ext h.1 h.2)]
  case first =>
    intro w row r hrun hswap harm hlast
    obtain ⟨sys, c, n, hu, hev, hstall, hfin⟩ := s.frameStart_sampled x hrun hswap harm hlast
    obtain ⟨raw, deb, counts, hr⟩ := k.sampleRow_frame row (vget x row) (stepCols w)
    let u : State := { s with sys := sys, keys := { r.1 with fast := s.sys.fastClk } }
    have hkeys : u.keys = { k with raw := raw, deb := deb, counts := counts, fast := s.sys.fastClk } :=
      congrArg (fun y : Keys => { y with fast := s.sys.fastClk }) hr
    have hevq : u.keys.evq = k.evq := by rw [hkeys]
    have hevents : u.keys.events = k.events := by rw [hkeys]
    have hstalls : u.keys.stalls = k.stalls := by rw [hkeys]
    have hraw : u.keys.raw = r.1.raw := rfl
    have hdeb : u.keys.deb = r.1.deb := rfl
    have hroom : u.scanRoom = s.scanRoom := State.scanRoom_keys s sys hevq
    refine ⟨fun hno => ?_, fun e harmed hr' hone => ?_, fun e l harmed hr' hmore => ?_⟩
    · have hnone : c.events = [] := by
        rw [hev]
        rcases hno with h | h
        · rw [h]
          rfl
        · rw [show r.2 = [] from h, ite_self]
      exact ⟨_, hstart.trans (congrArg _ (hu.trans (State.runFrame_end (n + 1) hnone hfin))), rfl, rfl, rfl, rfl, hevents⟩
    · have hev' : c.events = [e] := by rw [hev, harmed, if_pos rfl, ← hone]
      obtain ⟨hposted, hstore⟩ := u.scanPost_spec e
      have hframe := (State.runFrame_post (s := u) (n + 1) hev' (hroom.trans hr')).trans (State.runFrame_end n rfl hfin)
      refine ⟨_, hstart.trans (congrArg _ (hu.trans hframe)), (congrArg Keys.raw hposted).trans hraw,
        (congrArg Keys.deb hposted).trans hdeb, (congrArg Keys.events hposted).trans (congrArg inc32 hevents), hstore.trans ?_⟩
      rw [hevq]
    · have hev' : c.events = e :: l := by rw [hev, harmed, if_pos rfl, ← hmore]
      have hframe := State.runFrame_stall (s := u) (n + 1) hev' (hroom.trans hr') hstall
      refine ⟨_, hstart.trans (congrArg _ (hu.trans hframe)), hraw, hdeb, rfl, ?_, ?_, _, rfl, rfl, hev'⟩
      · exact List.mem_append_right _ (by rw [hevq]; exact List.mem_cons_self)
      · exact congrArg (satInc 65535) hstalls
  case resumed =>
    have hev (v : Vector (BitVec 32) 64) : ({ r with contacts := v } : ScanRun).events = [e] := he
    have hframe := (State.runFrame_post (s := s.draw.2) 2175 (hev (Vector.ofFn fun i => Config.laterContacts s.draw.1 i.val))
      (State.scanRoom_keys s _ rfl |>.trans hroom)).trans (State.runFrame_end 2174 rfl hf)
    obtain ⟨hposted, hstore⟩ := s.draw.2.scanPost_spec e
    exact ⟨_, hresume.trans (congrArg _ ((hlater hr hs hroom).trans hframe)), ⟨congrArg Keys.events hposted, hstore⟩, _, rfl, rfl, rfl⟩
  case served =>
    intro p v
    have hserved : v = s.keyServed it := rfl
    obtain ⟨hstore, -⟩ := s.keyServed_spec it
    have hkey : s.keyItem = some it := hit
    have hexec : exec .keyEventServe s = .next (if s.isUp .keys && takesFace it then s.serveKey.press else s.serveKey) := by
      refine (hlatch State.serveKeyEvent).trans (congrArg _ ?_)
      rw [State.serveKeyEvent, hkey]
    have hpanel : takesFace it = true → ¬ p < 384 := by
      intro ht
      simp only [takesFace, Bool.and_eq_true, decide_eq_true_eq] at ht
      exact Nat.not_lt.2 ht.1.1.2
    have hplain (h : (s.isUp .keys && takesFace it) = false) : exec .keyEventServe s = .next s.serveKey := by
      rw [hexec, h]
      rfl
    have hbay (h : p < 384) : (s.isUp .keys && takesFace it) = false := by
      cases ht : takesFace it with
      | true => exact absurd h (hpanel ht)
      | false => exact Bool.and_false _
    refine ⟨hstore, fun hp ht => ?_, fun hp hk => ?_, fun hp hk => ?_, fun hup ht => ⟨s.serveKey, ?_, ?_⟩⟩
    · rw [hplain (by rw [ht, Bool.and_false]), State.serveKey_eq hkey, if_neg (Nat.not_lt.2 hp)]
      rfl
    · rw [hplain (hbay hp), State.serveKey_eq hkey, if_pos hp, if_neg hk]
      rfl
    · rw [hplain (hbay hp), State.serveKey_eq hkey, if_pos hp, if_pos hk]
      rfl
    · rw [State.serveKey_eq hkey, if_neg (hpanel ht)]
      exact hstore
    · rw [hexec, hup, ht]
      rfl

end Sys2Proof.Machine

/-! SUPPORT. The statement of the instructions of the JTAG port. -/

namespace Sys2Proof.Machine

/-! ### The instruction register (R693, R694) -/

theorem jtagOf_code (i : Jtag) : jtagOf i.code = i := by cases i <;> rfl

theorem jtagOf_unlisted {x : BitVec 6} (h : ∀ i : Jtag, i.code ≠ x) : jtagOf x = .bypass := by
  unfold jtagOf
  rw [List.find?_eq_none.2 fun i _ => by simpa using h i]
  rfl

/-- The port with an instruction loaded that does not reset. -/
def State.loaded (s : State) (x : Jtag) : State := { s with jtag := { s.jtag with ir := x.code, irOut := 1#6, dbgReset := false } }

/-- DBG_RESET's source ends where another instruction is loaded. -/
theorem State.loadIr_eq (s : State) {x : Jtag} (h : x ≠ .dbgReset) : s.loadIr x = s.loaded x := by
  have hno : (s.jtag.dbgReset && decide (jtagOf x.code = .dbgReset)) = false := by
    rw [jtagOf_code, decide_eq_false h, Bool.and_false]
  unfold State.loadIr State.loadCode State.modJtag
  dsimp only
  rw [hno]
  rfl

/-! ### The boundary-scan register (R697) -/

theorem scanCells_length : scanCells.length = 282 := by
  simp [scanCells, scanBalls, Ball.cells, Ball.drives, List.length_flatMap, Function.comp_def]

theorem State.scanNow_length (s : State) (seen : List Bool) : (s.scanNow seen).length = 282 := by
  rw [State.scanNow, List.length_map, List.length_zipIdx, scanCells_length]

theorem State.scanNow_getD (s : State) (seen : List Bool) {i : Nat} (h : i < 282) :
    (s.scanNow seen).getD i false = s.cellNow (scanCells.getD i (.tck, .input)) (seen.getD i false) := by
  have hi : i < scanCells.length := by rw [scanCells_length]; exact h
  rw [List.getD_eq_getElem _ _ (by rw [State.scanNow_length]; exact h), List.getD_eq_getElem _ _ hi]
  simp only [State.scanNow, List.getElem_map, List.getElem_zipIdx, Nat.zero_add]

theorem scanLoad_length (l : List Bool) : (scanLoad l).length = 282 := by
  rw [scanLoad, List.length_map, List.length_range, scanCells_length]

theorem scanLoad_getD (l : List Bool) {i : Nat} (h : i < 282) : (scanLoad l).getD i false = l.getD i false := by
  rw [List.getD_eq_getElem _ _ (by rw [scanLoad_length]; exact h)]
  simp only [scanLoad, List.getElem_map, List.getElem_range]

/-! ### DBG_STATUS (R694) -/

theorem State.dbgStatus_spec {s : State} (h : s.jtag.breakTid < 128) :
    s.dbgStatus.toNat / 65536 = 0x4896 ∧ s.dbgStatus.toNat / 4096 % 16 = s.sys.coldCause % 16 := by
  unfold State.dbgStatus
  dsimp only
  have hclamps := bitNat_le (s.sys.clamps ≠ 0#12)
  have hparked := bitNat_le ((s.th s.jtag.breakTid).st = .faulted && (s.th s.jtag.breakTid).trap = 15)
  rw [wordOf_toNat_of_lt (by omega)]
  omega

/-! ### Debug accesses (R695) -/

/-- The capture of a scan: the result of the access before, and, free where that may still run, BUSY. -/
theorem State.scanDbg_spec (s : State) (sp : DbgSpace) (b : Bool) (a : Word) : ∃ (busy : Bool) (sys : Sys),
    (s.jtag.running = false → busy = false) ∧ s.scanDbg sp b a = { s with sys := sys, jtag :=
      { s.jtag with drOut := s.jtag.word busy, addr := a, space := dbgSpaceCode sp, side := b, running := true } } := by
  unfold State.scanDbg State.capture
  dsimp only
  split
  next h => exact ⟨_, _, fun hno => absurd h (by simp [hno]), rfl⟩
  next => exact ⟨_, _, fun _ => rfl, rfl⟩

theorem State.dbgRead_none {s : State} {sp : DbgSpace} {b : Bool} {a : Nat} (h : (s.dbgPeek sp b a).1 = none) :
    s.dbgRead sp b a = (s.dbgPeek sp b a).2.captured false 0#32 := by
  unfold State.dbgRead
  dsimp only
  rw [h]

theorem State.dbgRead_some {s : State} {sp : DbgSpace} {b : Bool} {a : Nat} {v : Word} (h : (s.dbgPeek sp b a).1 = some v) :
    s.dbgRead sp b a = (s.dbgPeek sp b a).2.captured true v := by
  unfold State.dbgRead
  dsimp only
  rw [h]

theorem State.dbgWrite_none {s : State} {sp : DbgSpace} {b : Bool} {a : Nat} {w : Word} (h : s.dbgPoke sp b a w = none) :
    s.dbgWrite sp b a w = s.captured false 0#32 := by
  unfold State.dbgWrite
  rw [h]

theorem State.dbgWrite_some {s v : State} {sp : DbgSpace} {b : Bool} {a : Nat} {w : Word} (h : s.dbgPoke sp b a w = some v) :
    s.dbgWrite sp b a w = v.captured true 0#32 := by
  unfold State.dbgWrite
  rw [h]

/-! ### DBG_RESUME and DBG_RESET (R694, R696) -/

/-- A thread parked by BREAK becomes READY with its fenced item (R696). -/
theorem State.dbgResume_spec {s : State} {t : Nat} (ht : t < 128) (hst : (s.th t).st = .faulted) (htrap : (s.th t).trap = 15) :
    (s.dbgResume t).th t
        = { s.th t with st := .ready, trap := 0, item := (s.sow.fenced.find? fun p => p.2.2 = t).map fun p => p.2.1 }
      ∧ ∀ p ∈ (s.dbgResume t).sow.fenced, p.2.2 ≠ t := by
  unfold State.dbgResume
  rw [if_pos (by rw [hst, htrap]; decide)]
  exact ⟨State.th_modTh_self _ _ _ ht, fun p hp => of_decide_eq_true (List.mem_filter.1 hp).2⟩

/-- Settles O60: each instruction loads its code; the rest is what its own lemma says. -/
theorem jtagInstructions : Obligations.JtagInstructions := by
  intro s c l sp b a w t held scanned
  have hload {x : Jtag} (h : x ≠ .dbgReset) : s.loadIr x = held x := s.loadIr_eq h
  have hread : exec (.dbgRead sp b a) s = .next ((scanned .dbgRead).dbgRead sp b a.toNat) := by
    rw [show scanned .dbgRead = (s.loadIr .dbgRead).scanDbg sp b a by rw [hload (by decide)]]
    rfl
  have hwrite : exec (.dbgWrite sp b a w) s = .next ((scanned .dbgWrite).dbgWrite sp b a.toNat w) := by
    rw [show scanned .dbgWrite = (s.loadIr .dbgWrite).scanDbg sp b a by rw [hload (by decide)]]
    rfl
  have hextest : exec .extest s = .next (if s.sys.fieldEn && !s.sys.inReset then (held .extest).fieldLost 3 "JTAG" else held .extest) := by
    rw [← hload (x := .extest) (by decide)]
    rfl
  refine ⟨jtagOf_code, fun x => jtagOf_unlisted, fun h => ?_, fun hen hr => ?_, ?_, fun hb => ?_, fun x => ?_, fun h => ?_, fun v h => ?_,
    fun h => ?_, fun v h => ?_, fun hst htrap => ?_, fun h => ?_, ?_, ?_, rfl⟩
  · rw [hextest, if_neg (by rcases h with h | h <;> simp [h])]
  · rw [hextest, if_pos (by rw [hen, hr]; rfl)]
  · refine ⟨(held .sample).modJtag fun j => { j with captured := (held .sample).scanNow c, cells := scanLoad l }, ?_, rfl, rfl, rfl,
      ?_, ?_, fun i hi => ⟨?_, ?_⟩, rfl, rfl⟩
    · rw [← hload (x := .sample) (by decide)]
      rfl
    · exact State.scanNow_length (held .sample) c
    · dsimp only [State.modJtag]
      exact scanLoad_length l
    · dsimp only [State.modJtag]
      exact scanLoad_getD l hi
    · exact State.scanNow_getD (held .sample) c hi
  · obtain ⟨hid, hcause⟩ := State.dbgStatus_spec (s := held .dbgStatus) hb
    refine ⟨(held .dbgStatus).modJtag fun j => { j with status := (held .dbgStatus).dbgStatus }, ?_, rfl, hid, hcause, rfl⟩
    rw [← hload (x := .dbgStatus) (by decide)]
    rfl
  · obtain ⟨busy, sys, hno, heq⟩ := (held x).scanDbg_spec sp b a
    refine ⟨busy, ?_, hno, ?_, ?_, ?_⟩
    all_goals
      unfold scanned
      rw [heq]
    rfl
  · exact ⟨_, hread.trans (congrArg _ (State.dbgRead_none h)), rfl, rfl⟩
  · exact ⟨_, hread.trans (congrArg _ (State.dbgRead_some h)), rfl, rfl⟩
  · obtain ⟨busy, sys, hno, heq⟩ := (held .dbgWrite).scanDbg_spec sp b a
    refine ⟨_, hwrite.trans (congrArg _ (State.dbgWrite_none h)), rfl, rfl, ?_, ?_⟩
    · change ((scanned .dbgWrite).jtag.ir) = _
      rw [show scanned .dbgWrite = _ from heq]
    · change (scanned .dbgWrite).mems = _
      rw [show scanned .dbgWrite = _ from heq]
  · exact ⟨_, hwrite.trans (congrArg _ (State.dbgWrite_some h)), rfl, rfl⟩
  · obtain ⟨hth, hfen⟩ := State.dbgResume_spec (s := held .dbgResume) t.isLt hst htrap
    refine ⟨(held .dbgResume).dbgResume t.val, ?_, congrArg Thread.st hth, congrArg Thread.trap hth, (congrArg Thread.pc hth).trans rfl,
      (congrArg Thread.regs hth).trans rfl, congrArg Thread.item hth, hfen⟩
    rw [← hload (x := .dbgResume) (by decide)]
    rfl
  · have hexec : exec (.dbgReset true) s
        = .next (((s.loadIr .dbgReset).coldStart 5 true false).modJtag fun j => { j with dbgReset := true }) := by
      have hno : (s.loadIr .dbgReset).jtag.dbgReset = false := by
        change (s.jtag.dbgReset && _) = false
        rw [h, Bool.false_and]
      change goOn (if (s.loadIr .dbgReset).jtag.dbgReset then _ else _) = _
      rw [hno]
      rfl
    obtain ⟨hin, hup, -, -, -, -, -, -, -, hcause, -⟩ := (s.loadIr .dbgReset).coldStart_coldFrom 5 true false
    exact ⟨_, hexec, hin, rfl, hup, hcause⟩
  · exact ⟨_, rfl, rfl, rfl, rfl⟩
  · rw [← hload (x := .bypass) (by decide)]
    rfl

end Sys2Proof.Machine
